-- ==== Sys2Proof/Word.lean ====
section
/-! DEFINITION. The word types of the HX-2400's management window and line time, and their plainest
arithmetic (R15: little-endian, bit 0 least significant). -/
namespace Sys2Proof

abbrev Byte := BitVec 8
abbrev Half := BitVec 16
abbrev Word := BitVec 32
abbrev Dword := BitVec 64
/-- A superframe count (R84). -/
abbrev Sf := BitVec 48
/-- A symbol index within a superframe (R84). -/
abbrev Sym := BitVec 24

/-- A line time stamp (R84): superframe count in bits [71:24], symbol index in bits [23:0]. -/
structure Lts where
  sf : Sf
  sym : Sym
  deriving DecidableEq, Repr

namespace Lts

def zero : Lts := ⟨0, 0⟩

/-- The 72-bit value; comparing two stamps as unsigned integers orders them in time (R84). -/
def toNat (t : Lts) : Nat := t.sf.toNat * 16777216 + t.sym.toNat

def ofNat (n : Nat) : Lts := ⟨BitVec.ofNat 48 (n / 16777216), BitVec.ofNat 24 n⟩

def lt (a b : Lts) : Bool := decide (a.toNat < b.toNat)

def le (a b : Lts) : Bool := decide (a.toNat ≤ b.toNat)

/-- The superframe boundary that starts superframe `sf`. -/
def boundary (sf : Sf) : Lts := ⟨sf, 0⟩

/-- The first superframe boundary at or after a stamp. -/
def ceilSf (t : Lts) : Lts := if t.sym = 0 then t else ⟨t.sf + 1, 0⟩

def max (a b : Lts) : Lts := if a.lt b then b else a

end Lts

end Sys2Proof
end

