-- ==== Sys2Proof/Syntax.lean ====
section
/-! DEFINITION. The commands of the HX-2400: one constructor of `Instr` per row of
spec/opcode_table.json, with the operands the spec gives the row. A mailbox command carries its
descriptor header (R59) and the request fields of its command card; an event carries what arrives
from outside the block (a level, a measured value, received bytes). -/
namespace Sys2Proof

/-- The header of a command descriptor (R59), with the queue it came through. `execAt` has symbol bits
[7:0] zero (R100). -/
structure Hdr where
  queue : BitVec 2
  tag : Half
  sched : Bool
  quiet : Bool
  buf : Bool
  bufIdx : BitVec 2
  length : Half
  execAt : Lts
  deriving DecidableEq, Repr

/-- Power domains with their codes of R53 (AON is domain 0 and never drops while VSB33 is valid). -/
inductive Dom where
  | mgmt | line | opt | host | ciph | store
  deriving DecidableEq, Repr

/-- The instant of a receive event (R89): the received superframe starts at transmit LTS `a`, the next
one at `b`, and the event is at received symbol index `s`. -/
structure RxAt where
  a : Lts
  b : Lts
  s : Sym
  deriving DecidableEq, Repr

/-- The link that carries a host access (R38). -/
inductive Link where
  | pcie | spi
  deriving DecidableEq, Repr

/-- Causes of a sedge engine halt (R26). -/
inductive HaltCause where
  | illegalInstruction | memoryFault | blazeMismatch
  deriving DecidableEq, Repr

/-- The sedge engine tasks of R22 and R23. -/
inductive Task where
  | eqSupervision | bias | laser | calibration | tallies | estimation | framing | references | power
  deriving DecidableEq, Repr

/-- What the reference task measures of one input at an evaluation (R310, R313), in ppt of the
resonator; `condition` is the cause code of R310 that holds at the evaluation, 0 when none. -/
structure RefMeas where
  input : Byte
  condition : Byte
  offset : Int
  drift : Int
  driftCovered : Bool
  deriving DecidableEq, Repr

/-- Estimates of the equaliser (R172), in the units of EQ.ESTIMATES. -/
structure Estimates where
  cd : Int
  dgdMean : Nat
  dgdInst : Nat
  pdl : Nat
  s1 : Int
  s2 : Int
  s3 : Int
  rotPeak : Nat
  cfoKhz : Int
  linewidth : Nat
  snrX : Nat
  snrY : Nat
  osnr : Nat
  nlcGain : Int
  bandwidth : Nat
  deriving DecidableEq, Repr

/-- What equaliser supervision finds of the last superframe: the estimates of R172 (its `cd` is the residual dispersion that the
taps absorb, R155), the decision error and the pilot error as powers (R158), whether the timing loop is locked, the timing
correction in ppb and a step of the phase (R142, R156), and the pilots' phase residual in 2^-16 turns (R166). -/
structure Supervised where
  est : Estimates
  decisionErr : Nat
  pilotErr : Nat
  locked : Bool
  timingPpb : Int
  phaseStep : Word
  pilotResidual : Nat
  deriving DecidableEq, Repr

/-- What a sedge engine task finds when it runs (R129, R158, R172, R188, R318, R387). -/
inductive TaskInput where
  | none
  /-- Equaliser supervision: every 16 superframes the RMS codes of X and Y over the period, in hundredths (R129); what it finds
  while the chain acquires or tracks. -/
  | supervision (rms : Option (Nat × Nat)) (e : Option Supervised)
  /-- Bias task: the loops, as numbered by R188, whose error lies beyond its target. -/
  | bias (beyond : BitVec 6)
  /-- Reference evaluation (R318). -/
  | refs (ms : List RefMeas)
  deriving DecidableEq, Repr

/-- FLEX request bytes 18 to 25 (R121). -/
structure FlexReq where
  overhead : Byte
  base : Byte
  bMBd : Word
  h : Half
  deriving DecidableEq, Repr

/-- Which converter a slice belongs to (R134, R185). -/
inductive Conv where
  | adc | dac
  deriving DecidableEq, Repr

/-- The conditions of R169 in TRACK. -/
inductive TrackCond where
  | frameLost | timingRange | cfoRange | lowSnr | slipRate
  deriving DecidableEq, Repr

/-- Why the equaliser returns to A0 (R168). -/
inductive A0Cause where
  | noLight | noLo | chainStop
  deriving DecidableEq, Repr

/-- One sensing input (R173): Stokes parameters in Q1.14, phase change, DGD, and whether its training word was found on the X and
on the Y output and in the S form (R152, R166). -/
structure SenseIn where
  s1 : Int
  s2 : Int
  s3 : Int
  phase : Int
  dgd : Nat
  wordX : Bool
  wordY : Bool
  sForm : Bool
  deriving DecidableEq, Repr

/-- How a codeword left the decoder (R213): inner syndrome at the output position and after the outer
code, the bit errors the outer code finds (more than 8 cannot be resolved), the bits the inner code
changed, and the received superframe of its last symbol (R215). -/
structure Codeword where
  innerZero : Bool
  innerZeroAfter : Bool
  outerErrors : Nat
  innerChanged : Nat
  sf : Sf
  deriving DecidableEq, Repr

/-- A transport frame's header and overhead as received (R226): its byte position in the framer stream, its 16 header bytes, SFC,
and the 24 entries of its tributary table in order. In ZR400, where the frame is the agreement's (R124), `lost` says that the
receiver has lost it and `bdi` is its backward indication. -/
structure TfRx where
  pos : Nat
  header : List Byte
  sfc : Sf
  table : List (List Byte)
  lost : Bool
  bdi : Bool
  deriving DecidableEq, Repr

/-- What a client's transmit buffer has for the next frame (R242): whether its fill asks for data in the JO, and its next bytes, as
many as the frame takes. -/
structure ClientFill where
  tid : Byte
  high : Bool
  data : List Byte
  deriving DecidableEq, Repr

/-- Defects of R234. -/
inductive Defect where
  | los | loa | losf | oof | lof | deg | unc | bdi
  | csf (tid : Byte) | plm (tid : Byte) | auth (tid : Byte) | key (tid : Byte) | ref (input : Byte)
  deriving DecidableEq, Repr

/-- A received Osier lane frame (R288): the lane, whether MARK matched, the LANE and LFC fields, the uncorrectable flags
of its two codewords, the RS symbols corrected, the stuff symbols removed (R291), the pad symbols in a row before MARK (R292), the
lane's pre-RS bit error ratio over the last 1 ms in units of 1e-9 (R298), and the descrambled payload bits. -/
structure LaneFrame where
  lane : BitVec 4
  markOk : Bool
  laneField : BitVec 4
  lfc : Byte
  cw0Bad : Bool
  cw1Bad : Bool
  corrected : Nat
  stuff : Nat
  pads : Nat
  ber : Nat
  payload : List Bool
  deriving DecidableEq, Repr

/-- Causes of an ingress failure (R302, R307 byte 20). -/
inductive IngressCause where
  | signal | lockLost | highBer | buffer | unserved
  deriving DecidableEq, Repr

/-- Trigger events of freeze (R397), in their order. -/
inductive FreezeTrig where
  | engineHalt | rawUncorrectable | trackExit | cycleSlip | polTrigger | blazeMismatch
  deriving DecidableEq, Repr

/-- How a 64-bit store word decodes (R333). -/
inductive WordDecode where
  | clean | corrected | uncorrectable
  deriving DecidableEq, Repr

/-- The commands of the block: one constructor per row of spec/opcode_table.json, in its order; each
docstring names the row and the rule the table gives it. -/
inductive Instr where
  /-- R40: SPI_WRITE_FRAME. -/
  | spiWriteFrame (instr : Byte) (addr : Half) (data : List Byte)
  /-- R444: SPI_READ_FRAME. -/
  | spiReadFrame (instr : Byte) (addr : Half) (words : Nat) (ragged : Bool)
  /-- R39: PCIE_UNSUPPORTED_ACCESS. -/
  | pcieUnsupportedAccess (addr : Half) (size : Nat) (write : Bool)
  /-- R16: REGISTER_WRITE. -/
  | registerWrite (link : Link) (addr : Half) (lo : Word) (hi : Option Word)
  /-- R56: CQ_DOORBELL. -/
  | cqDoorbell (link : Link) (q : BitVec 2) (v : Word)
  /-- R429: RQ_HEAD_WRITE. -/
  | rqHeadWrite (link : Link) (v : Word)
  /-- R429: NQ_HEAD_WRITE. -/
  | nqHeadWrite (link : Link) (v : Word)
  /-- R430: IRQ_STATUS_CLEAR. -/
  | irqStatusClear (link : Link) (v : Word)
  /-- R46: SOFT_RESET. -/
  | softReset (link : Link) (v : Word)
  /-- R43: LTS_LATCH_READ. -/
  | ltsLatchRead (link : Link) (wide : Bool)
  /-- R51: LTS_EST_LATCH_READ. -/
  | ltsEstLatchRead (link : Link) (wide : Bool)
  /-- R441: AON_FAULT_CLEAR. -/
  | aonFaultClear (link : Link) (v : Word)
  /-- R361: WAKE_REQ_WRITE. -/
  | wakeReqWrite (link : Link) (v : Word)
  /-- R57: DESCRIPTOR_TAKE. -/
  | descriptorTake
  /-- R61: SCHED_COMMAND_DUE. -/
  | schedCommandDue
  /-- R93: NOTIFY_RELEASE. -/
  | notifyRelease
  /-- R64: NOTIFY_BACKLOG_DRAIN. -/
  | notifyBacklogDrain
  /-- R430: IRQ_HOLD_EXPIRE. -/
  | irqHoldExpire
  /-- R23: SEDGE_TASK_START. -/
  | sedgeTaskStart (t : Task) (w : TaskInput)
  /-- R106: SEDGE_TASK_COMPLETE. -/
  | sedgeTaskComplete (t : Task)
  /-- R26: ENGINE_HALT. -/
  | engineHalt (e : BitVec 6) (c : HaltCause)
  /-- R26: ENGINE_RESTART. -/
  | engineRestart (e : BitVec 6) (seed : Word)
  /-- R10: VSB33_VALID. -/
  | vsb33Valid (mv : Nat)
  /-- R10: VSB33_LOSS. -/
  | vsb33Loss (mv : Nat)
  /-- R33: COLD_START. -/
  | coldStart
  /-- R33: VIN12_HOLD_CONFIRMED. -/
  | vin12HoldConfirmed (mv : Nat)
  /-- R356: DOMAIN_POWER_GOOD. -/
  | domainPowerGood (d : Dom)
  /-- R364: POWER_GOOD_TIMEOUT. -/
  | powerGoodTimeout (d : Dom) (osc : Bool)
  /-- R364: POWER_RETRY. -/
  | powerRetry
  /-- R428: WARDEN_START. -/
  | wardenStart
  /-- R41: COMMAND_PATH_READY. -/
  | commandPathReady
  /-- R36: LINE_TIME_START. -/
  | lineTimeStart
  /-- R33: FIRST_CALIBRATION_DONE. -/
  | firstCalibrationDone
  /-- R33: ENTER_RUN. -/
  | enterRun
  /-- R79: FW_READY_TIMEOUT. -/
  | fwReadyTimeout
  /-- R79: WARDEN_WATCHDOG_EXPIRE. -/
  | wardenWatchdogExpire
  /-- R416: RESET_ASSERT. -/
  | resetAssert (lowNs : Nat)
  /-- R416: RESET_RELEASE. -/
  | resetRelease
  /-- R417: PCIE_PERST. -/
  | pciePerst (msixEnabled : Bool)
  /-- R361: WAKE_PIN. -/
  | wakePin (low : Bool) (cycles : Nat)
  /-- R361: TIMER_WAKE. -/
  | timerWake
  /-- R371: SUPPLY_WAKE. -/
  | supplyWake (mv : Nat)
  /-- R108: AON_TIMER_WRAP. -/
  | aonTimerWrap
  /-- R358: LOW_STATE_ENTRY. -/
  | lowStateEntry
  /-- R362: ENTRY_WINDOW_END. -/
  | entryWindowEnd
  /-- R363: WAKE_ACCEPT. -/
  | wakeAccept
  /-- R366: OVEN_READY. -/
  | ovenReady (caseTemp : Int)
  /-- R104: LINE_TIME_RESUME. -/
  | lineTimeResume
  /-- R365: WAKE_EXIT_COMPLETE. -/
  | wakeExitComplete
  /-- R369: COPPICE_SET. -/
  | coppiceSet (mv : Nat)
  /-- R370: COPPICE_SHED. -/
  | coppiceShed
  /-- R371: COPPICE_CLEAR. -/
  | coppiceClear (mv : Nat)
  /-- R372: ORDERLY_OFF_DONE. -/
  | orderlyOffDone
  /-- R374: CASE_TEMP_MEASURE. -/
  | caseTempMeasure (temp : Int)
  /-- R374: OVERTEMP_SHUTDOWN. -/
  | overtempShutdown
  /-- R356: MM_VOTE_EXPIRE. -/
  | mmVoteExpire
  /-- R368: FEN_WATCH_WINDOW. -/
  | fenWatchWindow
  /-- R368: FEN_WATCH_COMPARE. -/
  | fenWatchCompare (power : Int)
  /-- R368: WATCH_EXIT. -/
  | watchExit
  /-- R114: MODE_CHANGE_START. -/
  | modeChangeStart
  /-- R117: MODE_CHANGE_LOAD. -/
  | modeChangeLoad
  /-- R435: MODE_CHANGE_COMPLETE. -/
  | modeChangeComplete
  /-- R128: LOS_COMPARE. -/
  | losCompare (power : Int)
  /-- R138: ADC_OVERRANGE. -/
  | adcOverrange (ch : BitVec 2) (high : Bool) (samples : Nat) (rx : RxAt)
  /-- R131: GAIN_STEP_APPLY. -/
  | gainStepApply (rx : RxAt)
  /-- R137: SLICE_FAILURE. -/
  | sliceFailure (conv : Conv) (ch : BitVec 2) (slice : Byte)
  /-- R379: CAL_SLOT_OPEN. -/
  | calSlotOpen
  /-- R136: SLICE_SWAP. -/
  | sliceSwap (conv : Conv)
  /-- R380: SWAP_SLOT_SKIP. -/
  | swapSlotSkip (conv : Conv)
  /-- R379: SLICE_CAL_DONE. -/
  | sliceCalDone (conv : Conv) (offset gain skew noise : Int)
  /-- R377: RESONATOR_CAL_UPDATE. -/
  | resonatorCalUpdate (input : Byte)
  /-- R378: CALIBRATION_STALE. -/
  | calibrationStale (dom : Byte) (item : Half)
  /-- R168: ACQ_ENTRY. -/
  | acqEntry
  /-- R166: ACQ_STATE_COMPLETE. -/
  | acqStateComplete (cands : List Int) (cfoKhz : Int)
  /-- R167: ACQ_STATE_TIMEOUT. -/
  | acqStateTimeout
  /-- R168: ACQ_RETURN_A0. -/
  | acqReturnA0 (cause : A0Cause)
  /-- R169: TRACK_EXIT. -/
  | trackExit
  /-- R160: CYCLE_SLIP. -/
  | cycleSlip (polY : Bool) (r1 r2 : Int) (rx : RxAt)
  /-- R173: SENSE_INPUT. -/
  | senseInput (i : SenseIn) (rx : RxAt)
  /-- R210: FEC_ALIGN_DECISION. -/
  | fecAlignDecision (fractions : List Nat) (rxSf : Sf)
  /-- R210: FEC_ALIGN_LOSS. -/
  | fecAlignLoss (fractions : List Nat)
  /-- R213: CODEWORD_DELIVER. -/
  | codewordDeliver (c : Codeword) (rx : RxAt)
  /-- R224: SFOH_RECEIVE. -/
  | sfohReceive (bytes : List Byte) (rxSf : Sf)
  /-- R230: TF_HEADER_RECEIVE. -/
  | tfHeaderReceive (f : TfRx) (rx : RxAt)
  /-- R227: TF_TRANSMIT. -/
  | tfTransmit (fills : List ClientFill)
  /-- R234: DEFECT_SET. -/
  | defectSet (d : Defect)
  /-- R234: DEFECT_CLEAR. -/
  | defectClear (d : Defect)
  /-- R257: TX_SPAN_BOUNDARY. -/
  | txSpanBoundary
  /-- R258: RX_SPAN_START. -/
  | rxSpanStart (tid : Byte) (phase : Option Bool) (rx : RxAt)
  /-- R263: SPAN_RECORD_RECEIVE. -/
  | spanRecordReceive (tid : Byte) (bytes : List Byte) (rx : RxAt)
  /-- R264: SPAN_TAG_VERIFY. -/
  | spanTagVerify (tid : Byte) (data : List Byte) (tag : List Byte) (rx : RxAt)
  /-- R266: SPAN_RELEASE. -/
  | spanRelease (tid : Byte)
  /-- R280: TAG_RECOMPUTE_MISMATCH. -/
  | tagRecomputeMismatch (tid : Byte)
  /-- R288: LANE_FRAME_RECEIVE. -/
  | laneFrameReceive (f : LaneFrame)
  /-- R299: OSIER_ADVERTISE. -/
  | osierAdvertise (lane : BitVec 4) (blk : List Byte)
  /-- R299: OSIER_STEP_ACK. -/
  | osierStepAck (lane : BitVec 4) (blk : List Byte)
  /-- R298: OSIER_TRAIN. -/
  | osierTrain (lane : BitVec 4) (blk : List Byte)
  /-- R299: OSIER_LINK_UP. -/
  | osierLinkUp (lane : BitVec 4) (blk : List Byte)
  /-- R300: OSIER_LP_REQ. -/
  | osierLpReq (lane : BitVec 4) (blk : List Byte)
  /-- R303: OSIER_LP_ACK. -/
  | osierLpAck (lane : BitVec 4) (blk : List Byte)
  /-- R301: OSIER_FAULT. -/
  | osierFault (lane : BitVec 4) (blk : List Byte)
  /-- R299: OSIER_STEP_SWITCH. -/
  | osierStepSwitch (transmitter : Bool)
  /-- R299: OSIER_PHASE_LIMIT. -/
  | osierPhaseLimit
  /-- R303: OSIER_L1_EXIT. -/
  | osierL1Exit
  /-- R302: INGRESS_FAIL. -/
  | ingressFail (port : Byte) (cause : IngressCause)
  /-- R302: INGRESS_RECOVER. -/
  | ingressRecover (port : Byte)
  /-- R312: REF_ACTIVITY_LOSS. -/
  | refActivityLoss (input : Byte)
  /-- R319: CLOCK_SLEW_COMPLETE. -/
  | clockSlewComplete
  /-- R322: PPS_EDGE. -/
  | ppsEdge (input : Byte) (offset : BitVec 16) (widthNs : Nat) (sinceLastNs : Nat)
  /-- R323: TOD_ANCHOR_TIMEOUT. -/
  | todAnchorTimeout
  /-- R324: PPSOUT_EDGE. -/
  | ppsoutEdge (errorNs : Int)
  /-- R340: HISTORY_RECORD_CLOSE. -/
  | historyRecordClose
  /-- R345: SENSE_SAMPLE_WRITE. -/
  | senseSampleWrite (s1 s2 s3 : Int) (phaseRate : Int) (dgd : Nat)
  /-- R347: CAPTURE_FILL_DONE. -/
  | captureFillDone (codes : List Byte)
  /-- R347: CAPTURE_COPY_DONE. -/
  | captureCopyDone
  /-- R336: CRUISER_PAGE_CHECK. -/
  | cruiserPageCheck (corrected : Nat) (syndromeZero : Bool) (decodable : Bool)
  /-- R337: CRUISER_BOOST. -/
  | cruiserBoost
  /-- R333: STORE_READ. -/
  | storeRead (word : Nat) (d : WordDecode) (pageDecodes : Bool)
  /-- R334: MERGE_BUFFER_TIMEOUT. -/
  | mergeBufferTimeout (word : Nat) (d : WordDecode) (pageDecodes : Bool)
  /-- R332: REGION_INIT_DONE. -/
  | regionInitDone
  /-- R74: FLASH_PATROL. -/
  | flashPatrol (bitsCorrected : Nat) (readRetry : Bool)
  /-- R75: FLASH_BLOCK_FAIL. -/
  | flashBlockFail (block : Nat)
  /-- R389: INTERVAL_BOUNDARY. -/
  | intervalBoundary (day : Bool)
  /-- R393: AGE_ACCRUE. -/
  | ageAccrue (temp : Int)
  /-- R394: AGEING_DAILY. -/
  | ageingDaily
  /-- R395: CORE_SLACK_EMERGENCY. -/
  | coreSlackEmergency
  /-- R392: BLAZE_SAMPLE. -/
  | blazeSample (cw : Option (List Byte × Bool)) (ins : Option (List Byte))
  /-- R385: MON_CONVERSION. -/
  | monConversion (raw : Nat) (overRange : Bool)
  /-- R192: LASER_LOCK. -/
  | laserLock
  /-- R188: BIAS_CONVERGED. -/
  | biasConverged (loops : BitVec 6)
  /-- R189: BIAS_CONVERGE_LIMIT. -/
  | biasConvergeLimit (loop : BitVec 3) (drift : Bool)
  /-- R195: OVERPOWER_TRIP. -/
  | overpowerTrip (peak : Int)
  /-- R199: ALS_PULSE_START. -/
  | alsPulseStart
  /-- R199: ALS_PULSE_END. -/
  | alsPulseEnd
  /-- R397: FREEZE_PIN. -/
  | freezePin (low : Bool)
  /-- R397: FREEZE_TRIGGER. -/
  | freezeTrigger (t : FreezeTrig)
  /-- R401: TEST_LOGIC_RESET. -/
  | testLogicReset
  /-- R401: BYPASS. -/
  | bypass (tdi : List Bool)
  /-- R401: IDCODE. -/
  | idcode (shifts : Nat)
  /-- R401: SAMPLE_PRELOAD. -/
  | samplePreload (tdi : List Bool)
  /-- R401: EXTEST. -/
  | extest (tdi : List Bool)
  /-- R401: FRZ_SEL. -/
  | frzSel (chain : Byte)
  /-- R401: FRZ_DATA. -/
  | frzData (shifts : Nat)
  /-- R67: SYS_IDENTIFY. -/
  | sysIdentify (h : Hdr)
  /-- R67: SYS_CANCEL. -/
  | sysCancel (h : Hdr) (target : Half)
  /-- R432: CV_CONFIG. -/
  | cvConfig (h : Hdr) (profile width flags : Byte) (poly init xorOut : Dword)
  /-- R431: CV_RUN. -/
  | cvRun (h : Hdr) (profile mode ctx src region : Byte) (offset : Dword) (len : Word)
  /-- R71: CV_CTX_READ. -/
  | cvCtxRead (h : Hdr) (ctx : Byte)
  /-- R442: CV_CTX_WRITE. -/
  | cvCtxWrite (h : Hdr) (ctx : Byte)
  /-- R71: CV_SCAN. -/
  | cvScan (h : Hdr) (profile src region blk : Byte) (offset len : Dword) (action : Byte) (work : Dword)
  /-- R76: FLASH_STATUS. -/
  | flashStatus (h : Hdr)
  /-- R79: FW_STAGE. -/
  | fwStage (h : Hdr) (offset : Word)
  /-- R77: FW_COMMIT. -/
  | fwCommit (h : Hdr)
  /-- R79: FW_ACTIVATE. -/
  | fwActivate (h : Hdr) (mode : Byte)
  /-- R77: FW_CONFIRM. -/
  | fwConfirm (h : Hdr)
  /-- R83: LOG_READ. -/
  | logRead (h : Hdr) (first : Sf) (count : Byte)
  /-- R353: PWR_STATE_SET. -/
  | pwrStateSet (h : Hdr) (target : Byte)
  /-- R375: PWR_STATUS. -/
  | pwrStatus (h : Hdr)
  /-- R356: PWR_VOTE. -/
  | pwrVote (h : Hdr) (domains : Byte)
  /-- R375: PWR_CONFIG. -/
  | pwrConfig (h : Hdr) (period : Half) (flags : Byte)
  /-- R114: LINE_MODE_SET. -/
  | lineModeSet (h : Hdr) (code flags : Byte) (p : FlexReq)
  /-- R435: LINE_MODE_GET. -/
  | lineModeGet (h : Hdr)
  /-- R121: LINE_FLEX_CHECK. -/
  | lineFlexCheck (h : Hdr) (p : FlexReq)
  /-- R148: FE_CONFIG. -/
  | feConfig (h : Hdr) (mode : Byte) (xGain yGain : Half) (rms : Byte) (ovrStep losThr : Half) (flags : Byte)
  /-- R148: FE_STATUS. -/
  | feStatus (h : Hdr) (flags : Byte)
  /-- R148: FE_SLICES. -/
  | feSlices (h : Hdr) (ch : Byte)
  /-- R149: FE_COEF_SET. -/
  | feCoefSet (h : Hdr) (set action : Byte) (check : Word)
  /-- R436: EQ_CONFIG. -/
  | eqConfig (h : Hdr) (taps profile bw flags : Byte) (hint window : Word) (floor warmHold : Half)
  /-- R174: EQ_STATUS. -/
  | eqStatus (h : Hdr)
  /-- R172: EQ_ESTIMATES. -/
  | eqEstimates (h : Hdr)
  /-- R162: EQ_NLC. -/
  | eqNlc (h : Hdr) (mode : Byte) (scale : Half)
  /-- R437: EQ_REACQUIRE. -/
  | eqReacquire (h : Hdr) (entry : Byte)
  /-- R165: EQ_HOLD. -/
  | eqHold (h : Hdr) (hold : Byte)
  /-- R192: TX_LASER. -/
  | txLaser (h : Hdr) (grid fine power : Half) (flags : Byte)
  /-- R198: TX_ENABLE. -/
  | txEnable (h : Hdr) (request : Byte)
  /-- R183: TX_SHAPING. -/
  | txShaping (h : Hdr) (beta action flags : Byte) (cd : Word) (scale : Half) (clip : Byte)
  /-- R201: TX_STATUS. -/
  | txStatus (h : Hdr)
  /-- R199: TX_SAFETY. -/
  | txSafety (h : Hdr) (on : Byte) (interval : Half) (pulse : Byte)
  /-- R201: TX_SLICES. -/
  | txSlices (h : Hdr) (ch : Byte)
  /-- R219: FEC_CONFIG. -/
  | fecConfig (h : Hdr) (l : Half) (flags : Byte) (deg : Word)
  /-- R219: FEC_STATUS. -/
  | fecStatus (h : Hdr)
  /-- R219: FEC_COUNTERS. -/
  | fecCounters (h : Hdr) (flags : Byte)
  /-- R219: FEC_INJECT. -/
  | fecInject (h : Hdr) (on : Byte) (ber : Word)
  /-- R247: TRIB_DEFINE. -/
  | tribDefine (h : Hdr) (tid client : Byte) (port : Half) (cipher : Byte)
  /-- R256: TRIB_REMOVE. -/
  | tribRemove (h : Hdr) (tid : Byte)
  /-- R248: TRIB_STATUS. -/
  | tribStatus (h : Hdr) (tid flags : Byte)
  /-- R248: TF_STATUS. -/
  | tfStatus (h : Hdr)
  /-- R253: KEY_KEK_INFO. -/
  | keyKekInfo (h : Hdr)
  /-- R254: KEY_LOAD. -/
  | keyLoad (h : Hdr) (slot : Byte)
  /-- R255: KEY_ERASE. -/
  | keyErase (h : Hdr) (slot flags : Byte)
  /-- R270: KEY_ASSIGN. -/
  | keyAssign (h : Hdr) (tid ref slot : Byte)
  /-- R257: KEY_ACTIVATE. -/
  | keyActivate (h : Hdr) (tid : Byte)
  /-- R281: KEY_STATUS. -/
  | keyStatus (h : Hdr) (slot : Byte)
  /-- R281: CIPH_TRIB_STATUS. -/
  | ciphTribStatus (h : Hdr) (tid flags : Byte)
  /-- R280: CIPH_SELFTEST. -/
  | ciphSelftest (h : Hdr)
  /-- R268: CIPH_TRIB_MODE. -/
  | ciphTribMode (h : Hdr) (tid behaviour : Byte)
  /-- R277: MM_RUN. -/
  | mmRun (h : Hdr) (alg dir mode ctx slot prio : Byte) (aadLen : Half) (iv tag : List Byte)
  /-- R278: MM_CTX_SAVE. -/
  | mmCtxSave (h : Hdr) (ctx form : Byte)
  /-- R279: MM_CTX_RESTORE. -/
  | mmCtxRestore (h : Hdr) (ctx : Byte)
  /-- R277: MM_READ. -/
  | mmRead (h : Hdr) (ctx flags : Byte) (offset : Dword)
  /-- R283: HL_CONFIG. -/
  | hlConfig (h : Hdr) (mode n step group flags : Byte) (inPol outPol : Half)
  /-- R306: HL_STATUS. -/
  | hlStatus (h : Hdr)
  /-- R306: HL_LANE_STATUS. -/
  | hlLaneStatus (h : Hdr) (lane : Byte)
  /-- R306: HL_PORT. -/
  | hlPort (h : Hdr) (port flags : Byte)
  /-- R303: HL_POWER. -/
  | hlPower (h : Hdr) (state : Byte)
  /-- R305: HL_LOOPBACK. -/
  | hlLoopback (h : Hdr) (kind : Byte) (lanes : Half)
  /-- R300: HL_RETRAIN. -/
  | hlRetrain (h : Hdr) (kind : Byte)
  /-- R310: REF_INPUT_CONFIG. -/
  | refInputConfig (h : Hdr) (input prio freq : Byte) (tol drift off : Half)
  /-- R315: REF_SELECT. -/
  | refSelect (h : Hdr) (mode input flags : Byte)
  /-- R328: REF_STATUS. -/
  | refStatus (h : Hdr)
  /-- R328: REF_INPUT_STATUS. -/
  | refInputStatus (h : Hdr) (input : Byte)
  /-- R326: REF_OUTPUT_CONFIG. -/
  | refOutputConfig (h : Hdr) (output source lane freq flags : Byte)
  /-- R324: REF_PPS_CONFIG. -/
  | refPpsConfig (h : Hdr) (mode input : Byte) (offset width : Word)
  /-- R323: REF_TOD_SET. -/
  | refTodSet (h : Hdr) (secs : Sf) (ns : Word) (anchor : Byte) (sf : Sf) (sym : Sym)
  /-- R322: REF_TOD_GET. -/
  | refTodGet (h : Hdr)
  /-- R342: HS_HISTORY. -/
  | hsHistory (h : Hdr) (start : Byte)
  /-- R350: HS_HISTORY_READ. -/
  | hsHistoryRead (h : Hdr) (first : Dword) (count : Byte)
  /-- R343: HS_SENSE_CONFIG. -/
  | hsSenseConfig (h : Hdr) (rate : Byte)
  /-- R350: HS_SENSE_READ. -/
  | hsSenseRead (h : Hdr) (first : Dword) (count : Half)
  /-- R346: HS_TRIGGER_CONFIG. -/
  | hsTriggerConfig (h : Hdr) (enables m action : Byte) (rateThr : Word) (excThr : Half)
  /-- R347: HS_CAPTURE_CMD. -/
  | hsCaptureCmd (h : Hdr) (action flags : Byte)
  /-- R350: HS_CAPTURE_READ. -/
  | hsCaptureRead (h : Hdr) (slot flags : Byte) (offset : Dword)
  /-- R337: HS_CRUISER. -/
  | hsCruiser (h : Hdr) (rate : Half) (flags : Byte)
  /-- R350: HS_STORE_STATUS. -/
  | hsStoreStatus (h : Hdr)
  /-- R350: HS_REGION_INIT. -/
  | hsRegionInit (h : Hdr) (region : Byte)
  /-- R402: CAL_STATUS. -/
  | calStatus (h : Hdr) (dom : Byte) (item : Half)
  /-- R378: CAL_CONFIG. -/
  | calConfig (h : Hdr) (dom flags stale : Byte)
  /-- R402: CAL_RUN. -/
  | calRun (h : Hdr) (dom : Byte) (slice : Half)
  /-- R385: MON_CONFIG. -/
  | monConfig (h : Hdr) (mode : Byte) (mask : Word)
  /-- R384: MON_CHANNEL. -/
  | monChannel (h : Hdr) (ch ref range flags : Byte) (offset gain : Half)
  /-- R385: MON_TABLE. -/
  | monTable (h : Hdr) (entries : Byte)
  /-- R385: MON_READ. -/
  | monRead (h : Hdr) (src count : Byte)
  /-- R402: AGE_REPORT. -/
  | ageReport (h : Hdr) (metric : Byte)
  /-- R394: AGE_CONFIG. -/
  | ageConfig (h : Hdr) (margin : Half) (flags : Byte)
  /-- R402: TALLY_READ. -/
  | tallyRead (h : Hdr) (id : Half) (bin : Byte)
  /-- R390: TALLY_CLEAR. -/
  | tallyClear (h : Hdr) (id : Half)
  /-- R392: BLAZE_CONFIG. -/
  | blazeConfig (h : Hdr) (period : Half) (flags : Byte)
  /-- R402: BLAZE_READ. -/
  | blazeRead (h : Hdr) (first : Word) (count : Byte)
  /-- R397: DBG_FREEZE_CMD. -/
  | dbgFreezeCmd (h : Hdr) (action trigger : Byte) (delay : Half)
  /-- R400: DBG_RELEASE. -/
  | dbgRelease (h : Hdr)
  /-- R403: DBG_STATUS. -/
  | dbgStatus (h : Hdr)
  /-- R69: CV_JOB_DONE. -/
  | cvJobDone
  /-- R276: MM_JOB_DONE. -/
  | mmJobDone (ctx : BitVec 4)
  /-- R361: VIN_OK_CHANGE. -/
  | vinOkChange (mv : Nat)
  deriving DecidableEq, Repr

end Sys2Proof
end

