-- ==== Sys2Proof/Config.lean ====
section
/-! DEFINITION. The free values: what the spec leaves open. Each is an opaque constant without a body, so
that no proof can see a value of it. -/
namespace Sys2Proof

/-- A value the spec does not fix (a measured current, an internal chain's bits). Applied to the free-value
counter of the state, so each use has a value of its own. DESIGN CHOICE, log entry 8. -/
opaque Config.freeValue : Nat → BitVec 64

/-- How many always-on oscillator cycles pass in one time tick; line time and the always-on oscillator are
related only to ±100 ppm (R103). DESIGN CHOICE, log entry 9. -/
opaque Config.aonCycles : Nat → Nat

/-- How many nanoseconds the ovenised resonator, and the warden's clock, count in one time tick (R17): neither clock is tied to
line time more closely than their accuracies. DESIGN CHOICE, log entry 9. -/
opaque Config.resonatorNs : Nat → Nat

opaque Config.wardenNs : Nat → Nat

/-- Whether the ECDSA P-384 signature of an image's bytes verifies under the fused key (R77), which the
spec does not give. DESIGN CHOICE, log entry 10. -/
opaque Config.signatureVerifies : List Byte → Bool

/-- The fields of an image's 256-byte header, whose places the spec does not give: 0 magic, 1 firmware version, 2 security
version, 3 hardware revision, 4 body length, 5 HITLESS. DESIGN CHOICE, log entry 10. -/
opaque Config.headerField : Nat → List Byte → Nat

/-- The length of an image's signature in bytes, which the spec does not give (R77). DESIGN CHOICE, log entry 10. -/
opaque Config.signatureBytes : Nat

/-- Whether the known-answer tests of an engine (0 transmit line, 1 receive line, 2 memory-mode) pass when
run for the n-th time (R280). DESIGN CHOICE, log entry 11. -/
opaque Config.selfTestPass : Nat → Nat → Bool

/-- The FEC margin of R215 in 0.01 dB where its formula gives none, an estimate of 0 or of 0.5 and above, as a function of the
estimate's corrected and coded bits and of the threshold in units of 1e-9. DESIGN CHOICE, log entry 12. -/
opaque Config.fecMargin : Nat → Nat → Nat → Int

/-- What the decoder of the OIF 400ZR agreement does (R218), which the spec does not give: whether it finds its alignment and whether
it loses it on the fractions of checks that fail, and whether it resolves a block. DESIGN CHOICE, log entry 12. -/
opaque Config.zrAligned : List Nat → Bool

opaque Config.zrLost : List Nat → Bool

opaque Config.zrResolves : Codeword → Bool

/-- The draws of the error injector, 0 to 9,999,999, from a generator that is never reseeded (R219). DESIGN CHOICE, log
entry 12. -/
opaque Config.injectDraw : Nat → Nat

/-- The DSP frame of the OIF 400ZR agreement (R153, R218), which the spec does not give: the use of a symbol index (0 data, 1 pilot, 2
training) and the pilot or training symbol of a polarisation there. DESIGN CHOICE, log entry 8. -/
opaque Config.zrUse : Nat → Nat

opaque Config.zrSymbol : Nat → Bool → Int × Int

/-- The 257-bit control block of Local Fault ordered sets of a client (R245), which IEEE 802.3 defines. DESIGN CHOICE, log entry
8. -/
opaque Config.faultBlock : Nat → BitVec 257

/-- Outputs of filters whose coefficients the spec does not give (R343), as a function of the free-value
counter. DESIGN CHOICE, log entry 8. -/
opaque Config.filtered : Nat → Int

/-- The severity of a log entry and, where no notification event gives one, its code, by the model's number of what is
logged (R81 fixes neither). DESIGN CHOICE, log entry 8. -/
opaque Config.logSeverity : Nat → BitVec 2

opaque Config.logCode : Nat → BitVec 16

/-- Bits of the outer code's block of the OIF 400ZR agreement (R218), which the spec does not give. DESIGN CHOICE, log
entry 8. -/
opaque Config.zrBlockBits : Nat

/-- The SOURCE of a notification whose event does not define an instance (R63), by event code. DESIGN CHOICE,
log entry 8. -/
opaque Config.freeSource : Nat → BitVec 16

/-- The page of its store region at which firmware keeps an item: a tally by its identifier (kind 0), a backlog entry by
its place (1), a staged log entry by its place (2), a page of a memory-mode output area (3), a blaze record by its
place in its ring (4). The spec lays out none of these. DESIGN CHOICE, log entry 27. -/
opaque Config.placedAt : Nat → Nat → Nat

/-- The angle between two Stokes vectors in mrad, rounded as the part rounds it (R341). DESIGN CHOICE, log entry 8. -/
opaque Config.angleMrad : Int × Int × Int → Int × Int × Int → Nat

/-- AF of R393 at a case temperature in 0.01 °C, in units of 2^-32: the exponential as the part rounds it. DESIGN CHOICE,
log entry 29. -/
opaque Config.ageFactor : Int → Nat

end Sys2Proof
end

