-- ==== Sys2Proof/Machine/State.lean ====
section
/-! DEFINITION. The state of the HX-2400 as plain data, every piece the spec names; a field's default value is
its value at reset (VSB33 just applied). A docstring names the rule that gives the field; `[DC n]` marks a
reset value the spec does not give, chosen in log entry n, `[PR n]` one presumed there. -/
namespace Sys2Proof.Machine

open Sys2Proof

/-- Four like things, by channel or queue number. -/
structure Four (α : Type) where
  a0 : α
  a1 : α
  a2 : α
  a3 : α
  deriving DecidableEq, Repr

namespace Four
variable {α : Type}
def get (f : Four α) (i : BitVec 2) : α :=
  if i = 0 then f.a0 else if i = 1 then f.a1 else if i = 2 then f.a2 else f.a3
def set (f : Four α) (i : BitVec 2) (x : α) : Four α :=
  if i = 0 then { f with a0 := x } else if i = 1 then { f with a1 := x }
  else if i = 2 then { f with a2 := x } else { f with a3 := x }
def all (x : α) : Four α := ⟨x, x, x, x⟩
def map {β : Type} (g : α → β) (f : Four α) : Four β := ⟨g f.a0, g f.a1, g f.a2, g f.a3⟩
def toList (f : Four α) : List α := [f.a0, f.a1, f.a2, f.a3]
end Four

/-- Why a run stops. Both are safe: the model stops where the spec gives the part no such address or item. -/
inductive Fault where
  /-- A store word outside the 16 GiB of R330 is named by an event. Safe. -/
  | storeAddress
  /-- An event names a slice, block, channel, loop or input the spec does not give the part. Safe. -/
  | noSuchPart
  deriving DecidableEq, Repr

/-- A command rejected without a meaning. -/
inductive Refusal where
  /-- The command has no meaning yet. Safe. -/
  | notModelled (mnemonic : String)
  deriving DecidableEq, Repr

/-- The ordering codes of R1, coded as SYS.IDENTIFY reports them (R67). -/
inductive Variant where
  | c | l | cn
  deriving DecidableEq, Repr

/-- R77: a firmware image header (chapter "Firmware images and update") with the outcome of its signature. -/
structure Image where
  version : Word
  security : Nat
  hwRev : Nat
  hitless : Bool
  sigOk : Bool
  deriving DecidableEq, Repr

/-- What is fixed at manufacture or kept in flash and fuses. -/
structure Ident where
  /-- R1: ordering code. [DC 7] -/
  variant : Variant := .c
  /-- R425: serial number, 16 ASCII characters. [DC 7] -/
  serial : List Byte := [0x48, 0x58, 0x32, 0x34, 0x43, 0x42, 0x32, 0x36, 0x33, 0x31, 0x30, 0x30, 0x30, 0x34, 0x31, 0x37]
  /-- R253: the device-unique key-encryption key, 256 bits. [DC 7] -/
  kek : List Byte := List.replicate 32 0
  /-- R77: blown anti-rollback fuses, 0 to 64. [DC 7] -/
  fuses : Nat := 0
  /-- R67, R108: the 32-bit boot count kept in flash. [DC 7] -/
  boots : Word := 0
  deriving DecidableEq, Repr

/-- Line time and the clocks the model steps. -/
structure Time where
  /-- R36, R94: line time runs. -/
  running : Bool := false
  /-- R84, R85: the transmit LTS, 72 bits. -/
  lts : Lts := ⟨0, 0⟩
  /-- R36, R86: symbol rate that line time counts at, in kBd. -/
  rate : Nat := 272000000
  /-- R103: superframe count of the entry boundary, 48 bits. [DC 6] -/
  sfEntry : Sf := 0
  /-- R103: nominal rate in effect at the entry, in kBd. [DC 6] -/
  entryRate : Nat := 272000000
  /-- R103: extended AON_TIMER count at the entry, 48 bits. [DC 6] -/
  entryTimer : Nat := 0
  /-- R17: nanoseconds counted by the ovenised resonator. [DC 6] -/
  resNs : Nat := 0
  /-- R327: how many of those passed in freeze, when the reference functions stand. [DC 6] -/
  resFrozen : Nat := 0
  /-- R17: nanoseconds counted by the warden's clock. [DC 6] -/
  wardenNs : Nat := 0
  /-- The model's own: time ticks taken, the argument of the free values of log entry 9. [DC 1] -/
  ticks : Nat := 0
  /-- The model's own: free values drawn so far. [DC 8] -/
  drawn : Nat := 0
  deriving DecidableEq, Repr

/-- The contacts and what is applied to them. -/
structure Pins where
  /-- R8: VIN12 at the contacts, in mV. [DC 6] -/
  vinMv : Nat := 0
  /-- R8, R10: VSB33 at the contacts, in mV. [DC 6] -/
  vsbMv : Nat := 3300
  /-- R10: VSB33 is valid. -/
  vsbValid : Bool := true
  /-- R361: VIN12 has been at or above 11.4 V for 100 ms. [DC 6] -/
  vinHeld : Bool := false
  /-- R375: lowest VIN12 since the last PWR.STATUS, in mV. [DC 6] -/
  lowestVin : Nat := 0
  /-- R374: case temperature, in 0.01 °C. [DC 6] -/
  caseTemp : Int := 2500
  /-- R416: RESET_N is low. [DC 6] -/
  resetLow : Bool := false
  /-- R361: WAKE_N is low, for at least 2 always-on cycles. [DC 6] -/
  wakeLow : Bool := false
  /-- R397: FREEZE_N is low. [DC 6] -/
  freezeLow : Bool := false
  deriving DecidableEq, Repr

/-- The coalescing of one of the causes RESP and NOTIFY (R430). -/
structure Coal where
  /-- R430: entries written since the cause bit last set. -/
  count : Nat := 0
  /-- R430: superframe of the write that set the bit, while a hold runs. -/
  since : Option Sf := none
  /-- R430: the interrupt of the cause has been raised. -/
  raised : Bool := false
  deriving DecidableEq, Repr

/-- The HIF_ registers (R43) and the interrupt logic behind them. -/
structure Hif where
  /-- R45: READY, the command path accepts descriptors. -/
  ready : Bool := false
  /-- R45, R80: RECOVERY. -/
  recovery : Bool := false
  /-- R43: HIF_FWVER, 32 bits. -/
  fwver : Word := 0
  /-- R45: SLOT, firmware slot running. -/
  slot : Bool := false
  /-- R46: ALERT_EN. -/
  alertEn : Bool := false
  /-- R46: MSIX_EN. -/
  msixEn : Bool := false
  /-- R43: HIF_CQn_TAIL, 6 bits each. -/
  cqTail : Four (BitVec 6) := ⟨0, 0, 0, 0⟩
  /-- R43: HIF_CQn_HEAD, 6 bits each. -/
  cqHead : Four (BitVec 6) := ⟨0, 0, 0, 0⟩
  /-- R43: HIF_RQ_TAIL, 8 bits. -/
  rqTail : BitVec 8 := 0
  /-- R43: HIF_RQ_HEAD, 8 bits. -/
  rqHead : BitVec 8 := 0
  /-- R43: HIF_NQ_TAIL, 9 bits. -/
  nqTail : BitVec 9 := 0
  /-- R43: HIF_NQ_HEAD, 9 bits. -/
  nqHead : BitVec 9 := 0
  /-- R43: HIF_NQ_SEQ, 32 bits. -/
  nqSeq : Word := 0
  /-- R47: HIF_IRQ_STATUS, 6 bits. -/
  irqStatus : BitVec 6 := 0
  /-- R47: HIF_IRQ_MASK, 6 bits. -/
  irqMask : BitVec 6 := 0
  /-- R48: HOLD, 16 bits. -/
  hold : Half := 0
  /-- R48: NCOUNT, 8 bits. -/
  ncount : Byte := 0
  /-- R48: RCOUNT, 8 bits. -/
  rcount : Byte := 0
  /-- R49: HIF_CQ_ERR, 32 bits. -/
  cqErr : Word := 0
  /-- R43: superframe count latched by a read of HIF_LTS_SYM, 48 bits. -/
  sfLatch : Sf := 0
  /-- R60: HIF_BUF_BUSY, 4 bits. -/
  bufBusy : BitVec 4 := 0
  /-- R43: HIF_SCRATCH, 32 bits. -/
  scratch : Word := 0
  /-- R430: coalescing of RESP. -/
  respCoal : Coal := ⟨0, none, false⟩
  /-- R430: coalescing of NOTIFY. -/
  noteCoal : Coal := ⟨0, none, false⟩
  /-- R38, R65: MSI-X vector mask bits of the table, 4 bits. [PR 14] -/
  msixMask : BitVec 4 := 0xF
  /-- R38: MSI-X pending-bit array, 4 bits. [PR 14] -/
  msixPending : BitVec 4 := 0
  /-- R46, R417: the PCIe MSI-X enable of the configuration space. [PR 14] -/
  msixEnable : Bool := false
  /-- R65: MSI-X messages sent on each vector; the model's own count of what left the part. [DC 14] -/
  msixSent : Four Nat := ⟨0, 0, 0, 0⟩
  deriving DecidableEq, Repr

/-- The AON_ registers (R51) and what else the always-on domain keeps. -/
structure Aon where
  /-- R53: VALID. -/
  valid : Bool := false
  /-- R53: SOURCE, 8 bits. -/
  source : Byte := 0
  /-- R53: COUNT, 8 bits, saturating. -/
  count : Byte := 0
  /-- R53: CODE, 8 bits. -/
  code : Byte := 0
  /-- R54: AON_WAKE_SRC, 5 bits. -/
  wakeSrc : BitVec 5 := 0
  /-- R51, R54: AON_WAKE_EN, 5 bits. -/
  wakeEn : BitVec 5 := 0x1F
  /-- R51: AON_TIMER, 32 bits. -/
  timer : Word := 0
  /-- R51: AON_WAKE_AT, 32 bits. -/
  wakeAt : Word := 0xFFFFFFFF
  /-- R51: high part of the carried-forward count, as latched, 16 bits. -/
  estHi : Half := 0
  /-- R55: BOOTS, 16 bits. -/
  boots : Half := 0
  /-- R55: LAST, 2 bits. -/
  last : BitVec 2 := 0
  /-- R55: TRIAL. -/
  trial : Bool := false
  /-- R55: RUNNING. -/
  running : Bool := false
  /-- R55: PREF. -/
  pref : Bool := false
  /-- R51: AON_SCRATCH, 32 bits. -/
  scratch : Word := 0
  /-- R52, R369: deepest coppicing level set, 0 to 5. -/
  coppice : Nat := 0
  /-- R52: VIN_OK. -/
  vinOk : Bool := false
  /-- R108: wrap count of AON_TIMER in peat memory, 16 bits. [DC 6] -/
  wraps : Half := 0
  /-- R361: the SUPPLY source is armed. [DC 6] -/
  supplyArmed : Bool := false
  /-- R198: the transmitter's SHUT latch. -/
  shut : Bool := false
  /-- R360: highest log SEQ issued, 48 bits. [DC 6] -/
  logSeq : Sf := 0
  /-- R393: pause record of the ageing monitor, AON_TIMER value. [DC 6] -/
  ageTimer : Nat := 0
  /-- R393: pause record of the ageing monitor, last case temperature. [DC 6] -/
  ageTemp : Int := 2500
  deriving DecidableEq, Repr

/-- A descriptor waiting in a command queue (R57). -/
structure Waiting where
  ord : Nat
  queue : BitVec 2
  slot : BitVec 5
  tag : Half
  since : Lts
  deriving DecidableEq, Repr

/-- An outstanding command (R58), with the buffer it holds (R60). -/
structure Outst where
  ord : Nat
  tag : Half
  buf : Option (BitVec 2)
  holds : Bool
  answered : Bool
  /-- R67: it carried SCHED. -/
  sched : Bool
  deriving DecidableEq, Repr

/-- A command held for its time or its boundary (R61, R446). -/
structure Pend where
  ord : Nat
  cmd : Instr
  due : Lts
  late : Bool
  /-- R120: it came in a bundle and is not answered. -/
  bundled : Bool := false
  /-- R104: its time had passed when line time resumed. -/
  passed : Bool := false
  deriving DecidableEq, Repr

/-- A notification held under R93. -/
structure Note where
  event : Half
  source : Half
  set : Option Bool
  data : List Byte
  lts : Lts
  src : Nat
  ord : Nat
  deriving DecidableEq, Repr

/-- The warden's queue bookkeeping. -/
structure Queues where
  /-- R57: descriptors submitted and not yet taken, in order of submission. -/
  waiting : List Waiting := []
  /-- R58: outstanding commands. -/
  outst : List Outst := []
  /-- R61: commands held for their time or boundary, at most 256 scheduled. -/
  pend : List Pend := []
  /-- R57: responses waiting for a free entry of the response queue. -/
  rspWait : List (Half × List Byte) := []
  /-- R62: tags of the responses in the ring, oldest first. -/
  rqTags : List Half := []
  /-- R93: notifications held. -/
  held : List Note := []
  /-- R64: the backlog in WORK, at most 4,096 entries of 64 bytes. -/
  backlog : List (List Byte) := []
  /-- R93: the latest LTS delivered in order. [DC 6] -/
  delivered : Lts := ⟨0, 0⟩
  /-- The next submission or detection number; the model's own. [DC 6] -/
  ord : Nat := 0
  /-- R94: a FW_FALLBACK waits for READY, with the slot that failed and the code. -/
  fallback : Option (Byte × Byte) := none
  /-- R61, R102: set while a taken command runs: whether it runs late. [DC 4] -/
  acting : Option Bool := none
  deriving DecidableEq, Repr

/-- What a host access returned. -/
structure Reply where
  /-- R39, R40: the words of the last read. [DC 6] -/
  words : List Word := []
  /-- R39: the last PCIe access completed with Unsupported Request. [DC 6] -/
  ur : Bool := false
  deriving DecidableEq, Repr

/-- The named power states (R50, R352). -/
inductive PState where
  | off | deep | sleep | idle | run | watch
  deriving DecidableEq, Repr

/-- Where the always-on sequencer stands (R33, R358, R363, R367). -/
inductive Phase where
  /-- R10: VSB33 absent. -/
  | inert
  /-- R33: steps 1 to 6 of a cold start, an exit from OFF or a restart. -/
  | boot (step : Nat)
  | steady (st : PState)
  /-- R358, R362: in the entry window of an entry. -/
  | entry (target : PState) (origin : PState)
  /-- R363: W1 to W6 of an exit from SLEEP or DEEP. -/
  | exit (origin : PState) (step : Nat)
  /-- R372: the orderly off on the hold-up. -/
  | orderlyOff
  deriving DecidableEq, Repr

/-- A power-state request (R367): its target, and the command it came from when it is one. -/
structure PwrReq where
  target : PState
  hdr : Option Hdr
  due : Lts
  wasHeld : Bool
  late : Bool
  deriving DecidableEq, Repr

/-- Power states, domains and coppicing (chapter 14). -/
structure Pwr where
  /-- R50, R352: the sequencer's phase. -/
  phase : Phase := .boot 1
  /-- R356: sluices closed, bit = domain code of R53. -/
  closed : BitVec 7 := 1
  /-- R356: power-good reported and reset released, same bits; bit 0 AON. -/
  powered : BitVec 7 := 1
  /-- R352, R356: domains powered but held, same bits. -/
  held : BitVec 7 := 0
  /-- R357: domains left open after PWR_DOMAIN_FAIL, until a new vote. -/
  failed : BitVec 7 := 0
  /-- R364: failed attempts of the running power-good sequence. -/
  attempts : Nat := 0
  /-- R364: a retry is scheduled 10 ms ahead. -/
  retryDue : Bool := false
  /-- R356: the boot vote is cast. -/
  bootVote : Bool := false
  /-- R356: host votes, bits as PWR.VOTE byte 16. -/
  hostVotes : Byte := 0
  /-- R356: superframe at which the memory-mode vote is withdrawn, or none. -/
  mmVoteEnd : Option Sf := none
  /-- R356: the memory-mode engine holds its CIPH vote. -/
  mmVote : Bool := false
  /-- R375: WATCH_PERIOD. -/
  watchPeriod : Nat := 16384
  /-- R375: restore after C4. -/
  restoreC4 : Bool := true
  /-- R375: restore after wake. -/
  restoreWake : Bool := true
  /-- R375: NOTIFY coppicing. -/
  notifyCop : Bool := true
  /-- R367: the request that the running transition serves. -/
  req : Option PwrReq := none
  /-- R367: the request held during a transition. -/
  heldReq : Option PwrReq := none
  /-- R353: state to enter after an exit from SLEEP. -/
  then_ : Option PwrReq := none
  /-- R374: the thermal warning is set. -/
  thermal : Bool := false
  /-- R374: first measurement of the run at or above 85 °C. -/
  hotFrom : Option Nat := none
  /-- R375: superframe count of the last state change, 48 bits. [DC 6] -/
  lastChange : Sf := 0
  /-- R375: sets of C1 to C5, 32 bits each. [DC 6] -/
  sets : List Word := [0, 0, 0, 0, 0]
  /-- R370: levels whose work has been shed. -/
  shed : Nat := 0
  /-- R119, R371: C4 interrupted a mode change. -/
  c4Change : Bool := false
  /-- R365: a mode is to be restored at W7. -/
  restoreAt7 : Bool := false
  /-- R368: superframe at which the open or next watch window begins. [DC 6] -/
  watchNext : Sf := 0
  /-- R368: a watch window is open. -/
  watchOpen : Bool := false
  /-- R368: consecutive comparisons above the level. -/
  watchRun : Nat := 0
  /-- R368: superframe of the last comparison in the open window. -/
  watchCmp : Option Sf := none
  /-- R368: light seen in the open window. -/
  watchLight : Bool := false
  /-- R445: LIGHT is active. -/
  lightActive : Bool := false
  /-- R368: PWR_LIGHT raised, no whole window without light since. -/
  lightSaid : Bool := false
  /-- R361: a wake latched while VIN12 is not valid. -/
  wakeLatched : Bool := false
  /-- R364: level wakes that must go inactive before they count as new. -/
  wakeSpent : Bool := false
  deriving DecidableEq, Repr

/-- A line mode with its parameters (R109): rate in kBd, H in 2^-12 bit. -/
structure LMode where
  code : Byte
  rate : Nat
  base : Byte
  ovh : Byte
  h : Nat
  slots : Nat
  deriving DecidableEq, Repr

/-- A mode change accepted or in progress (R114 to R119, R434, R435). `new` is none for mode 0x00 and for WATCH; `fresh`
says that no traffic mode ran before; `phase` is 0 before C, 1 from C and 2 from C + 1. -/
structure Change where
  hdr : Option Hdr
  late : Bool
  c : Sf
  new : Option LMode
  watch : Bool
  sameB : Bool
  fresh : Bool
  bundle : List Instr
  applied : Nat
  phase : Nat
  deriving DecidableEq, Repr

/-- Line modes (chapter 4). -/
structure Line where
  /-- R109, R435: the traffic mode that runs. -/
  cur : Option LMode := none
  /-- R435: the mode recorded for a restore. -/
  recorded : Option LMode := none
  /-- R121: superframe count of the last C, 48 bits. [DC 6] -/
  lastC : Sf := 0
  /-- R114: the mode change scheduled or in progress. -/
  change : Option Change := none
  /-- R144: the receive chain runs. -/
  rxChain : Bool := false
  /-- R198: the transmit chain runs. -/
  txChain : Bool := false
  deriving DecidableEq, Repr

/-- A chain restart between its boundary C and C + 1 (R149, R183), with the command that asked. -/
structure Restart where
  c : Sf
  hdr : Hdr
  late : Bool
  deriving DecidableEq, Repr

/-- States of a converter slice (R134), as FE.SLICES codes them. -/
inductive SliceSt where
  | active | spare | calib | retired
  deriving DecidableEq, Repr

/-- One converter slice (R134, R135, R378). -/
structure Slice where
  st : SliceSt
  pos : Nat
  count : Word
  last : Sf
  stale : Bool
  rangeRun : Nat
  noiseRun : Nat
  failed : Bool
  /-- R135: the corrections: offset in 1/64 LSB, gain in ppm, timing skew in units of 10 fs. [DC 7] -/
  offset : Int := 0
  gain : Int := 0
  skew : Int := 0
  /-- R135: the noise found at the last calibration, in 0.01 dB. [DC 7] -/
  noise : Int := 0
  deriving DecidableEq, Repr

/-- One converter channel (R134, R185). -/
structure Chan where
  slices : List Slice
  lastSwap : Sf
  substituted : Bool
  deriving DecidableEq, Repr

/-- Manufacture order: `n` active slices, then `sp` spares (R134, R185). -/
def Chan.fresh (n sp : Nat) : Chan :=
  ⟨(List.range (n + sp)).map fun i =>
      { st := if i < n then .active else .spare, pos := if i < n then i else 0, count := 0, last := 0, stale := false,
        rangeRun := 0, noiseRun := 0, failed := false }, 0, false⟩

/-- The receive front end (chapter 5). -/
structure Fe where
  /-- R148: gain mode. [DC 6] -/
  mode : Nat := 0
  /-- R129: TIA gain X, 0.5 dB. [DC 6] -/
  xGain : Nat := 0
  /-- R129: TIA gain Y, 0.5 dB. [DC 6] -/
  yGain : Nat := 0
  /-- R129: RMS target. -/
  rms : Nat := 24
  /-- R130: OVR_STEP. -/
  ovrStep : Nat := 16
  /-- R128: LOS threshold, 0.1 dB. -/
  losThr : Int := -240
  /-- R140: NOTIFY. [DC 6] -/
  notify : Bool := false
  /-- R128: raw loss-of-signal. [DC 6] -/
  rawLos : Bool := true
  /-- R128: tap photodiode reading, 0.01 dBm. [DC 6] -/
  power : Int := -10000
  /-- R138: sticky over-range bits. -/
  sticky : BitVec 4 := 0
  /-- R138: over-range counts, 32 bits, saturating. -/
  ovr : Four Nat := ⟨0, 0, 0, 0⟩
  /-- R130, R140: over-range samples in the superframe of `ovrAt`. -/
  ovrSf : Four Nat := ⟨0, 0, 0, 0⟩
  /-- R130: that superframe. [DC 6] -/
  ovrAt : Sf := 0
  /-- R140: superframe of the last FE_OVERRANGE of each channel. -/
  ovrNoted : Four (Option Sf) := ⟨none, none, none, none⟩
  /-- R131: gain step due on X, in 0.5 dB. -/
  stepX : Int := 0
  /-- R131: gain step due on Y, in 0.5 dB. -/
  stepY : Int := 0
  /-- R130: the superframe from which the step due on X, and on Y, may take effect. [DC 6] -/
  stepFromX : Sf := 0
  stepFromY : Sf := 0
  /-- R130, R131: the superframe of the last gain step of X, and of Y. -/
  stepSfX : Option Sf := none
  stepSfY : Option Sf := none
  /-- R148: gain steps since start, 32 bits. -/
  gainSteps : Word := 0
  /-- R131, R139: the symbols marked disturbed of late, as rising disjoint intervals of stamps. -/
  marked : List (Nat × Nat) := []
  /-- R134: the ADC channels. -/
  adc : Four Chan := Four.all (Chan.fresh 64 4)
  /-- R145: stored host resampler set, 1,536 values. -/
  resampler : Option (List Int) := none
  /-- R145: stored host half-band set, 12 values. -/
  halfband : Option (List Int) := none
  /-- R145: the loaded resampler set is the host's. -/
  resHost : Bool := false
  /-- R145: the loaded half-band set is the host's. -/
  hbHost : Bool := false
  /-- R141: half-band stages in use. -/
  stages : Nat := 0
  /-- R147: output samples still to be marked VALID = 0. -/
  invalid : Nat := 0
  /-- R147: start of the receive chain. [DC 6] -/
  startAt : Lts := ⟨0, 0⟩
  /-- R142: the resampler's phase accumulator as it stood at `phaseAt`, 32 bits. [DC 6] -/
  phase : Word := 0
  phaseAt : Lts := ⟨0, 0⟩
  /-- R142, R148: timing correction, ppb. [DC 6] -/
  timingPpb : Int := 0
  /-- R149: a coefficient restart of the receive chain in progress. -/
  restart : Option Restart := none
  deriving DecidableEq, Repr

/-- The equaliser (chapter 6). -/
structure Eq where
  /-- R166: state code, 0 to 8. -/
  st : Nat := 0
  /-- R175: last failure or exit reason. -/
  reason : Nat := 0
  /-- R174: warm entry in progress. -/
  warm : Bool := false
  /-- R158: the decision error exceeded the pilot error by more than 3 dB over the last superframe. -/
  decErr : Bool := false
  /-- R165: adaptation held. -/
  held : Bool := false
  /-- R157: taps in use. -/
  taps : Nat := 63
  /-- R157: taps set, in force from the next entry to A5. -/
  tapsSet : Nat := 63
  /-- R174: profile. [DC 6] -/
  profile : Nat := 0
  /-- R156: timing bandwidth code. -/
  bw : Nat := 1
  /-- R155: use the host's hint. [DC 6] -/
  useHint : Bool := false
  /-- R161: slip erasure off. [DC 6] -/
  noErase : Bool := false
  /-- R176: NOTIFY slips. [DC 6] -/
  notifySlips : Bool := false
  /-- R155: dispersion hint, ps/nm. [DC 6] -/
  hint : Int := 0
  /-- R155: hint window W, 0 = 10S. -/
  window : Nat := 0
  /-- R166: SNR_FLOOR, 0.1 dB, 0 = default. -/
  floor : Nat := 0
  /-- R168: WARM_HOLD, superframes. -/
  warmHold : Nat := 16384
  /-- R162: NLC mode. [DC 6] -/
  nlcMode : Nat := 0
  /-- R162: NLC scale set, Q4.12. [DC 6] -/
  nlcScale : Half := 0
  /-- R162: NLC scale in use, Q4.12. [DC 6] -/
  nlcUsed : Half := 0
  /-- R162: the coefficients in use, by the free value that stands for them. [DC 6] -/
  nlcCoef : Nat := 0
  /-- R155: the dispersion setting, ps/nm. [DC 6] -/
  cd : Int := 0
  /-- R159, R166: the carrier offset that acquisition works with, kHz. [DC 6] -/
  cfo : Int := 0
  /-- R157: the taps' values, by the free value that stands for them. [DC 6] -/
  tapVals : Nat := 0
  /-- R168: setting, carrier offset and taps of the last TRACK state, for the warm entry. [DC 6] -/
  cdStored : Int := 0
  cfoStored : Int := 0
  tapStored : Nat := 0
  /-- R155: candidates left to try in this pass. -/
  cands : List Int := []
  /-- R155, R167: the window that the sweep of this pass covers first, in ps/nm. -/
  sweepWin : Option (Int × Int) := none
  /-- R166: superframe at which the state was entered. [DC 6] -/
  since : Sf := 0
  /-- R167: failed passes since the last TRACK, 32 bits. -/
  failed : Word := 0
  /-- R167: superframe of the last EQ_ACQ_FAIL, since a start or an exit from TRACK. -/
  failNoted : Option Sf := none
  /-- R174: superframe count of the last TRACK entry, 48 bits. [DC 6] -/
  trackIn : Sf := 0
  /-- R174: superframe count of the last TRACK exit, 48 bits. [DC 6] -/
  trackOut : Sf := 0
  /-- R168: a TRACK state has ended since the chain started and the laser frequency has not changed since. -/
  warmOk : Bool := false
  /-- R155: a dispersion estimate of a TRACK state is kept, laser frequency unchanged. -/
  cdKept : Bool := false
  /-- R437: A3 has completed since the receive chain started. -/
  a3Done : Bool := false
  /-- R160: slips X, 32 bits. -/
  slipsX : Word := 0
  /-- R160: slips Y, 32 bits. -/
  slipsY : Word := 0
  /-- R389: slips of X and Y together, never cleared. -/
  slipTotal : Nat := 0
  /-- R169, R176: slips of the superframe `slipSf`, X and Y. -/
  slipSfX : Nat := 0
  slipSfY : Nat := 0
  /-- R176: that superframe. [DC 6] -/
  slipSf : Sf := 0
  /-- R176: superframes of the last EQ_SLIP of X and of Y. -/
  slipNotedX : Option Sf := none
  slipNotedY : Option Sf := none
  /-- R160: the quadrant corrections applied to X and to Y. -/
  quadX : BitVec 2 := 0
  quadY : BitVec 2 := 0
  /-- R160, R161: the symbols of X and of Y erased of late, as rising disjoint intervals of stamps. -/
  erasedX : List (Nat × Nat) := []
  erasedY : List (Nat × Nat) := []
  /-- R163: the symbols excluded from adaptation of late, in the same form. -/
  excl : List (Nat × Nat) := []
  /-- R166: the timing loop is locked, as last supervised. -/
  locked : Bool := false
  /-- R166: consecutive superframes of A6 with the pilot residual below π/8, and of A7 with both SNRs at the floor. -/
  pilotRun : Nat := 0
  snrRun : Nat := 0
  /-- R169: consecutive superframes of TRACK with the timing correction at its limit, and with an SNR below the floor. -/
  limitRun : Nat := 0
  lowRun : Nat := 0
  /-- R164, R166, R170: consecutive training words found on both outputs, and missed on X and on Y. -/
  foundRun : Nat := 0
  missX : Nat := 0
  missY : Nat := 0
  /-- R166: an S form has been found at frame 0 since the entry to A5. -/
  sForm : Bool := false
  /-- R173: the symbol frame of the last training word handed on. -/
  lastWord : Option Nat := none
  /-- R166, R171: the base that SNR_FLOOR's default follows. [DC 6] -/
  base : Byte := 0
  /-- R174: TRACK entries since the chain started, 32 bits. -/
  entries : Word := 0
  /-- R172: the estimates. [DC 6] -/
  est : Estimates := ⟨0, 0, 0, 0, 0, 0, 0, 0, 0, 0, 0, 0, 0, 0, 0⟩
  /-- R174: superframe count of the estimate, 48 bits. [DC 6] -/
  estSf : Sf := 0
  /-- R174: dispersion within 5 % of capacity. -/
  nearCap : Bool := false
  /-- R174: mean DGD beyond tolerance. -/
  dgdBeyond : Bool := false
  /-- R170: raw symbol-frame loss. -/
  rawLosf : Bool := true
  deriving DecidableEq, Repr

/-- Optical states (R196). -/
inductive Opt where
  | dark | tuning | blank | null | lit | shut
  deriving DecidableEq, Repr

/-- Shaping settings (R182, R201). -/
structure Shaping where
  beta : Nat := 5
  nlOn : Bool := false
  cd : Int := 0
  nlScale : Int := 0
  clip : Nat := 32
  deriving DecidableEq, Repr

/-- The transmitter and laser (chapter 7). -/
structure Tx where
  /-- R196: optical state. -/
  st : Opt := .dark
  /-- R202: last reason. -/
  reason : Nat := 0
  /-- R197: a frequency has been set. -/
  freqSet : Bool := false
  /-- R190: grid index n. [DC 6] -/
  grid : Int := 0
  /-- R190: fine offset, MHz. [DC 6] -/
  fine : Int := 0
  /-- R192: the laser's frequency in MHz, and the warden's clock when a ramp in light last moved it. [DC 6] -/
  freq : Int := 193100000
  rampAt : Nat := 0
  /-- R194: set power, 0.1 dBm. -/
  power : Int := -80
  /-- R194: the power that the output of LIT is held to while it ramps, 0.1 dBm. -/
  powerNow : Int := -80
  /-- R197: enable request: 0 dark, 1 enable, 2 blank. -/
  request : Nat := 1
  /-- R198: SHUT has been left by "dark", and "enable" has followed. -/
  rearmed : Bool := true
  /-- R188: loops converged, 6 bits. -/
  converged : BitVec 6 := 0
  /-- R189: since which superframe a loop's error has stayed beyond its target in LIT. -/
  beyond : List (Option Sf) := [none, none, none, none, none, none]
  /-- R189: superframe of the last TX_BIAS_ALARM per loop. -/
  alarmed : List (Option Sf) := [none, none, none, none, none, none]
  /-- R192: superframe from which the lock limit counts. [DC 6] -/
  tuneFrom : Sf := 0
  /-- R182: settings in force. -/
  now : Shaping := ⟨5, false, 0, 0, 32⟩
  /-- R182: settings stored for the next chain start. -/
  stored : Shaping := ⟨5, false, 0, 0, 32⟩
  /-- R183: a restart of the transmit chain in progress. -/
  restart : Option Restart := none
  /-- R199: automatic shutdown on. -/
  als : Bool := false
  /-- R199: restart interval, units of 16,384 superframes. -/
  alsInterval : Nat := 100
  /-- R199: pulse, same units. -/
  alsPulse : Nat := 2
  /-- R199: a restart pulse runs. -/
  alsPulsing : Bool := false
  /-- R199: superframe at which the last blanking or pulse started. [DC 6] -/
  alsFrom : Sf := 0
  /-- R182: what calibration sets: 33 taps per channel, the channels' skew in units of 10 fs, and the I/Q gain imbalance in 0.01 dB and
  phase imbalance in 0.01° of each polarisation. [DC 7] -/
  fir : List (List Int) := List.replicate 4 (List.replicate 33 0)
  skew : List Int := [0, 0, 0, 0]
  iqGain : List Int := [0, 0]
  iqPhase : List Int := [0, 0]
  /-- R185: the DAC channels. -/
  dac : Four Chan := Four.all (Chan.fresh 32 2)
  deriving DecidableEq, Repr

/-- R213: marked information bits `lo` to `hi - 1` of a received superframe. -/
structure Mark where
  sf : Sf
  lo : Nat
  hi : Nat
  deriving DecidableEq, Repr

/-- The decoder (chapter 8). -/
structure Fec where
  /-- R210: the boundary at which the running search started, or its last repeat. [DC 6] -/
  searchFrom : Sf := 0
  /-- R210: the received superframe whose place in the code period the last decision found. [DC 6] -/
  refSf : Sf := 0
  /-- R211: codewords in flight. -/
  flight : Nat := 0
  /-- R215: codewords of the received superframe `curSf` delivered so far, counted from its first. -/
  outIdx : Nat := 0
  /-- R213: the information bits of the last received superframes that are marked. -/
  marks : List Mark := []
  /-- R215: corrected bits and coded bits of the last valid estimate. [DC 6] -/
  estOf : Nat × Nat := (0, 0)
  /-- R209: the first superframe of the coupled chain that is transmitted, none while none is. -/
  chainFrom : Option Sf := none
  /-- R219: bits that the injection generator, never reseeded, has drawn. -/
  injectPos : Nat := 0
  /-- R219: 0 stopped, 1 searching, 2 aligned. -/
  st : Nat := 0
  /-- R211: L in force. -/
  l : Nat := 4096
  /-- R217: L set, in force from the next search. -/
  lSet : Nat := 4096
  /-- R220: NOTIFY alignment. [DC 6] -/
  notify : Bool := false
  /-- R216: DEG threshold, 1e-7, 0 = default. -/
  deg : Nat := 0
  /-- R215: cumulative counters, 64 bits each. -/
  cw : Dword := 0
  corr : Dword := 0
  outer : Dword := 0
  unc : Dword := 0
  /-- R389: the block counters behind the tallies, which no command clears: codewords, corrected bits, uncorrectable. -/
  totCw : Nat := 0
  totCorr : Nat := 0
  totUnc : Nat := 0
  /-- R219: superframe count at which counting began. [DC 6] -/
  since : Sf := 0
  /-- R215: the received superframe being counted. [DC 6] -/
  curSf : Sf := 0
  /-- R215: its codewords, corrected bits and uncorrectable codewords. -/
  curCw : Nat := 0
  curCorr : Nat := 0
  curUnc : Nat := 0
  /-- R97, R215: the same, latched, of the last superframe. -/
  lastCw : Nat := 0
  lastCorr : Nat := 0
  lastUnc : Nat := 0
  /-- R215: last valid estimate, 1e-9. [DC 6] -/
  estimate : Nat := 0
  /-- R215: the last superframe had a valid estimate. -/
  estValid : Bool := false
  /-- R216: raw degrade and raw uncorrectable of the last superframe. -/
  rawDeg : Bool := false
  rawUnc : Bool := false
  /-- R219: code period phase and cycle phase. [DC 6] -/
  phase : Nat := 0
  cycle : Nat := 0
  /-- R219: superframe count of the last alignment. [DC 6] -/
  alignedAt : Sf := 0
  /-- R219: alignment losses since the chain started, 32 bits. -/
  losses : Word := 0
  /-- R220: cause of the running search. -/
  cause : Nat := 0
  /-- R219: injection on, and its BER in 1e-7. -/
  inject : Bool := false
  injectBer : Nat := 0
  deriving DecidableEq, Repr

/-- The integration of one defect (R234): set, its raw condition, the LTS since which the present level of
the raw condition has held, and the run counted in comparisons, headers, frames, superframes or spans. -/
structure Integ where
  set : Bool := false
  raw : Bool := false
  since : Lts := ⟨0, 0⟩
  run : Nat := 0
  deriving DecidableEq, Repr

/-- A framing candidate (R230): next header position, its expected TFN, headers passed. -/
structure Cand where
  pos : Nat
  tfn : Word
  passed : Nat
  deriving DecidableEq, Repr

/-- The transport framer (chapter 9). -/
structure Tf where
  /-- R248: 0 stopped, 1 HUNT, 2 PRESYNC, 3 IN_FRAME. -/
  st : Nat := 0
  /-- R232: open candidates, oldest first, at most 16. -/
  cands : List Cand := []
  /-- R230: expected header position and TFN while IN_FRAME. [DC 6] -/
  pos : Nat := 0
  tfn : Word := 0
  /-- R230: consecutive bad headers. -/
  badRun : Nat := 0
  /-- R249: cause of the last dOOF. [DC 6] -/
  oofCause : Nat := 1
  /-- R248: received MODE, last received TFN, received SFC and its difference. [DC 6] -/
  rxMode : Byte := 0
  rxTfn : Word := 0
  rxSfc : Sf := 0
  rxDiff : Sf := 0
  /-- R248: counters, 32 bits each. -/
  bad : Word := 0
  hunts : Word := 0
  disagree : Word := 0
  sfohFails : Word := 0
  /-- R224: framer byte offset at the start of the received superframe. [DC 6] -/
  base : Nat := 0
  /-- R224: the received superframe, and the one before it with the framer bytes it held. [DC 6] -/
  rxSf : Sf := 0
  prevSf : Sf := 0
  prevBase : Nat := 0
  prevFbytes : Nat := 0
  /-- R224: FBYTES taken for this superframe, and FBYTES_NEXT of a usable SFOH. -/
  fbytes : Nat := 0
  fnext : Option Nat := none
  /-- R230: header positions that the TSP of a usable SFOH of this and of the previous superframe gives. -/
  ptr : Option Nat := none
  ptrPrev : Option Nat := none
  /-- R224: the SFOH of this and of the previous superframe was usable. -/
  usable : Bool := false
  usablePrev : Bool := false
  /-- R259: LTS of byte 0 of the first TF since the transmit chain started or the mode changed. -/
  origin : Lts := ⟨0, 0⟩
  /-- R229: TFs transmitted since then. -/
  txCount : Nat := 0
  /-- R259: the number of the next span boundary. -/
  spanNext : Nat := 0
  /-- R223: the transmitted superframe of the fields that follow. [DC 6] -/
  txSf : Sf := 0
  /-- R222, R223: FBYTES, FBYTES_NEXT and TSP (valid where it is given) of the transmitted superframe, and its SFOH. [DC 6] -/
  txFbytes : Nat := 0
  txFnext : Nat := 0
  txTsp : Option Nat := none
  txSfoh : List Byte := []
  /-- R227, R122: BDI as last sent. -/
  txBdi : Bool := false
  /-- R228: the last transmitted TF, scrambled, 65,536 bytes. [DC 6] -/
  txFrame : List Byte := []
  /-- R227: TFN of the next transmitted TF, 32 bits. -/
  txTfn : Word := 0
  /-- R248: last transmitted TFN, 32 bits. [DC 6] -/
  txLast : Word := 0
  /-- R226: the last transmitted header and overhead, 256 bytes. [DC 6] -/
  txHead : List Byte := []
  /-- R234: the line defects. -/
  los : Integ := ⟨false, true, ⟨0, 0⟩, 0⟩
  loa : Integ := ⟨false, false, ⟨0, 0⟩, 0⟩
  losf : Integ := ⟨false, true, ⟨0, 0⟩, 0⟩
  oof : Integ := ⟨false, false, ⟨0, 0⟩, 0⟩
  lof : Integ := ⟨false, false, ⟨0, 0⟩, 0⟩
  deg : Integ := ⟨false, false, ⟨0, 0⟩, 0⟩
  unc : Integ := ⟨false, false, ⟨0, 0⟩, 0⟩
  bdi : Integ := ⟨false, false, ⟨0, 0⟩, 0⟩
  deriving DecidableEq, Repr

/-- A span in the verify buffer (R266): its number, whether its tag has been judged and passed. -/
structure SpanHeld where
  span : Nat
  start : Lts
  verdict : Option Bool
  deriving DecidableEq, Repr

/-- A tributary (R238) with its mapper counters, defects and key references. -/
structure Trib where
  tid : Byte
  entry : Nat
  client : Nat
  port : Nat
  /-- R248: 0 plaintext, 1 cut-through, 2 store-and-verify. -/
  cipher : Nat
  /-- R247: the first TF that carries it starts at or after this stamp. -/
  from_ : Lts
  /-- R245: CSF is being sent. -/
  txCsf : Bool := true
  /-- R235: integration of dCSF, dPLM; R270: dKEY; R267: dAUTH. -/
  csf : Integ := ⟨false, false, ⟨0, 0⟩, 0⟩
  plm : Integ := ⟨false, false, ⟨0, 0⟩, 0⟩
  auth : Integ := ⟨false, false, ⟨0, 0⟩, 0⟩
  key : Integ := ⟨false, false, ⟨0, 0⟩, 0⟩
  keySlot : Byte := 0
  rxPt : Nat := 0xFF
  rxEnc : Bool := false
  /-- R243: BP and JC of the frame held, and whether the 257-bit alignment is known. -/
  bp : Option Nat := none
  jc : Option Bool := none
  dataNow : Nat := 0
  /-- R243: the 257-bit alignment is being re-taken. -/
  gap : Bool := false
  /-- R246: the block that reaches from the frame before into the frame held has marked bits there. -/
  tailMarked : Bool := false
  /-- R240: the entry that carries the tributary in the received table. [DC 6] -/
  rxEntry : Nat := 0
  /-- R260, R264: the received entries of the span that runs and of the span before, 4 bytes for each TF received in frame. -/
  rxAad : List Byte := []
  prevAad : List Byte := []
  /-- R260: the entries and the ciphertext sent in the span that runs. -/
  txAad : List Byte := []
  txCt : List Byte := []
  /-- R261: the tag of the last whole span sent, 16 bytes. -/
  txTag : List Byte := List.replicate 16 0
  /-- R242: the BP to send next. -/
  txBp : Nat := 0
  joData : Word := 0
  joStuff : Word := 0
  mismatches : Word := 0
  retakes : Word := 0
  errBlocks : Word := 0
  /-- R248: JO decisions of the last frames sent, newest first, at most 16,384. -/
  joRecent : List Bool := []
  /-- R256: key references. -/
  txCur : Option Byte := none
  txNext : Option Byte := none
  rxCur : Option Byte := none
  rxNext : Option Byte := none
  /-- R257, R258: key phases. -/
  txPhase : Bool := false
  rxPhase : Bool := false
  /-- R260, R263: span counters, and whether the receive counter is confirmed. -/
  txSpan : Nat := 0
  rxSpan : Nat := 0
  confirmed : Bool := false
  confirmNext : Option Nat := none
  /-- R257: a transmit activation has restarted the counter for the span that begins. -/
  txFresh : Bool := false
  /-- R258, R270: the next span's phase is adopted for the receive current key. -/
  adopt : Bool := false
  /-- R263, R264: counter, slot and confirmation of the span before, whose tag is to come. -/
  prevSpan : Nat := 0
  prevSlot : Option Byte := none
  prevConf : Bool := false
  /-- R249, R267: number of the last failing span, and of the first and last since the interval began. -/
  authSpan : Nat := 0
  failFirst : Nat := 0
  /-- R269, R270: blocked on transmit, on receive, far end blocked. -/
  blockTx : Bool := false
  blockRx : Bool := false
  /-- R280: blocked on transmit and on receive by a failure of a line engine. -/
  lineTx : Bool := false
  lineRx : Bool := false
  /-- R266, R268: what leaves the cipher is the replacement signal: the last span released was not a verified one, or none has
  been since the behaviour was chosen. -/
  relBad : Bool := true
  farBlocked : Bool := false
  verified : Word := 0
  failedSpans : Word := 0
  /-- R389: failing spans, never cleared. -/
  failTotal : Nat := 0
  incomplete : Word := 0
  counterMiss : Word := 0
  /-- R267: failing spans logged since the interval began, and its start. -/
  failLogged : Nat := 0
  failFrom : Sf := 0
  /-- R266: spans in the verify buffer. -/
  buffer : List SpanHeld := []
  /-- R237, R265, R266: the client output carries the replacement signal. -/
  replaced : Bool := true
  deriving DecidableEq, Repr

/-- Key slot states (R251). -/
inductive SlotSt where
  | empty | loaded | next | current | draining | spent
  deriving DecidableEq, Repr

/-- The contents KEY.LOAD brings (R250, R253). -/
structure KeyData where
  key : List Byte := []
  salt : List Byte := []
  usage : Nat := 0
  clearCtx : Bool := false
  kcv : List Byte := []
  deriving DecidableEq, Repr

/-- A key slot (R250). `coming` is a loaded key not yet usable, with the stamp from which it is (R254). -/
structure KeySlot where
  st : SlotSt := .empty
  data : KeyData := ⟨[], [], 0, false, []⟩
  owner : Byte := 0xFF
  spans : Nat := 0
  coming : Option (KeyData × Lts) := none
  /-- R251: the last tag under the slot has been handled. -/
  handled : Bool := false
  /-- R251: the tributary whose spans a receive slot drains, 0xFF for none. -/
  drainOf : Byte := 0xFF
  aged : Bool := false
  deriving DecidableEq, Repr

/-- The cipher (chapter 10). -/
structure Ciph where
  /-- R250: the 256 key slots. -/
  slots : List KeySlot := List.replicate 256 ⟨.empty, ⟨[], [], 0, false, []⟩, 0xFF, 0, none, false, 0xFF, false⟩
  /-- R280: line engines and memory-mode engine have passed their self-tests. [DC 6] -/
  lineOk : Bool := true
  mmOk : Bool := true
  /-- R280: self-tests run so far; the model's own argument of the free outcome. [DC 11] -/
  tests : Nat := 0
  /-- R276: the context whose turn was the last. -/
  mmTurn : Nat := 15
  /-- R272: the slots lie in peat memory. -/
  inPeat : Bool := false
  deriving DecidableEq, Repr

/-- A memory-mode job that runs (R277). -/
structure MmJob where
  hdr : Hdr
  mode : Nat
  aad : List Byte
  data : List Byte
  tag : List Byte
  late : Bool
  /-- R276: bytes still to be run. -/
  left : Nat := 0
  deriving DecidableEq, Repr

/-- A memory-mode context (R276, R278). -/
structure MmCtx where
  busy : Bool := false
  alg : Nat := 0
  dir : Nat := 0
  prio : Nat := 0
  slot : Byte := 0
  ctr : List Byte := []
  ghash : List Byte := []
  iv : List Byte := []
  aadBytes : Nat := 0
  dataBytes : Nat := 0
  out : List Byte := []
  readable : Bool := false
  serial : Word := 0
  restored : Bool := false
  /-- R339: a page of its output area has been zeroed; the next command reports it. -/
  damaged : Bool := false
  job : Option MmJob := none
  deriving DecidableEq, Repr

/-- A lane frame received at a traffic step that waits for those of the other lanes (R293): its LFC, whether its codewords were
lost, and the tags of its 39 positions. -/
structure LaneHeld where
  lfc : Byte
  cw0Bad : Bool
  cw1Bad : Bool
  tags : List Nat
  deriving DecidableEq, Repr

/-- A host lane (R287 to R298). -/
structure Lane where
  locked : Bool := false
  ready : Bool := false
  goodRun : Nat := 0
  badRun : Nat := 0
  badCwRun : Nat := 0
  lfc : Option Byte := none
  /-- R293: frames held for the deskew, oldest first, at most 12. -/
  held : List LaneHeld := []
  adverts : Nat := 0
  peerReady : Bool := false
  corrected : Nat := 0
  uncorrectable : Word := 0
  stuff : Word := 0
  ber : Nat := 0
  c2 : Int := 0
  c1 : Int := 0
  cp : Int := 0
  s2 : Int := 0
  s1 : Int := 0
  sp : Int := 0
  answer : Byte := 0
  deriving DecidableEq, Repr

/-- A port in use (R284, R302). -/
structure Port where
  num : Nat
  client : Nat
  failed : Option IngressCause := none
  unserved : Bool := false
  blocksIn : Word := 0
  blocksOut : Word := 0
  errBlocks : Word := 0
  /-- R389: error control blocks, never cleared. -/
  errTotal : Nat := 0
  overruns : Word := 0
  discarded : Word := 0
  /-- R302: the last superframe known to have had a cause of failure. [DC 6] -/
  condAt : Sf := 0
  deriving DecidableEq, Repr

/-- Link states (R306 byte 18). -/
inductive LinkSt where
  | off | detect | switch | train | bond | up | l1 | l2
  deriving DecidableEq, Repr

/-- The host lanes (chapter 11). -/
structure Hl where
  /-- R283: Osier mode. [DC 6] -/
  osier : Bool := false
  /-- R283: N. [DC 6] -/
  n : Nat := 16
  /-- R299: highest step set. [DC 6] -/
  maxStep : Nat := 3
  /-- R285: ZR400 group, none when 0xFF. [DC 6] -/
  group : Option Nat := none
  /-- R307: NOTIFY link. [DC 6] -/
  notify : Bool := false
  /-- R286: polarity inversion. [DC 6] -/
  inPol : Half := 0
  outPol : Half := 0
  /-- R306: link state and step. -/
  link : LinkSt := .off
  step : Nat := 0
  /-- R299: target step of the switch or training, and whether it is a fast retrain. -/
  target : Nat := 0
  fast : Bool := false
  retried : Bool := false
  failedTop : Bool := false
  /-- R299: LFC after which the module's transmitter, and the host's, switches. -/
  txSwitch : Option Byte := none
  rxSwitch : Option Byte := none
  txSwitched : Bool := false
  rxSwitched : Bool := false
  /-- R299: start of the phase. [DC 6] -/
  since : Sf := 0
  /-- R297: the host's ADVERTISE. [DC 6] -/
  hostStep : Nat := 0
  hostCaps : Byte := 0
  /-- R299: LINK_UP sent, received; step of the last link-up. -/
  upSent : Bool := false
  upSeen : Bool := false
  lastStep : Nat := 0
  /-- R301: RDI is sent. -/
  rdi : Bool := false
  /-- R303: a low-power request in progress: state, our frame, sent by us. -/
  lp : Option (Nat × Byte × Bool × Option Hdr) := none
  /-- R292: the module's lane frame counter. [DC 6] -/
  lfc : Byte := 0
  /-- R296: control block to be sent, type and fields. -/
  control : Option (List Byte) := none
  /-- R305: loopback type and lanes. -/
  loopback : Nat := 0
  loopLanes : Half := 0
  /-- R306: counters, 32 bits. -/
  fulls : Word := 0
  fasts : Word := 0
  upAt : Sf := 0
  /-- R295: positions admitted. -/
  admitted : Nat := 0
  /-- R304: the link was up or in the named state before C3, freeze or ZR400. -/
  before : Option LinkSt := none
  lanes : List Lane := List.replicate 16 {}
  ports : List Port := []
  deriving DecidableEq, Repr

/-- Reference input states (R310). -/
inductive RefSt where
  | disabled | failed | soaking | qualified
  deriving DecidableEq, Repr

/-- A reference input (R308 to R314). -/
structure RefIn where
  num : Nat
  prio : Nat := 0xFF
  freq : Nat := 0
  tol : Nat := 46
  driftLim : Nat := 100
  offLim : Nat := 50
  st : RefSt := .disabled
  cause : Nat := 0
  offset : Int := 0
  drift : Int := 0
  soakFrom : Option Sf := none
  /-- R313: the offset soak's start, in nanoseconds of the resonator outside freeze. -/
  overFrom : Option Nat := none
  failures : Word := 0
  dref : Bool := false
  /-- R311: the input has been enabled or restarted and not yet evaluated. -/
  first : Bool := false
  /-- R310, R312: hardware has seen the activity lost, or a pulse out of form, since the last evaluation. -/
  inactive : Bool := false
  badForm : Bool := false
  deriving DecidableEq, Repr

/-- A recovered-clock output (R326). -/
structure ClkOut where
  source : Nat := 0
  lane : Nat := 0
  freq : Nat := 0
  squelch : Bool := false
  /-- R326: the output is held low after a configuration until the resonator's count reaches this. -/
  lowTo : Nat := 0
  deriving DecidableEq, Repr

/-- A time-of-day anchor (R98, R323). -/
structure Anchor where
  secs : Sf
  ns : Nat
  lts : Lts
  deriving DecidableEq, Repr

/-- System clock states (R319). -/
inductive ClkSt where
  | freerun | locking | locked | holdover
  deriving DecidableEq, Repr

/-- References (chapter 12). -/
structure Ref where
  /-- R308: the inputs, numbers 0 to 4 and 16 to 31. -/
  inputs : List RefIn :=
    ([0, 1, 2, 3, 4] ++ (List.range 16).map (· + 16)).map fun k => { num := k }
  /-- R319: clock state. [DC 6] -/
  clk : ClkSt := .freerun
  sel : Option Nat := none
  /-- R315: selection mode, MANUAL input, revertive. -/
  mode : Nat := 0
  manual : Nat := 0
  revertive : Bool := true
  /-- R314: holdover memory, ppt, its validity, the LOCKED seconds it covers. [DC 6] -/
  mem : Int := 0
  memValid : Bool := false
  /-- R314: what the memory has learned, newest first: nanoseconds LOCKED and the clock's offset from the resonator, ppt,
  of the most recent 3,600 s. -/
  memHist : List (Nat × Int) := []
  /-- R314, R366: the resonator's count at which the oven was last ready after a restart. -/
  ovenFrom : Option Nat := none
  /-- R315: the host has changed the selection since the last evaluation. -/
  hostSel : Bool := false
  /-- R377: the resonator's calibrated frequency, ppt of nominal. [DC 6] -/
  calFreq : Int := 0
  /-- R319: clock offset from the resonator, and its slew target, ppt. [DC 6] -/
  off : Int := 0
  target : Int := 0
  toState : ClkSt := .freerun
  /-- R312: the loop's control word is frozen. -/
  frozenWord : Bool := false
  lastSwitch : Sf := 0
  /-- R319: when the slew in progress started; R314: when the last evaluation was made; both in nanoseconds of the resonator
  outside freeze. -/
  slewFrom : Nat := 0
  evalAt : Nat := 0
  /-- R377: the warden's count when the clock was last LOCKED, and when the calibrated frequency was last set. -/
  lockedFrom : Nat := 0
  calAt : Nat := 0
  /-- R377: offset times time, and time, of REFA or REFB while selected and LOCKED: in ppt and nanoseconds. -/
  calSum : Int := 0
  calTime : Nat := 0
  /-- R317: pairs in disagreement, and the runs of evaluations. -/
  disagree : List (Nat × Nat) := []
  runs : List (Nat × Nat × Nat) := []
  out0 : ClkOut := {}
  out1 : ClkOut := {}
  /-- R324, R325: PPSOUT. -/
  ppsMode : Nat := 0
  ppsInput : Nat := 2
  ppsOffset : Int := 0
  ppsWidthUs : Nat := 100000
  ppsFirst : Bool := true
  ppsErrRun : Nat := 0
  ppsEdges : Nat := 0
  /-- R324: mode 1: the whole second, less OFFSET, in which PPSOUT stands. -/
  ppsSec : Int := 0
  ppsAnchor : Bool := false
  /-- R98: the anchor in force; none takes 00:00:00 at LTS 0. -/
  anchor : Option Anchor := none
  /-- R98: the anchor carried forward to the last change of symbol rate, from which time of day is projected. -/
  proj : Option Anchor := none
  /-- R323: anchors waiting for a pulse edge: the command, the pulse input, seconds, nanoseconds, the warden's count when it was
  taken, and whether it ran late. -/
  todWait : List (Hdr × Nat × Sf × Nat × Nat × Bool) := []
  /-- R322: latest stamps of PPSA and PPSB. [DC 6] -/
  stampA : Lts := ⟨0, 0⟩
  stampB : Lts := ⟨0, 0⟩
  deriving DecidableEq, Repr

/-- What the record in progress has gathered (R340, R341). -/
structure HistAcc where
  /-- R340: the projected millisecond that the record covers, counted from the anchor's epoch. -/
  ms : Int := 0
  first : Option Lts := none
  nin : Nat := 0
  nvalid : Nat := 0
  s1 : Int := 0
  s2 : Int := 0
  s3 : Int := 0
  /-- R341: the states of polarisation gathered, for EXCURSION. -/
  sops : List (Int × Int × Int) := []
  rot : Nat := 0
  phase : Int := 0
  phMin : Int := 0
  phMax : Int := 0
  dgd : Nat := 0
  dgdPeak : Nat := 0
  triggers : Nat := 0
  partial_ : Bool := false
  track : Bool := true
  captured : Bool := false
  todStep : Bool := false
  disturbed : Nat := 0
  slipX : Nat := 0
  slipY : Nat := 0
  cw : Nat := 0
  unc : Nat := 0
  deriving DecidableEq, Repr

/-- A merge-buffer entry (R334): word address, its bytes with those written. -/
structure Merge where
  word : Nat
  bytes : List (Option Byte)
  deriving DecidableEq, Repr

/-- A run of sensing samples at one output rate: its first number, that sample's projected time of day in nanoseconds and
LTS, the output rate in Hz and the symbol rate in kBd (R343, R350). -/
structure SenseSeg where
  n : Nat
  tod : Int
  lts : Lts
  hz : Nat
  rate : Nat
  deriving DecidableEq, Repr

/-- A cruiser lap (R338). -/
structure Lap where
  num : Nat := 0
  start : Sf := 0
  end_ : Sf := 0
  checked : Nat := 0
  skipped : Nat := 0
  corrections : Nat := 0
  repairs : Nat := 0
  poisoned : Nat := 0
  boosts : Nat := 0
  paused : Nat := 0
  deriving DecidableEq, Repr

/-- The history store and sensing (chapter 13). -/
structure Hs where
  /-- R330: contents of the store, bytes by address. -/
  mem : List Host.Cell := []
  /-- R332: word addresses whose valid bit is set, rising. -/
  valid : List Nat := []
  /-- R339: poisoned pages, and the list-full flag. -/
  poison : List Nat := []
  poisonFull : Bool := false
  /-- R334: merge buffer, most recently used first, at most 16 entries. -/
  merge : List Merge := []
  /-- R342: the host has not stopped recording; R33 step 7 has started it. -/
  wanted : Bool := true
  started : Bool := false
  /-- R340: SEQ of the record in progress, and the first SEQ held since an initialisation. -/
  seq : Nat := 0
  firstSeq : Nat := 0
  gap : Bool := false
  acc : HistAcc := {}
  /-- R343: f_out code, stages, outputs still invalid, next sample number. -/
  rate : Nat := 0
  stages : Nat := 0
  senseInvalid : Nat := 0
  sampleN : Nat := 0
  firstSample : Nat := 0
  senseGap : Bool := false
  senseTrig : Bool := false
  /-- R344: inputs since the last one with VALID = 0 or reset. -/
  lastGood : Nat := 0
  /-- R345: where runs of evenly spaced samples begin, newest first, and whether the next sample begins one. -/
  senseSegs : List SenseSeg := []
  senseNew : Bool := true
  /-- R343: the place of the last output, in multiples of 1/f_out of projected time of day. -/
  senseIdx : Int := 0
  /-- R346: triggers. -/
  trigRate : Bool := false
  trigExc : Bool := false
  trigM : Nat := 8
  trigAction : Nat := 0
  rateThr : Nat := 500
  excThr : Nat := 500
  rateRun : Nat := 0
  excRun : Nat := 0
  rateFired : Bool := false
  excFired : Bool := false
  rateFirst : Lts := ⟨0, 0⟩
  excFirst : Lts := ⟨0, 0⟩
  rateNoted : Option Sf := none
  excNoted : Option Sf := none
  rateHeld : Nat := 0
  excHeld : Nat := 0
  rotPeak : Nat := 0
  /-- R346: the states of polarisation of the last 16 inputs, newest first, and the mean of the last completed record. -/
  sops : List (Int × Int × Int) := []
  lastMean : Option (Int × Int × Int) := none
  /-- R347: slot states, 256. -/
  slots : List Nat := List.replicate 256 0
  /-- R347: buffer: 0 free, 1 filling, 2 copying; its slot and header. -/
  capSt : Nat := 0
  capSlot : Nat := 0
  capCause : Nat := 0
  capAt : Lts := ⟨0, 0⟩
  capTrig : Lts := ⟨0, 0⟩
  capFlags : Nat := 0
  capGains : Nat × Nat := (0, 0)
  /-- R138: over-range bursts since the capture began: channel, stamp, samples. -/
  capOver : List (BitVec 2 × Lts × Nat) := []
  capBuf : List Byte := []
  capArmed : Bool := false
  /-- R347: capture order of COMPLETE slots, oldest first; headers by slot (R348). -/
  capOrder : List Nat := []
  headers : List (Nat × List Byte) := []
  missed : Word := 0
  overwrite : Bool := false
  /-- R337: cruiser. -/
  minRate : Nat := 128
  notifyLap : Bool := false
  cruisePage : Nat := 0
  winFrom : Sf := 0
  winChecked : Nat := 0
  boosted : Bool := false
  lap : Lap := {}
  lastLap : Lap := {}
  /-- R332: regions being initialised, with the commands that asked. -/
  initing : List (Nat × Option (Hdr × Bool)) := []
  deriving DecidableEq, Repr

/-- A calibrated item of domains 2 to 5 (R378). -/
structure CalItem where
  count : Word := 0
  last : Sf := 0
  stale : Bool := false
  deriving DecidableEq, Repr

/-- A slice swap due in a slot (R379): channel, target, incoming slice (none for a calibration without a
swap), slot superframe. -/
structure Swap where
  ch : BitVec 2
  target : Nat
  incoming : Option Nat
  slot : Sf
  deriving DecidableEq, Repr

/-- Calibration (R377 to R381). -/
structure Cal where
  /-- R379: rotations and the open slot's swaps. -/
  adcRot : BitVec 2 := 0
  dacRot : BitVec 2 := 0
  adcSwap : Option Swap := none
  dacSwap : Option Swap := none
  /-- R379: the slices in CALIB, with the superframe at which calibration began. -/
  adcCal : Option (BitVec 2 × Nat × Sf) := none
  dacCal : Option (BitVec 2 × Nat × Sf) := none
  /-- R381: calibrations to restart without a swap. -/
  adcRedo : Bool := false
  dacRedo : Bool := false
  lastSlot : Sf := 0
  /-- R380: slots skipped, ADC and DAC. -/
  adcSkipped : Nat := 0
  dacSkipped : Nat := 0
  /-- R402: slices the host asked for. -/
  asked : List (Conv × BitVec 2 × Nat) := []
  /-- R378: STALE and NOTIFY of domains 0 to 5. -/
  stale : List Nat := [4, 4, 4, 4, 4, 0]
  notify : List Bool := [false, false, false, false, false, false]
  /-- R377: items of domains 2, 3, 4 and 5. -/
  items : List (List CalItem) :=
    [List.replicate 2 {}, List.replicate 4 {}, List.replicate 32 {}, List.replicate 1 {}]
  deriving DecidableEq, Repr

/-- A monitor channel's setting (R383, R384). -/
structure MonCh where
  ref : Nat := 1
  range : Nat := 0
  override : Bool := false
  offset : Int := 0
  gain : Nat := 32768
  settle : Nat := 0
  deriving DecidableEq, Repr

/-- The default references of R382. -/
def monDefaultRef (ch : Nat) : Nat :=
  if ch = 28 then 2
  else if ch = 9 ∨ ch = 10 ∨ ch = 11 ∨ ch = 12 ∨ ch = 13 ∨ ch = 29 ∨ ch = 30 then 0 else 1

/-- The monitor converter (R382 to R386). -/
structure Mon where
  chans : List MonCh := (List.range 32).map fun k => { ref := monDefaultRef k }
  /-- R385: host mode, mask, table of (channel, repeats, delay). -/
  legacy : Bool := false
  mask : Word := 0
  table : List (Nat × Nat × Nat) := []
  tablePos : Nat := 0
  tableRep : Nat := 0
  /-- R385: microseconds of an entry's delay still to pass. -/
  tableWait : Nat := 0
  /-- R383: conversions until the reference has settled. -/
  refWait : Nat := 0
  hostPos : Nat := 0
  sysPos : Nat := 0
  hostTurn : Bool := false
  lastRef : Nat := 1
  settleNext : Bool := false
  /-- R385: latest result of every channel, FIFO of 1,024, overflow. -/
  latest : List (List Byte) := List.replicate 32 (List.replicate 16 0)
  fifo : List (List Byte) := []
  overflow : Bool := false
  deriving DecidableEq, Repr

/-- An interval bin of a tally (R387, R389). -/
structure Bin where
  value : Nat := 0
  sum : Int := 0
  min : Int := 0
  max : Int := 0
  samples : Nat := 0
  invalid : Bool := false
  incomplete : Nat := 0
  start : Sf := 0
  deriving DecidableEq, Repr

/-- A tally (R387). -/
structure Tally where
  id : Nat
  cum : Nat := 0
  cumInvalid : Bool := false
  /-- R389: the block counter's value at the last gather. -/
  seen : Nat := 0
  cur15 : Bin := {}
  prev15 : List Bin := []
  cur24 : Bin := {}
  prev24 : List Bin := []
  deriving DecidableEq, Repr

/-- R388: the identifiers of the tallies. -/
def tallyIds : List Nat :=
  [0x0401, 0x0402, 0x0403, 0x0501, 0x0601, 0x0602, 0x0603, 0x0604] ++ (List.range 8).map (· + 0x0710)
    ++ (List.range 120).map (· + 0x0800) ++ (List.range 24).map (· + 0x0900) ++ [0x0A01, 0x0C01, 0x0C02]
    ++ (List.range 64).map (· + 0x0C40)

/-- Tallies, blazes and the ageing monitor (R387 to R396). -/
structure Health where
  tallies : List Tally := tallyIds.map fun k => { id := k }
  /-- R99: causes gathered for the running intervals, bits in the order of R99. -/
  cause15 : Nat := 0
  cause24 : Nat := 0
  lastCause24 : Nat := 0
  start15 : Sf := 0
  start24 : Sf := 0
  /-- R387: the superframe at whose start the tallies were last gathered. -/
  gathered : Option Sf := none
  swaps : Nat := 0
  /-- R392: blazes. -/
  blazePeriod : Nat := 16
  blazeKinds : Nat := 3
  blazeNext : Nat := 0
  /-- R392: the periods, counted from 1, in which a codeword and an instruction were last picked. -/
  blazeCw : Nat := 0
  blazeIns : Nat := 0
  /-- R339: a page of WORK with records of the ring has been lost. -/
  blazeDamaged : Bool := false
  blazes : List (Nat × List Byte) := []
  /-- R393: equivalent age, in 2^-32 s, kept in flash. [DC 7] -/
  age : Nat := 0
  agePaused : Bool := true
  /-- R394: a 24-hour boundary whose points the monitor has not recorded. -/
  dayDue : Bool := false
  /-- R393: the system scan has run throughout the pause. -/
  ageScan : Bool := false
  /-- R394: EOL_MARGIN, NOTIFY, recorded points (age, metric values, complete), newest first. -/
  eolMargin : Nat := 50
  ageNotify : Bool := true
  points : List (Nat × List Int × Bool) := []
  dayAf : List Nat := []
  /-- R395: core offset in 5 mV steps; the rail's offset in mV when the step last changed and the superframe of that; warden clock in
  MHz; least slack of the day and the last reading that no step has used, in units of 0.5 ps. -/
  coreOffset : Nat := 0
  coreMv : Nat := 0
  coreAt : Sf := 0
  clockMhz : Nat := 1000
  slack : Option Int := none
  slackNow : Option Int := none
  emergency : Bool := false
  /-- R396: days ahead at which AGE_WARN was last raised per metric, and the 36-year warning. -/
  warned : List (Option Nat) := List.replicate 8 none
  warned36 : Bool := false
  deriving DecidableEq, Repr

/-- Freeze and the test access (R397 to R403). -/
structure Dbg where
  frozen : Bool := false
  sources : BitVec 4 := 0
  at_ : Lts := ⟨0, 0⟩
  /-- R400: extended AON_TIMER count at which freeze began. -/
  from_ : Nat := 0
  armed : Option FreezeTrig := none
  delay : Nat := 0
  /-- R397: when the armed trigger's event came; its delay runs from there. -/
  trip : Option Lts := none
  /-- R198: the output was LIT when freeze began. -/
  wasLit : Bool := false
  /-- R401: instruction register (IDCODE after test-logic reset), chain, boundary cells, last bits shifted out. -/
  ir : Byte := 0x01
  chain : Byte := 0
  cells : List Bool := []
  tdo : List Bool := []
  extest : Bool := false
  deriving DecidableEq, Repr

/-- A log entry (R81). -/
structure LogEntry where
  seq : Sf
  source : Half
  boot : Word
  aont : Word
  lts : Lts
  sev : Nat
  code : Half
  data : List Byte
  deriving DecidableEq, Repr

/-- Flash, firmware and log (R72 to R83). -/
structure Flash where
  /-- R72: contents of the flash by byte address over all regions. -/
  mem : List Host.Cell := []
  /-- R76: spare blocks, retired blocks, erase counts by block (others 0). [DC 7] -/
  spare : Nat := 1208
  retired : Nat := 0
  erases : List (Nat × Nat) := []
  reads : List (Nat × Nat) := []
  retiredBlocks : List Nat := []
  patrol : Nat := 0
  /-- R75: blocks retired when no spare was left. -/
  lostBlocks : List Nat := []
  /-- R75: blocks marked bad at the factory, which are never used. [DC 7] -/
  factory : List Nat := []
  /-- R74: the always-on count at which a block's oldest page was written (others 0). [DC 7] -/
  dates : List (Nat × Nat) := []
  /-- R82: entries written to the LOG region since manufacture, its place in the ring. [DC 7] -/
  logCount : Nat := 0
  /-- R79: pages of the image being staged, with the bytes each has. -/
  staged : List (Nat × Nat) := []
  sparesSaid : Bool := false
  /-- R77: the images of slots A and B. [DC 7] -/
  imgA : Option Image := some ⟨0x00000302, 0, 2, true, true⟩
  imgB : Option Image := none
  committed : Bool := false
  /-- R79: a trial image runs; an activation waits for READY. -/
  trialRuns : Bool := false
  awaiting : Bool := false
  /-- R17, R79: the warden's clock at that activation. -/
  awaitFrom : Nat := 0
  wardenOnly : Bool := false
  /-- R79, R428: the warden has been stopped on its own, and its boot ROM has not run yet. -/
  bootDue : Bool := false
  /-- R82: entries in LOGSTAGE and in the LOG region, oldest first. -/
  stage : List LogEntry := []
  log : List LogEntry := []
  nextSeq : Sf := 0
  lostErrs : Nat := 0
  /-- R81, R339: SEQs of entries whose CHECK fails. -/
  badChecks : List Nat := []
  deriving DecidableEq, Repr

/-- Parameters of a check-value profile (R68). -/
structure CvParams where
  width : Nat
  poly : Nat
  init : Nat
  refIn : Bool
  refOut : Bool
  xorOut : Nat
  deriving DecidableEq, Repr

/-- A host check-value context (R70, R431). -/
structure CvCtx where
  job : Bool := false
  profile : Nat := 0
  rem : Nat := 0
  bytes : Nat := 0
  deriving DecidableEq, Repr

/-- A job of the check-value unit (R69): the command that asked, and whether it ran late. -/
structure CvJob where
  cmd : Instr
  late : Bool
  deriving DecidableEq, Repr

/-- The check-value unit (R68 to R71). -/
structure Cv where
  /-- R432: CVP3, as CVP0 at every warden start. -/
  p3 : CvParams := ⟨32, 0x04C11DB7, 0xFFFFFFFF, true, true, 0xFFFFFFFF⟩
  /-- R69: the eight contexts; CX6 and CX7 are the warden's. -/
  ctx : List CvCtx := List.replicate 8 ⟨false, 0, 0, 0⟩
  /-- R69: jobs waiting and running, the first is the one that runs. -/
  jobs : List CvJob := []
  /-- R71: the tables that CV.SCAN has recorded in WORK: first address and bytes; R339: a page of one has been lost. -/
  tables : List (Nat × Nat) := []
  damaged : Bool := false
  deriving DecidableEq, Repr

/-- A sedge engine task's schedule (R106, R107). -/
structure TaskSt where
  task : Task
  anchor : Sf := 0
  period : Nat
  n : Nat := 0
  start : Sf := 0
  running : Bool := false
  next : Sf := 0
  skipped : Word := 0
  /-- R26: engines of the task are halted; the task is not run. -/
  halted : Bool := false
  deriving DecidableEq, Repr

/-- The sedge engines (R22 to R26). -/
structure Sedge where
  /-- R22: the tasks with their nominal periods. -/
  tasks : List TaskSt :=
    [{ task := .eqSupervision, period := 1 }, { task := .bias, period := 16 }, { task := .laser, period := 64 },
     { task := .calibration, period := 1024 }, { task := .tallies, period := 1 }, { task := .estimation, period := 256 },
     { task := .framing, period := 1 }, { task := .references, period := 16 }, { task := .power, period := 1 }]
  /-- R26: halted engines with the superframe of the halt. -/
  halted : List (Nat × Sf) := []
  /-- R391: blaze seeds drawn at the loads. [DC 6] -/
  seeds : List (Nat × Word) := []
  deriving DecidableEq, Repr

/-- The whole block: the queue of waiting commands and every piece of state the spec gives the module. -/
structure State where
  pending : List Instr := []
  ident : Ident := {}
  time : Time := {}
  pins : Pins := {}
  hif : Hif := {}
  aon : Aon := {}
  /-- R38: bytes of the command queues, response and notification queues and staging buffers, by window
  offset; an unlisted byte reads zero. [DC 16] -/
  win : List Host.Cell := []
  q : Queues := {}
  reply : Reply := {}
  pwr : Pwr := {}
  line : Line := {}
  fe : Fe := {}
  eq : Eq := {}
  tx : Tx := {}
  fec : Fec := {}
  tf : Tf := {}
  /-- R238: the tributaries, at most 24. -/
  tribs : List Trib := []
  ciph : Ciph := {}
  /-- R276: the 16 memory-mode contexts. -/
  mm : List MmCtx := List.replicate 16 {}
  hl : Hl := {}
  ref : Ref := {}
  hs : Hs := {}
  cal : Cal := {}
  mon : Mon := {}
  health : Health := {}
  dbg : Dbg := {}
  flash : Flash := {}
  cv : Cv := {}
  sedge : Sedge := {}
  deriving DecidableEq, Repr

/-- The machine right after reset: VSB33 has just been applied (R10, R51), the sequencer is at step 1 of the
cold start (R33), memory lists nothing. -/
def State.reset : State := {}

/-- What a command answers. -/
abbrev Out := Host.Outcome State Fault Refusal

end Sys2Proof.Machine
end

