-- ==== Sys2Proof/Machine/Bytes.lean ====
section
/-! DEFINITION. Byte lists and byte memories: little- and big-endian numbers (R15), named fields of a
64-byte entry, and the one canonical form of a sparse memory. -/
namespace Sys2Proof.Machine

open Sys2Proof

/-- The `n` low bytes of `v`, least significant first (R15). -/
def leBytes : Nat → Nat → List Byte
  | 0, _ => []
  | n + 1, v => BitVec.ofNat 8 v :: leBytes n (v / 256)

/-- The number that bytes spell, least significant first. -/
def leNat : List Byte → Nat
  | [] => 0
  | b :: t => b.toNat + 256 * leNat t

/-- The `n` low bytes of `v`, most significant first: line formats (chapter 9). -/
def beBytes (n v : Nat) : List Byte := (leBytes n v).reverse

def beNat (bs : List Byte) : Nat := leNat bs.reverse

/-- Byte `i` of an entry; zero past its end. -/
def byteAt (bs : List Byte) (i : Nat) : Byte := bs.getD i 0

/-- Bytes `i` to `i + n - 1` of an entry. -/
def slice (bs : List Byte) (i n : Nat) : List Byte := (List.range n).map fun k => byteAt bs (i + k)

/-- The little-endian number in bytes `i` to `i + n - 1`. -/
def fieldAt (bs : List Byte) (i n : Nat) : Nat := leNat (slice bs i n)

/-- A list cut or filled with zeros to `n` bytes. -/
def padTo (n : Nat) (bs : List Byte) : List Byte := slice bs 0 n

/-- An integer in `n` bytes of two's complement. -/
def intBytes (n : Nat) (v : Int) : List Byte := leBytes n (v % (2 : Int) ^ (8 * n)).toNat

/-- The signed value of a 16-bit field. -/
def s16 (v : Half) : Int := v.toInt

/-- The signed value of a 32-bit field. -/
def s32 (v : Word) : Int := v.toInt

def boolBit (b : Bool) (i : Nat) : Nat := if b then 2 ^ i else 0

def boolByte (b : Bool) : Byte := if b then 1 else 0

/-- A byte list of `n` bytes from fields (offset, bytes), counted from offset `base`; unnamed bytes zero. -/
def layout (base n : Nat) (fs : List (Nat × List Byte)) : List Byte :=
  (List.range n).map fun k =>
    match fs.find? fun f => decide (f.1 ≤ k + base) && decide (k + base < f.1 + f.2.length) with
    | some f => byteAt f.2 (k + base - f.1)
    | none => 0

/-- Bytes 16 to 63 of a response from the fields of its command card (R62). -/
def result (fs : List (Nat × List Byte)) : List Byte := layout 16 48 fs

/-- Bytes 20 to 63 of a notification from the fields of its event (R63). -/
def eventData (fs : List (Nat × List Byte)) : List Byte := layout 20 44 fs

/-- The bits of a byte, most significant first. -/
def bitsMsb (b : Byte) : List Bool := (List.range 8).map fun i => b.getLsbD (7 - i)

/-- The bits of bytes, most significant of each byte first. -/
def bitsOf (bs : List Byte) : List Bool := bs.flatMap bitsMsb

/-- `n` bytes from bits, most significant first. -/
def bytesOfBits : Nat → List Bool → List Byte
  | 0, _ => []
  | n + 1, bs => BitVec.ofNat 8 ((bs.take 8).foldl (fun a b => 2 * a + b.toNat) 0) :: bytesOfBits n (bs.drop 8)

/-- A number from bits, first bit most significant. -/
def natOfBits (bs : List Bool) : Nat := bs.foldl (fun a b => 2 * a + b.toNat) 0

/-- A number from bits, first bit least significant. -/
def natOfBitsLsb : List Bool → Nat
  | [] => 0
  | b :: t => b.toNat + 2 * natOfBitsLsb t

/-! ### Sparse memories: rising addresses, no entry equal to what an unlisted address reads as. -/

/-- The byte at an address; `d` where nothing is listed. -/
def memRead (d : Byte) : List Host.Cell → Nat → Byte
  | [], _ => d
  | c :: t, a => if c.1 = a then c.2 else if a < c.1 then d else memRead d t a

/-- Writing a byte; writing `d` removes the entry. -/
def memWrite (d : Byte) : List Host.Cell → Nat → Byte → List Host.Cell
  | [], a, b => if b = d then [] else [(a, b)]
  | c :: t, a, b =>
    if c.1 = a then (if b = d then t else (a, b) :: t)
    else if a < c.1 then (if b = d then c :: t else (a, b) :: c :: t)
    else c :: memWrite d t a b

/-- The canonical form from a lower bound of addresses on. -/
def memWfFrom (d : Byte) : Nat → List Host.Cell → Bool
  | _, [] => true
  | lo, c :: t => decide (lo ≤ c.1) && decide (c.2 ≠ d) && memWfFrom d (c.1 + 1) t

/-- Addresses strictly rising, no entry equal to what an unlisted address reads as. -/
def memWf (d : Byte) (m : List Host.Cell) : Bool := memWfFrom d 0 m

def memReadN (d : Byte) (m : List Host.Cell) (a : Nat) : Nat → List Byte
  | 0 => []
  | n + 1 => memRead d m a :: memReadN d m (a + 1) n

def memWriteN (d : Byte) (m : List Host.Cell) (a : Nat) : List Byte → List Host.Cell
  | [] => m
  | b :: t => memWriteN d (memWrite d m a b) (a + 1) t

/-- A number put into a rising list without repeats. -/
def insertNat : List Nat → Nat → List Nat
  | [], a => [a]
  | c :: t, a => if c = a then c :: t else if a < c then a :: c :: t else c :: insertNat t a

/-- Replaces the element at an index; out of range changes nothing. -/
def setAt {α : Type} (l : List α) (i : Nat) (x : α) : List α := l.set i x

/-- Changes the element at an index. -/
def modAt {α : Type} (l : List α) (i : Nat) (f : α → α) : List α :=
  match l[i]? with
  | some x => l.set i (f x)
  | none => l

/-! ### Sets of stamps: rising disjoint half-open intervals -/

/-- The interval from `a` to `b` joins a set. -/
def spanAdd (a b : Nat) : List (Nat × Nat) → List (Nat × Nat)
  | [] => [(a, b)]
  | (c, d) :: t =>
    if b < c then (a, b) :: (c, d) :: t
    else if d < a then (c, d) :: spanAdd a b t
    else spanAdd (min a c) (max b d) t

/-- How many stamps of a set lie from `a` to `b`. -/
def spanWithin (a b : Nat) (l : List (Nat × Nat)) : Nat :=
  l.foldl (fun n x => n + (min b x.2 - max a x.1)) 0

/-- A stamp from `a` to `b` belongs to a set. -/
def spanHits (a b : Nat) (l : List (Nat × Nat)) : Bool := l.any fun x => decide (x.1 < b) && decide (a < x.2)

/-- What of a set lies at or after `a`. -/
def spanFrom (a : Nat) (l : List (Nat × Nat)) : List (Nat × Nat) := l.filter fun x => decide (a < x.2)

/-- Saturating 32-bit addition (R108). -/
def sat32 (n : Nat) : Nat := if n > 0xFFFFFFFF then 0xFFFFFFFF else n

end Sys2Proof.Machine
end

