-- ==== Sys2Proof/Decode.lean ====
section
/-! DEFINITION. The command descriptor of R59: its header, its opcode and the request fields of every command card, and
the table's words (the table gives no row any bits). -/
namespace Sys2Proof

open Sys2Proof.Machine

/-- The command that a word of the opcode table's bits spells: no row of the table has bits, so none. -/
def decodeTableWord (_nbits _w : Nat) : Option Instr := none

def half (bs : List Byte) (i : Nat) : Half := BitVec.ofNat 16 (fieldAt bs i 2)

def word (bs : List Byte) (i : Nat) : Word := BitVec.ofNat 32 (fieldAt bs i 4)

def dword (bs : List Byte) (i : Nat) : Dword := BitVec.ofNat 64 (fieldAt bs i 8)

def sf48 (bs : List Byte) (i : Nat) : Sf := BitVec.ofNat 48 (fieldAt bs i 6)

def sym24 (bs : List Byte) (i : Nat) : Sym := BitVec.ofNat 24 (fieldAt bs i 3)

/-- LINE.MODE_SET bytes 18 to 25 (R121). -/
def flexOf (bs : List Byte) : FlexReq := ⟨byteAt bs 18, byteAt bs 19, word bs 20, half bs 24⟩

/-- R59: OPCODE. -/
def descOpcode (bs : List Byte) : Nat := fieldAt bs 0 2

/-- R59: the header of a descriptor taken from a queue. -/
def descHdr (q : BitVec 2) (bs : List Byte) : Hdr :=
  let f := half bs 4
  { queue := q, tag := half bs 2, sched := f.getLsbD 0, quiet := f.getLsbD 1, buf := f.getLsbD 2,
    bufIdx := f.extractLsb' 4 2, length := half bs 6,
    execAt := ⟨sf48 bs 8, BitVec.ofNat 24 (fieldAt bs 14 2 * 256)⟩ }

/-- R59: the reserved bits of FLAGS are zero. -/
def descReserved (bs : List Byte) : Bool := decide (half bs 4 &&& 0xFFC8 = 0)

/-- R59: LENGTH is zero when BUF is clear, 1 to 4,096 otherwise. -/
def descLength (bs : List Byte) : Bool :=
  let n := fieldAt bs 6 2
  if (half bs 4).getLsbD 2 then decide (1 ≤ n) && decide (n ≤ 4096) else decide (n = 0)

/-- The command of an opcode with the request fields of its card, and the bytes of PARAMS that the card uses; none for an
opcode that Naith 3.2 does not define (R59, R66). -/
def commandCard (h : Hdr) (bs : List Byte) : Option (Instr × List (Nat × Nat)) :=
  match descOpcode bs with
  | 0x0101 => some (.sysIdentify h, [])
  | 0x0102 => some (.sysCancel h (half bs 16), [(16, 2)])
  | 0x0E01 => some (.cvConfig h (byteAt bs 16) (byteAt bs 17) (byteAt bs 18) (dword bs 24) (dword bs 32) (dword bs
      40), [(16, 1), (17, 1), (18, 1), (24, 8), (32, 8), (40, 8)])
  | 0x0E02 => some (.cvRun h (byteAt bs 16) (byteAt bs 17) (byteAt bs 18) (byteAt bs 19) (byteAt bs 20) (dword bs 24)
      (word bs 32), [(16, 1), (17, 1), (18, 1), (19, 1), (20, 1), (24, 8), (32, 4)])
  | 0x0E03 => some (.cvCtxRead h (byteAt bs 16), [(16, 1)])
  | 0x0E04 => some (.cvCtxWrite h (byteAt bs 16), [(16, 1)])
  | 0x0E05 => some (.cvScan h (byteAt bs 16) (byteAt bs 17) (byteAt bs 18) (byteAt bs 19) (dword bs 24) (dword bs 32)
      (byteAt bs 40) (dword bs 48), [(16, 1), (17, 1), (18, 1), (19, 1), (24, 8), (32, 8), (40, 1), (48, 8)])
  | 0x0D20 => some (.flashStatus h, [])
  | 0x0D01 => some (.fwStage h (word bs 16), [(16, 4)])
  | 0x0D02 => some (.fwCommit h, [])
  | 0x0D03 => some (.fwActivate h (byteAt bs 16), [(16, 1)])
  | 0x0D04 => some (.fwConfirm h, [])
  | 0x0D10 => some (.logRead h (sf48 bs 16) (byteAt bs 22), [(16, 6), (22, 1)])
  | 0x0201 => some (.pwrStateSet h (byteAt bs 16), [(16, 1)])
  | 0x0202 => some (.pwrStatus h, [])
  | 0x0203 => some (.pwrVote h (byteAt bs 16), [(16, 1)])
  | 0x0204 => some (.pwrConfig h (half bs 16) (byteAt bs 18), [(16, 2), (18, 1)])
  | 0x0301 => some (.lineModeSet h (byteAt bs 16) (byteAt bs 17) (flexOf bs), [(16, 1), (17, 1), (18, 1), (19, 1),
      (20, 4), (24, 2)])
  | 0x0302 => some (.lineModeGet h, [])
  | 0x0303 => some (.lineFlexCheck h (flexOf bs), [(18, 1), (19, 1), (20, 4), (24, 2)])
  | 0x0440 => some (.feConfig h (byteAt bs 16) (half bs 18) (half bs 20) (byteAt bs 22) (half bs 24) (half bs 26)
      (byteAt bs 28), [(16, 1), (18, 2), (20, 2), (22, 1), (24, 2), (26, 2), (28, 1)])
  | 0x0441 => some (.feStatus h (byteAt bs 16), [(16, 1)])
  | 0x0442 => some (.feSlices h (byteAt bs 16), [(16, 1)])
  | 0x0443 => some (.feCoefSet h (byteAt bs 16) (byteAt bs 17) (word bs 20), [(16, 1), (17, 1), (20, 4)])
  | 0x0401 => some (.eqConfig h (byteAt bs 16) (byteAt bs 17) (byteAt bs 18) (byteAt bs 19) (word bs 20) (word bs 24)
      (half bs 28) (half bs 30), [(16, 1), (17, 1), (18, 1), (19, 1), (20, 4), (24, 4), (28, 2), (30, 2)])
  | 0x0402 => some (.eqStatus h, [])
  | 0x0403 => some (.eqEstimates h, [])
  | 0x0404 => some (.eqNlc h (byteAt bs 16) (half bs 18), [(16, 1), (18, 2)])
  | 0x0405 => some (.eqReacquire h (byteAt bs 16), [(16, 1)])
  | 0x0406 => some (.eqHold h (byteAt bs 16), [(16, 1)])
  | 0x0501 => some (.txLaser h (half bs 16) (half bs 18) (half bs 20) (byteAt bs 22), [(16, 2), (18, 2), (20, 2),
      (22, 1)])
  | 0x0502 => some (.txEnable h (byteAt bs 16), [(16, 1)])
  | 0x0503 => some (.txShaping h (byteAt bs 16) (byteAt bs 17) (byteAt bs 18) (word bs 20) (half bs 24) (byteAt bs
      26), [(16, 1), (17, 1), (18, 1), (20, 4), (24, 2), (26, 1)])
  | 0x0504 => some (.txStatus h, [])
  | 0x0505 => some (.txSafety h (byteAt bs 16) (half bs 18) (byteAt bs 20), [(16, 1), (18, 2), (20, 1)])
  | 0x0506 => some (.txSlices h (byteAt bs 16), [(16, 1)])
  | 0x0601 => some (.fecConfig h (half bs 16) (byteAt bs 18) (word bs 20), [(16, 2), (18, 1), (20, 4)])
  | 0x0602 => some (.fecStatus h, [])
  | 0x0603 => some (.fecCounters h (byteAt bs 16), [(16, 1)])
  | 0x0604 => some (.fecInject h (byteAt bs 16) (word bs 20), [(16, 1), (20, 4)])
  | 0x0701 => some (.tribDefine h (byteAt bs 16) (byteAt bs 17) (half bs 18) (byteAt bs 20), [(16, 1), (17, 1), (18,
      2), (20, 1)])
  | 0x0702 => some (.tribRemove h (byteAt bs 16), [(16, 1)])
  | 0x0703 => some (.tribStatus h (byteAt bs 16) (byteAt bs 17), [(16, 1), (17, 1)])
  | 0x0704 => some (.tfStatus h, [])
  | 0x0801 => some (.keyKekInfo h, [])
  | 0x0802 => some (.keyLoad h (byteAt bs 16), [(16, 1)])
  | 0x0803 => some (.keyErase h (byteAt bs 16) (byteAt bs 17), [(16, 1), (17, 1)])
  | 0x0804 => some (.keyAssign h (byteAt bs 16) (byteAt bs 17) (byteAt bs 18), [(16, 1), (17, 1), (18, 1)])
  | 0x0805 => some (.keyActivate h (byteAt bs 16), [(16, 1)])
  | 0x0806 => some (.keyStatus h (byteAt bs 16), [(16, 1)])
  | 0x0807 => some (.ciphTribStatus h (byteAt bs 16) (byteAt bs 17), [(16, 1), (17, 1)])
  | 0x0808 => some (.ciphSelftest h, [])
  | 0x0809 => some (.ciphTribMode h (byteAt bs 16) (byteAt bs 17), [(16, 1), (17, 1)])
  | 0x0820 => some (.mmRun h (byteAt bs 16) (byteAt bs 17) (byteAt bs 18) (byteAt bs 19) (byteAt bs 20) (byteAt bs
      21) (half bs 22) (slice bs 24 16) (slice bs 48 16), [(16, 1), (17, 1), (18, 1), (19, 1), (20, 1), (21, 1), (22,
      2), (24, 16), (48, 16)])
  | 0x0821 => some (.mmCtxSave h (byteAt bs 16) (byteAt bs 17), [(16, 1), (17, 1)])
  | 0x0822 => some (.mmCtxRestore h (byteAt bs 16), [(16, 1)])
  | 0x0823 => some (.mmRead h (byteAt bs 16) (byteAt bs 17) (dword bs 24), [(16, 1), (17, 1), (24, 8)])
  | 0x0901 => some (.hlConfig h (byteAt bs 16) (byteAt bs 17) (byteAt bs 18) (byteAt bs 19) (byteAt bs 20) (half bs
      22) (half bs 24), [(16, 1), (17, 1), (18, 1), (19, 1), (20, 1), (22, 2), (24, 2)])
  | 0x0902 => some (.hlStatus h, [])
  | 0x0903 => some (.hlLaneStatus h (byteAt bs 16), [(16, 1)])
  | 0x0904 => some (.hlPort h (byteAt bs 16) (byteAt bs 17), [(16, 1), (17, 1)])
  | 0x0905 => some (.hlPower h (byteAt bs 16), [(16, 1)])
  | 0x0906 => some (.hlLoopback h (byteAt bs 16) (half bs 18), [(16, 1), (18, 2)])
  | 0x0907 => some (.hlRetrain h (byteAt bs 16), [(16, 1)])
  | 0x0A01 => some (.refInputConfig h (byteAt bs 16) (byteAt bs 17) (byteAt bs 18) (half bs 20) (half bs 22) (half bs
      24), [(16, 1), (17, 1), (18, 1), (20, 2), (22, 2), (24, 2)])
  | 0x0A02 => some (.refSelect h (byteAt bs 16) (byteAt bs 17) (byteAt bs 18), [(16, 1), (17, 1), (18, 1)])
  | 0x0A03 => some (.refStatus h, [])
  | 0x0A04 => some (.refInputStatus h (byteAt bs 16), [(16, 1)])
  | 0x0A05 => some (.refOutputConfig h (byteAt bs 16) (byteAt bs 17) (byteAt bs 18) (byteAt bs 19) (byteAt bs 20),
      [(16, 1), (17, 1), (18, 1), (19, 1), (20, 1)])
  | 0x0A06 => some (.refPpsConfig h (byteAt bs 16) (byteAt bs 17) (word bs 20) (word bs 24), [(16, 1), (17, 1), (20,
      4), (24, 4)])
  | 0x0A07 => some (.refTodSet h (sf48 bs 16) (word bs 24) (byteAt bs 28) (sf48 bs 32) (sym24 bs 38), [(16, 6), (24,
      4), (28, 1), (32, 6), (38, 3)])
  | 0x0A08 => some (.refTodGet h, [])
  | 0x0B01 => some (.hsHistory h (byteAt bs 16), [(16, 1)])
  | 0x0B02 => some (.hsHistoryRead h (dword bs 16) (byteAt bs 24), [(16, 8), (24, 1)])
  | 0x0B03 => some (.hsSenseConfig h (byteAt bs 16), [(16, 1)])
  | 0x0B04 => some (.hsSenseRead h (dword bs 16) (half bs 24), [(16, 8), (24, 2)])
  | 0x0B05 => some (.hsTriggerConfig h (byteAt bs 16) (byteAt bs 17) (byteAt bs 18) (word bs 20) (half bs 24), [(16,
      1), (17, 1), (18, 1), (20, 4), (24, 2)])
  | 0x0B06 => some (.hsCaptureCmd h (byteAt bs 16) (byteAt bs 17), [(16, 1), (17, 1)])
  | 0x0B07 => some (.hsCaptureRead h (byteAt bs 16) (byteAt bs 17) (dword bs 24), [(16, 1), (17, 1), (24, 8)])
  | 0x0B08 => some (.hsCruiser h (half bs 16) (byteAt bs 18), [(16, 2), (18, 1)])
  | 0x0B09 => some (.hsStoreStatus h, [])
  | 0x0B0A => some (.hsRegionInit h (byteAt bs 16), [(16, 1)])
  | 0x0C01 => some (.calStatus h (byteAt bs 16) (half bs 17), [(16, 1), (17, 2)])
  | 0x0C02 => some (.calConfig h (byteAt bs 16) (byteAt bs 17) (byteAt bs 18), [(16, 1), (17, 1), (18, 1)])
  | 0x0C03 => some (.calRun h (byteAt bs 16) (half bs 17), [(16, 1), (17, 2)])
  | 0x0C10 => some (.monConfig h (byteAt bs 16) (word bs 20), [(16, 1), (20, 4)])
  | 0x0C11 => some (.monChannel h (byteAt bs 16) (byteAt bs 17) (byteAt bs 18) (byteAt bs 19) (half bs 20) (half bs
      22), [(16, 1), (17, 1), (18, 1), (19, 1), (20, 2), (22, 2)])
  | 0x0C12 => some (.monTable h (byteAt bs 16), [(16, 1)])
  | 0x0C13 => some (.monRead h (byteAt bs 16) (byteAt bs 17), [(16, 1), (17, 1)])
  | 0x0C20 => some (.ageReport h (byteAt bs 16), [(16, 1)])
  | 0x0C21 => some (.ageConfig h (half bs 16) (byteAt bs 18), [(16, 2), (18, 1)])
  | 0x0C30 => some (.tallyRead h (half bs 16) (byteAt bs 18), [(16, 2), (18, 1)])
  | 0x0C31 => some (.tallyClear h (half bs 16), [(16, 2)])
  | 0x0C40 => some (.blazeConfig h (half bs 16) (byteAt bs 18), [(16, 2), (18, 1)])
  | 0x0C41 => some (.blazeRead h (word bs 16) (byteAt bs 20), [(16, 4), (20, 1)])
  | 0x0F01 => some (.dbgFreezeCmd h (byteAt bs 16) (byteAt bs 17) (half bs 18), [(16, 1), (17, 1), (18, 2)])
  | 0x0F02 => some (.dbgRelease h, [])
  | 0x0F03 => some (.dbgStatus h, [])
  | _ => none

/-- R59: the bytes of PARAMS that a card does not use are zero (log entry 15). -/
def unusedClear (used : List (Nat × Nat)) (bs : List Byte) : Bool :=
  (List.range 48).all fun k =>
    decide (byteAt bs (16 + k) = 0) || used.any fun u => decide (u.1 ≤ 16 + k) && decide (16 + k < u.1 + u.2)

/-- What a descriptor asks for. -/
inductive Descriptor where
  /-- R59, R66: no command has this opcode. -/
  | unknown
  /-- R59: a reserved bit is set, or LENGTH is out of range. -/
  | malformed
  | command (i : Instr)
  deriving DecidableEq, Repr

/-- A 64-byte descriptor as the warden reads it (R59). -/
def decodeDescriptor (h : Hdr) (bs : List Byte) : Descriptor :=
  match commandCard h bs with
  | none => .unknown
  | some (i, used) =>
    if descReserved bs && descLength bs && unusedClear used bs then .command i else .malformed

/-- The opcode and the header of a mailbox command; none for an event. -/
def mailbox : Instr → Option (Nat × Hdr)
  | .sysIdentify h => some (0x0101, h)
  | .sysCancel h _ => some (0x0102, h)
  | .cvConfig h _ _ _ _ _ _ => some (0x0E01, h)
  | .cvRun h _ _ _ _ _ _ _ => some (0x0E02, h)
  | .cvCtxRead h _ => some (0x0E03, h)
  | .cvCtxWrite h _ => some (0x0E04, h)
  | .cvScan h _ _ _ _ _ _ _ _ => some (0x0E05, h)
  | .flashStatus h => some (0x0D20, h)
  | .fwStage h _ => some (0x0D01, h)
  | .fwCommit h => some (0x0D02, h)
  | .fwActivate h _ => some (0x0D03, h)
  | .fwConfirm h => some (0x0D04, h)
  | .logRead h _ _ => some (0x0D10, h)
  | .pwrStateSet h _ => some (0x0201, h)
  | .pwrStatus h => some (0x0202, h)
  | .pwrVote h _ => some (0x0203, h)
  | .pwrConfig h _ _ => some (0x0204, h)
  | .lineModeSet h _ _ _ => some (0x0301, h)
  | .lineModeGet h => some (0x0302, h)
  | .lineFlexCheck h _ => some (0x0303, h)
  | .feConfig h _ _ _ _ _ _ _ => some (0x0440, h)
  | .feStatus h _ => some (0x0441, h)
  | .feSlices h _ => some (0x0442, h)
  | .feCoefSet h _ _ _ => some (0x0443, h)
  | .eqConfig h _ _ _ _ _ _ _ _ => some (0x0401, h)
  | .eqStatus h => some (0x0402, h)
  | .eqEstimates h => some (0x0403, h)
  | .eqNlc h _ _ => some (0x0404, h)
  | .eqReacquire h _ => some (0x0405, h)
  | .eqHold h _ => some (0x0406, h)
  | .txLaser h _ _ _ _ => some (0x0501, h)
  | .txEnable h _ => some (0x0502, h)
  | .txShaping h _ _ _ _ _ _ => some (0x0503, h)
  | .txStatus h => some (0x0504, h)
  | .txSafety h _ _ _ => some (0x0505, h)
  | .txSlices h _ => some (0x0506, h)
  | .fecConfig h _ _ _ => some (0x0601, h)
  | .fecStatus h => some (0x0602, h)
  | .fecCounters h _ => some (0x0603, h)
  | .fecInject h _ _ => some (0x0604, h)
  | .tribDefine h _ _ _ _ => some (0x0701, h)
  | .tribRemove h _ => some (0x0702, h)
  | .tribStatus h _ _ => some (0x0703, h)
  | .tfStatus h => some (0x0704, h)
  | .keyKekInfo h => some (0x0801, h)
  | .keyLoad h _ => some (0x0802, h)
  | .keyErase h _ _ => some (0x0803, h)
  | .keyAssign h _ _ _ => some (0x0804, h)
  | .keyActivate h _ => some (0x0805, h)
  | .keyStatus h _ => some (0x0806, h)
  | .ciphTribStatus h _ _ => some (0x0807, h)
  | .ciphSelftest h => some (0x0808, h)
  | .ciphTribMode h _ _ => some (0x0809, h)
  | .mmRun h _ _ _ _ _ _ _ _ _ => some (0x0820, h)
  | .mmCtxSave h _ _ => some (0x0821, h)
  | .mmCtxRestore h _ => some (0x0822, h)
  | .mmRead h _ _ _ => some (0x0823, h)
  | .hlConfig h _ _ _ _ _ _ _ => some (0x0901, h)
  | .hlStatus h => some (0x0902, h)
  | .hlLaneStatus h _ => some (0x0903, h)
  | .hlPort h _ _ => some (0x0904, h)
  | .hlPower h _ => some (0x0905, h)
  | .hlLoopback h _ _ => some (0x0906, h)
  | .hlRetrain h _ => some (0x0907, h)
  | .refInputConfig h _ _ _ _ _ _ => some (0x0A01, h)
  | .refSelect h _ _ _ => some (0x0A02, h)
  | .refStatus h => some (0x0A03, h)
  | .refInputStatus h _ => some (0x0A04, h)
  | .refOutputConfig h _ _ _ _ _ => some (0x0A05, h)
  | .refPpsConfig h _ _ _ _ => some (0x0A06, h)
  | .refTodSet h _ _ _ _ _ => some (0x0A07, h)
  | .refTodGet h => some (0x0A08, h)
  | .hsHistory h _ => some (0x0B01, h)
  | .hsHistoryRead h _ _ => some (0x0B02, h)
  | .hsSenseConfig h _ => some (0x0B03, h)
  | .hsSenseRead h _ _ => some (0x0B04, h)
  | .hsTriggerConfig h _ _ _ _ _ => some (0x0B05, h)
  | .hsCaptureCmd h _ _ => some (0x0B06, h)
  | .hsCaptureRead h _ _ _ => some (0x0B07, h)
  | .hsCruiser h _ _ => some (0x0B08, h)
  | .hsStoreStatus h => some (0x0B09, h)
  | .hsRegionInit h _ => some (0x0B0A, h)
  | .calStatus h _ _ => some (0x0C01, h)
  | .calConfig h _ _ _ => some (0x0C02, h)
  | .calRun h _ _ => some (0x0C03, h)
  | .monConfig h _ _ => some (0x0C10, h)
  | .monChannel h _ _ _ _ _ _ => some (0x0C11, h)
  | .monTable h _ => some (0x0C12, h)
  | .monRead h _ _ => some (0x0C13, h)
  | .ageReport h _ => some (0x0C20, h)
  | .ageConfig h _ _ => some (0x0C21, h)
  | .tallyRead h _ _ => some (0x0C30, h)
  | .tallyClear h _ => some (0x0C31, h)
  | .blazeConfig h _ _ => some (0x0C40, h)
  | .blazeRead h _ _ => some (0x0C41, h)
  | .dbgFreezeCmd h _ _ _ => some (0x0F01, h)
  | .dbgRelease h => some (0x0F02, h)
  | .dbgStatus h => some (0x0F03, h)
  | _ => none

end Sys2Proof
end

