-- ==== Sys2Proof/Machine/Crc.lean ====
section
/-! DEFINITION. The check-value profiles of R68 and the bytes a context check covers (R442), computed bit by
bit as the profile parameters state, and the scramblers and generators of the line (R152, R221, R228, R290). -/
namespace Sys2Proof.Machine

open Sys2Proof

/-- The low `n` bits of `v`, reversed. -/
def reflect : Nat → Nat → Nat
  | 0, _ => 0
  | n + 1, v => (v % 2) * 2 ^ n + reflect n (v / 2)

/-- One bit of a remainder of width `w`: shift left, and subtract the polynomial on a carry. -/
def crcBit (w poly rem : Nat) (b : Bool) : Nat :=
  let top := decide (rem / 2 ^ (w - 1) % 2 = 1)
  let sh := rem * 2 % 2 ^ w
  if xor top b then Nat.xor sh poly else sh

/-- One byte, its bits least significant first when REFIN. -/
def crcByte (p : CvParams) (rem : Nat) (b : Byte) : Nat :=
  (if p.refIn then (bitsMsb b).reverse else bitsMsb b).foldl (crcBit p.width p.poly) rem

/-- A number handed on after it has been evaluated; equal to plain application. -/
def withNat {α : Type} (n : Nat) (f : Nat → α) : α :=
  match n with
  | 0 => f 0
  | k + 1 => f (k + 1)

def crcBytes (p : CvParams) (rem : Nat) : List Byte → Nat
  | [] => rem
  | b :: t => withNat (crcByte p rem b) fun r => crcBytes p r t

/-- Output reflection and final XOR (R68, R70). -/
def crcFinish (p : CvParams) (rem : Nat) : Nat :=
  Nat.xor (if p.refOut then reflect p.width rem else rem) p.xorOut

def crcOf (p : CvParams) (bs : List Byte) : Nat := crcFinish p (crcBytes p p.init bs)

/-- CVP0: CRC-32, as in IEEE 802.3 (R68). -/
def cvp0 : CvParams := ⟨32, 0x04C11DB7, 0xFFFFFFFF, true, true, 0xFFFFFFFF⟩
/-- CVP1: CRC-32C (R68). -/
def cvp1 : CvParams := ⟨32, 0x1EDC6F41, 0xFFFFFFFF, true, true, 0xFFFFFFFF⟩
/-- CVP2: CRC-64, ECMA-182 (R68). -/
def cvp2 : CvParams := ⟨64, 0x42F0E1EBA9EA3693, 0, false, false, 0⟩

/-- The CVP0 value of bytes, as the line formats, the log and the history record carry it. -/
def check0 (bs : List Byte) : Nat := crcOf cvp0 bs

/-- The 26 bytes of a profile's five parameters that bytes 24 to 27 of a context cover (R442). -/
def paramBytes (p : CvParams) : List Byte :=
  leBytes 1 p.width ++ leBytes 8 p.poly ++ leBytes 8 p.init
    ++ leBytes 1 (boolBit p.refIn 0 + boolBit p.refOut 1) ++ leBytes 8 p.xorOut

/-- A Fibonacci generator of `w` bits stepping left with two taps: the state and the bit it puts out. -/
def lfsrStep (w t1 t2 st : Nat) : Bool × Nat :=
  let b := xor (st.testBit t1) (st.testBit t2)
  (b, (st * 2 + b.toNat) % 2 ^ w)

/-- Bits added to a generator's output. -/
def scramble (w t1 t2 : Nat) : Nat → List Bool → List Bool
  | _, [] => []
  | st, b :: t =>
    let (k, st') := lfsrStep w t1 t2 st
    xor b k :: scramble w t1 t2 st' t

/-- The transport scrambler's state at byte 16 of the frame with number `tfn` (R228). -/
def tfSeed (tfn : Word) : Nat :=
  let v := Nat.xor (tfn.toNat % 2147483648) 0x2AAAAAAA
  if v = 0 then 1 else v

/-- R228 over bits, most significant of each byte first; scrambling twice restores them. -/
def tfScramble (tfn : Word) (bits : List Bool) : List Bool := scramble 31 30 27 (tfSeed tfn) bits

/-- The fill generator of R221, loaded with all ones at the first fill bit. -/
def fillBits (n : Nat) : List Bool := scramble 31 30 27 0x7FFFFFFF (List.replicate n false)

/-- The lane scrambler of R290, reloaded at bit 48 of every lane frame. -/
def laneScramble (lane : Nat) (bits : List Bool) : List Bool :=
  scramble 58 57 38 (2 ^ 58 - 16 + lane) bits

/-- One output bit of the training and pilot generator (R152). -/
def trainStep (st : Nat) : Bool × Nat :=
  let fb := xor (xor (st.testBit 0) (st.testBit 2)) (xor (st.testBit 3) (st.testBit 5))
  (st.testBit 0, st / 2 + (if fb then 32768 else 0))

/-- `n` output bits of the generator from a seed (R152). -/
def trainBits : Nat → Nat → List Bool
  | 0, _ => []
  | n + 1, st => let (b, st') := trainStep st; b :: trainBits n st'

/-- Seeds of R152: training words of frame 0 (S) and of the others (N), and pilots, on X and on Y. -/
def trainSeed (sForm polY : Bool) : Nat :=
  if sForm then (if polY then 0xC52E else 0x3A91) else (if polY then 0x84F3 else 0x7B04)
def pilotSeed (polY : Bool) : Nat := if polY then 0xD293 else 0x2D6C

end Sys2Proof.Machine
end

