-- ==== Sys2Proof/Machine/Aes.lean ====
section
/-! DEFINITION. AES-256, GCM, CTR and key wrap with padding, which the cipher chapter takes from public
standards (FIPS 197, NIST SP 800-38D, RFC 5649). PRESUMED, log entry 13. -/
namespace Sys2Proof.Machine

open Sys2Proof

/-! A state of 16 bytes, or a column of four, is held as one number, its first byte in the lowest bits, so that the steps of a
round act on all bytes at once. -/

/-- The S-box of FIPS 197 and its inverse by rows of 16 entries, the first entry in the lowest byte. -/
def sboxRows : List Nat :=
  [0x76abd7fe2b670130c56f6bf27b777c63, 0xc072a49cafa2d4adf04759fa7dc982ca, 0x1531d871f1e5a534ccf73f362693fdb7,
   0x75b227ebe28012079a059618c323c704, 0x842fe329b3d63b52a05a6e1b1a2c8309, 0xcf584c4a39becb6a5bb1fc20ed00d153,
   0xa89f3c507f02f94585334d43fbaaefd0, 0xd2f3ff1021dab6bcf5389d928f40a351, 0x73195d643d7ea7c41744975fec130ccd,
   0xdb0b5ede14b8ee4688902a22dc4f8160, 0x79e4959162acd3c25c2406490a3a32e0, 0x08ae7a65eaf4566ca94ed58d6d37c8e7,
   0x8a8bbd4b1f74dde8c6b4a61c2e2578ba, 0x9e1dc186b95735610ef6034866b53e70, 0xdf2855cee9871e9b948ed9691198f8e1,
   0x16bb54b00f2d99416842e6bf0d89a18c]

def sboxInvRows : List Nat :=
  [0xfbd7f3819ea340bf38a53630d56a0952, 0xcbe9dec444438e3487ff2f9b8239e37c, 0x4ec3fa420b954cee3d23c2a632947b54,
   0x25d18b6d49a25b76b224d92866a12e08, 0x92b6655dcc5ca4d41698688664f6f872, 0x849d8da75746155edab9edfd5048706c,
   0x0645b3b80558e4f70ad3bc8c00abd890, 0x6b8a130103bdafc1020f3fca8f1e2cd0, 0x73e6b4f0cecff297eadc674f4111913a,
   0x6edf751ce837f9e28535ade72274ac96, 0x1bbe18aa0e62b76f89c5291d711af147, 0xf45acd78fec0db9a2079d2c64b3e56fc,
   0x5fec8027591012b131c7078833a8dd1f, 0xef9cc9939f7ae52d0d4ab519a97f5160, 0x619953833cbbebc8b0f52aae4d3be0a0,
   0x7d0c2155631469e126d677ba7e042b17]

/-- A table of 256 bytes as one number, entry 0 in its lowest byte. -/
def tableOf (rows : List Nat) : Nat := rows.foldr (fun r a => r + 2 ^ 128 * a) 0

/-- Byte `i` of a number. -/
def byteOf (x i : Nat) : Nat := Nat.shiftRight x (8 * i) % 256

/-- The substitution of the bytes of a number taken in an order: byte `order[i]` becomes byte `i`. -/
def subBytes (table x : Nat) (order : List Nat) : Nat :=
  order.foldr (fun i a => byteOf table (byteOf x i) + 256 * a) 0

/-- The order of ShiftRows, and of its inverse: row `i` moves by `i` columns. -/
def rowOrder : List Nat := [0, 5, 10, 15, 4, 9, 14, 3, 8, 13, 2, 7, 12, 1, 6, 11]
def rowOrderInv : List Nat := [0, 13, 10, 7, 4, 1, 14, 11, 8, 5, 2, 15, 12, 9, 6, 3]

/-- The low `k` bytes of every column. -/
def lowBytes (k : Nat) : Nat := (256 ^ k - 1) * 0x00000001000000010000000100000001

/-- Every column rotated: byte `r + k` of it comes to byte `r`. -/
def rotColumns (k x : Nat) : Nat :=
  Nat.land (Nat.shiftRight x (8 * k)) (lowBytes (4 - k)) + Nat.land x (lowBytes k) * 256 ^ (4 - k)

/-- Every byte multiplied by x in GF(2^8) modulo x^8 + x^4 + x^3 + x + 1. -/
def xtimes (x : Nat) : Nat :=
  Nat.xor (Nat.land x 0x7f7f7f7f7f7f7f7f7f7f7f7f7f7f7f7f * 2)
    (Nat.land (Nat.shiftRight x 7) 0x01010101010101010101010101010101 * 0x1b)

/-- MixColumns: each byte becomes 2 of itself, 3 of the next, and the other two. -/
def mixColumns (x : Nat) : Nat :=
  withNat (rotColumns 1 x) fun y =>
    Nat.xor (xtimes (Nat.xor x y)) (Nat.xor y (Nat.xor (rotColumns 2 x) (rotColumns 3 x)))

/-- The inverse of MixColumns, whose matrix is that of MixColumns times the circulant of 5, 0, 4, 0. -/
def mixColumnsInv (x : Nat) : Nat :=
  withNat (Nat.xor x (xtimes (xtimes (Nat.xor x (rotColumns 2 x))))) mixColumns

/-- The words of the key schedule after the first eight, built backwards: the last word first. -/
def expandFrom (sbox : Nat) : Nat → Nat → Nat → List Nat → List Nat
  | 0, _, _, ws => ws
  | n + 1, i, rcon, ws =>
    let prev := ws.getD 0 0
    let word :=
      if i % 8 = 0 then Nat.xor (subBytes sbox prev [1, 2, 3, 0]) rcon
      else if i % 8 = 4 then subBytes sbox prev [0, 1, 2, 3]
      else prev
    withNat (Nat.xor (ws.getD 7 0) word) fun w =>
      expandFrom sbox n (i + 1) (if i % 8 = 0 then 2 * rcon else rcon) (w :: ws)

/-- Words put together by fours. -/
def quads : List Nat → List Nat
  | a :: b :: c :: d :: t => (a + 2 ^ 32 * b + 2 ^ 64 * c + 2 ^ 96 * d) :: quads t
  | _ => []

/-- The fifteen round keys of AES-256. -/
def roundKeys (key : List Byte) : List Nat :=
  quads (expandFrom (tableOf sboxRows) 52 8 1 ((List.range 8).map fun i => fieldAt key (4 * i) 4).reverse).reverse

def encRounds (sbox : Nat) : List Nat → Nat → Nat
  | [], x => x
  | [k], x => Nat.xor (subBytes sbox x rowOrder) k
  | k :: ks, x => withNat (subBytes sbox x rowOrder) fun y => withNat (Nat.xor (mixColumns y) k) (encRounds sbox ks)

def decRounds (sbox : Nat) : List Nat → Nat → Nat
  | [], x => x
  | [k], x => Nat.xor (subBytes sbox x rowOrderInv) k
  | k :: ks, x =>
    withNat (Nat.xor (subBytes sbox x rowOrderInv) k) fun y => withNat (mixColumnsInv y) (decRounds sbox ks)

/-- A block taken through the rounds with its round keys. -/
def aesRun (rounds : List Nat → Nat → Nat) (keys : List Nat) (block : List Byte) : List Byte :=
  withNat (Nat.xor (fieldAt block 0 16) (keys.getD 0 0)) fun x => withNat (rounds (keys.drop 1) x) (leBytes 16)

/-- AES-256 encryption of one 16-byte block. -/
def aesEnc (key block : List Byte) : List Byte :=
  withNat (tableOf sboxRows) fun t => aesRun (encRounds t) (roundKeys key) block

/-- AES-256 decryption of one 16-byte block. -/
def aesDec (key block : List Byte) : List Byte :=
  withNat (tableOf sboxInvRows) fun t => aesRun (decRounds t) (roundKeys key).reverse block

/-- The KCV of a key (R250): the first three bytes of the encryption of the block 0x01 repeated. -/
def kcvOf (key : List Byte) : List Byte := (aesEnc key (List.replicate 16 1)).take 3

def xorBytes : List Byte → List Byte → List Byte
  | a :: s, b :: t => (a ^^^ b) :: xorBytes s t
  | _, _ => []

/-- Blocks of 16 bytes, the last one as long as it is. -/
def blocks16 : Nat → List Byte → List (List Byte)
  | 0, _ => []
  | n + 1, l => if l.isEmpty then [] else l.take 16 :: blocks16 n (l.drop 16)

def blocks (l : List Byte) : List (List Byte) := blocks16 (l.length / 16 + 1) l

/-- A 128-bit counter block as a number, plus one (R275: CTR increments as a 128-bit integer). -/
def incr128 (c : List Byte) : List Byte := beBytes 16 ((beNat c + 1) % 2 ^ 128)

/-- GCM increments the last 32 bits (SP 800-38D). -/
def incr32 (c : List Byte) : List Byte := c.take 12 ++ beBytes 4 ((beNat (c.drop 12) + 1) % 2 ^ 32)

/-- Keystream addition over blocks, with the counter block that follows. -/
def ctrRun (inc : List Byte → List Byte) (key : List Byte) : List (List Byte) → List Byte → List Byte × List Byte
  | [], c => ([], c)
  | b :: bs, c =>
    let r := ctrRun inc key bs (inc c)
    (xorBytes b (aesEnc key c) ++ r.1, r.2)

/-- Multiplication in GF(2^128) as GHASH uses it: `v` shifts right, most significant bit first. -/
def ghMul : List Bool → Nat → Nat → Nat
  | [], _, z => z
  | b :: bs, v, z =>
    withNat (if v % 2 = 1 then Nat.xor (v / 2) (0xE1 * 2 ^ 120) else v / 2) fun w =>
      withNat (if b then Nat.xor z v else z) fun z => ghMul bs w z

def ghashBlock (h : Nat) (y : List Byte) (b : List Byte) : List Byte :=
  beBytes 16 (ghMul (bitsOf (xorBytes y (padTo 16 b))) h 0)

def ghash (h : Nat) (y : List Byte) (bs : List (List Byte)) : List Byte := bs.foldl (ghashBlock h) y

def ghashKey (key : List Byte) : Nat := beNat (aesEnc key (List.replicate 16 0))

/-- The first counter block of GCM with a 96-bit IV. -/
def gcmJ0 (iv : List Byte) : List Byte := padTo 12 iv ++ [0, 0, 0, 1]

/-- The GCM tag from the accumulator over AAD and ciphertext and their lengths in bytes. -/
def gcmTag (key iv acc : List Byte) (aadLen dataLen : Nat) : List Byte :=
  let y := ghashBlock (ghashKey key) acc (beBytes 8 (8 * aadLen) ++ beBytes 8 (8 * dataLen))
  xorBytes y (aesEnc key (gcmJ0 iv))

/-- The accumulator over whole AAD and ciphertext. -/
def gcmAcc (key : List Byte) (aad data : List Byte) : List Byte :=
  ghash (ghashKey key) (ghash (ghashKey key) (List.replicate 16 0) (blocks aad)) (blocks data)

/-- GCM encryption goes on after `done` blocks of a message (SP 800-38D). -/
def gcmContinue (key iv : List Byte) (done : Nat) (data : List Byte) : List Byte :=
  (ctrRun incr32 key (blocks data) (padTo 12 iv ++ beBytes 4 ((done + 2) % 2 ^ 32))).1

/-- The tag of AAD and ciphertext under a key and an IV (SP 800-38D). -/
def gcmTagOf (key iv aad data : List Byte) : List Byte :=
  gcmTag key iv (gcmAcc key aad data) aad.length data.length

/-- The alternative initial value of RFC 5649. -/
def kwAiv (n : Nat) : List Byte := [0xA6, 0x59, 0x59, 0xA6] ++ beBytes 4 n

def chunk8 : Nat → List Byte → List (List Byte)
  | 0, _ => []
  | n + 1, l => l.take 8 :: chunk8 n (l.drop 8)

/-- One wrapping round over the registers R1 to Rn (RFC 3394 as RFC 5649 uses it). -/
def kwRound (kek : List Byte) : Nat → List Byte → List (List Byte) → List Byte × List (List Byte)
  | _, a, [] => (a, [])
  | t, a, r :: rs =>
    let b := aesEnc kek (a ++ r)
    let rest := kwRound kek (t + 1) (xorBytes (b.take 8) (beBytes 8 t)) rs
    (rest.1, b.drop 8 :: rest.2)

def kwRounds (kek : List Byte) : Nat → Nat → List Byte → List (List Byte) → List Byte × List (List Byte)
  | 0, _, a, rs => (a, rs)
  | n + 1, t, a, rs => let p := kwRound kek t a rs; kwRounds kek n (t + rs.length) p.1 p.2

/-- RFC 5649 wrap. -/
def kwWrap (kek data : List Byte) : List Byte :=
  let n := (data.length + 7) / 8
  let rs := chunk8 n (padTo (8 * n) data)
  if n = 1 then aesEnc kek (kwAiv data.length ++ padTo 8 data)
  else let p := kwRounds kek 6 1 (kwAiv data.length) rs; p.1 ++ p.2.flatten

/-- One unwrapping round, over the registers from Rn down to R1. -/
def kwUnRound (kek : List Byte) : Nat → List Byte → List (List Byte) → List Byte × List (List Byte)
  | _, a, [] => (a, [])
  | t, a, r :: rs =>
    let b := aesDec kek (xorBytes a (beBytes 8 t) ++ r)
    let rest := kwUnRound kek (t - 1) (b.take 8) rs
    (rest.1, b.drop 8 :: rest.2)

def kwUnRounds (kek : List Byte) : Nat → Nat → List Byte → List (List Byte) → List Byte × List (List Byte)
  | 0, _, a, rs => (a, rs)
  | n + 1, t, a, rs => let p := kwUnRound kek t a rs; kwUnRounds kek n (t - rs.length) p.1 p.2

/-- RFC 5649 unwrap; none when the integrity check of the wrap fails. -/
def kwUnwrap (kek blob : List Byte) : Option (List Byte) :=
  let n := blob.length / 8 - 1
  if blob.length % 8 ≠ 0 ∨ blob.length < 16 then none else
  let p :=
    if n = 1 then let b := aesDec kek blob; (b.take 8, [b.drop 8])
    else
      let q := kwUnRounds kek 6 (6 * n) (blob.take 8) (chunk8 n (blob.drop 8)).reverse
      (q.1, q.2.reverse)
  let plain := p.2.flatten
  let len := beNat (p.1.drop 4)
  if p.1.take 4 = [0xA6, 0x59, 0x59, 0xA6] ∧ 8 * (n - 1) < len ∧ len ≤ 8 * n
      ∧ (plain.drop len).all (· = 0) then some (plain.take len)
  else none

end Sys2Proof.Machine
end

