-- ==== Sys2Proof/Machine/Flags.lean ====
section
/-! DEFINITION. The status words of the host interface and of the always-on domain, computed from the state
(R45, R52 to R55), and every rule by which an interrupt cause bit becomes an interrupt (R47, R65, R430). -/
namespace Sys2Proof.Machine

open Sys2Proof

/-! ### Power state codes (R50) -/

def stateCode : PState → Nat
  | .off => 0 | .deep => 1 | .sleep => 2 | .idle => 3 | .run => 4 | .watch => 5

def codeState (n : Nat) : Option PState :=
  if n = 0 then some .off else if n = 1 then some .deep else if n = 2 then some .sleep
  else if n = 3 then some .idle else if n = 4 then some .run else if n = 5 then some .watch else none

/-- R50: the STATE code of a phase; steps 1 to 6 of R33 are BOOT, entries, exits and the orderly off are
transitions. -/
def phaseCode : Phase → Nat
  | .inert => 0xE
  | .boot _ => 0xE
  | .steady st => stateCode st
  | .entry _ _ => 0xF
  | .exit _ _ => 0xF
  | .orderlyOff => 0xF

/-- R52: TARGET, the state being entered while STATE is 0xF, otherwise STATE. -/
def phaseTarget : Phase → Nat
  | .entry t _ => stateCode t
  | .exit _ _ => stateCode .run
  | .orderlyOff => stateCode .off
  | p => phaseCode p

/-- The state in force when the module is not in a transition. -/
def steadyState (s : State) : Option PState :=
  match s.pwr.phase with
  | .steady st => some st
  | _ => none

/-- RUN, IDLE or WATCH. -/
def inRun (s : State) : Bool :=
  match s.pwr.phase with
  | .steady .run => true
  | .steady .idle => true
  | .steady .watch => true
  | _ => false

/-- RUN or IDLE. -/
def inTraffic (s : State) : Bool :=
  match s.pwr.phase with
  | .steady .run => true
  | .steady .idle => true
  | _ => false

/-- WATCH, or the entry to it, during which the transmitter is already dark (R198, R362). -/
def inWatch (s : State) : Bool :=
  match s.pwr.phase with
  | .steady .watch => true
  | .entry .watch _ => true
  | _ => false

def inSleep (s : State) : Bool := decide (s.pwr.phase = .steady .sleep)

/-! ### Status words -/

/-- R45: HIF_STATUS. -/
def hifStatus (s : State) : Nat :=
  phaseCode s.pwr.phase + boolBit s.hif.ready 4 + boolBit s.aon.valid 6 + boolBit s.dbg.frozen 7
    + boolBit s.hif.recovery 8 + boolBit s.hif.slot 9

/-- R52: AON_STATE. -/
def aonState (s : State) : Nat :=
  phaseCode s.pwr.phase + phaseTarget s.pwr.phase * 2 ^ 8 + s.aon.coppice * 2 ^ 12 + boolBit s.aon.vinOk 15

/-- R53: AON_FAULT. -/
def aonFault (s : State) : Nat :=
  s.aon.code.toNat + s.aon.count.toNat * 2 ^ 8 + s.aon.source.toNat * 2 ^ 16 + boolBit s.aon.valid 31

/-- R55: AON_BOOT. -/
def aonBoot (s : State) : Nat :=
  boolBit s.aon.pref 0 + boolBit s.aon.running 1 + boolBit s.aon.trial 4 + s.aon.last.toNat * 2 ^ 8
    + s.aon.boots.toNat * 2 ^ 16

/-- R46: the readable bits of HIF_CTRL; SOFT_RESET and KEYBYTE read as zero. -/
def hifCtrl (s : State) : Nat := boolBit s.hif.msixEn 0 + boolBit s.hif.alertEn 1

/-- R48: HIF_IRQ_COAL. -/
def irqCoal (s : State) : Nat := s.hif.rcount.toNat + s.hif.ncount.toNat * 2 ^ 8 + s.hif.hold.toNat * 2 ^ 16

/-! ### Interrupt causes (R47) -/

def causeResp : BitVec 6 := 0x01
def causeNotify : BitVec 6 := 0x02
def causeCqErr : BitVec 6 := 0x04
def causeNqOvf : BitVec 6 := 0x08
def causeFault : BitVec 6 := 0x10
def causeState : BitVec 6 := 0x20

/-- R65, R430: the causes that raise an interrupt: set and enabled, RESP and NOTIFY only once their hold and
count have raised it. -/
def irqActive (h : Hif) : BitVec 6 :=
  h.irqStatus &&& h.irqMask
    &&& ((if h.respCoal.raised then 0x3D else 0x3C) ||| (if h.noteCoal.raised then 0x3E else 0x3C))

/-- R65: the causes of each MSI-X vector. -/
def vectorCauses (v : BitVec 2) : BitVec 6 :=
  if v = 0 then causeResp else if v = 1 then causeNotify
  else if v = 2 then causeCqErr ||| causeNqOvf ||| causeFault else causeState

def msixBit (v : BitVec 2) : BitVec 4 := 1 <<< v.toNat

/-- R46, R65: one MSI-X message on a vector, subject to MSIX_EN and the PCIe enable; a masked vector sets its
pending bit instead (PRESUMED from the PCIe Base Specification, log entry 14). -/
def sendMsix (v : BitVec 2) (h : Hif) : Hif :=
  if h.msixEn && h.msixEnable then
    if h.msixMask &&& msixBit v = 0 then { h with msixSent := h.msixSent.set v (h.msixSent.get v + 1) }
    else { h with msixPending := h.msixPending ||| msixBit v }
  else h

/-- The messages of the causes that `old` did not raise and `h` does (R65). -/
def raiseNew (old h : Hif) : Hif :=
  let fresh := irqActive h &&& ~~~ irqActive old
  let one (v : BitVec 2) (h : Hif) : Hif := if fresh &&& vectorCauses v = 0 then h else sendMsix v h
  one 3 (one 2 (one 1 (one 0 h)))

/-- A change of the interrupt registers with the interrupts it raises. -/
def withIrq (f : Hif → Hif) (s : State) : State := { s with hif := raiseNew s.hif (f s.hif) }

/-- Sets an uncoalesced cause bit (R47, R430). -/
def setCause (c : BitVec 6) (s : State) : State := withIrq (fun h => { h with irqStatus := h.irqStatus ||| c }) s

/-- R430: an entry of a coalesced kind has been written. `free` says that line time does not run or freeze is
active, so that the interrupt is raised as with HOLD = 0. -/
def coalWrite (hold : Half) (count : Byte) (already free : Bool) (sf : Sf) (c : Coal) : Coal :=
  let n := if already then c.count + 1 else 1
  let noHold := decide (hold = 0) || free
  let since := if already then c.since else if noHold then none else some sf
  let up := (already && c.raised) || noHold || decide (Nat.max 1 count.toNat ≤ n)
  { count := n, since := if up then none else since, raised := up }

/-- Line time does not run, or is frozen: no hold of R430 runs. -/
def holdsIdle (s : State) : Bool := !s.time.running || s.dbg.frozen

/-- R430: a response has been written. -/
def causeResponse (s : State) : State :=
  withIrq (fun h =>
    { h with
      respCoal := coalWrite h.hold h.rcount (h.irqStatus.getLsbD 0) (holdsIdle s) s.time.lts.sf h.respCoal,
      irqStatus := h.irqStatus ||| causeResp }) s

/-- R430: a notification has been written. -/
def causeNotification (s : State) : State :=
  withIrq (fun h =>
    { h with
      noteCoal := coalWrite h.hold h.ncount (h.irqStatus.getLsbD 1) (holdsIdle s) s.time.lts.sf h.noteCoal,
      irqStatus := h.irqStatus ||| causeNotify }) s

/-- R430: a hold that is running ends, and its interrupt is raised. -/
def coalEnd (c : Coal) : Coal := if c.since.isSome then { c with since := none, raised := true } else c

/-- R430: line time stops, so running holds end and their interrupts are raised. -/
def endHolds (s : State) : State :=
  withIrq (fun h => { h with respCoal := coalEnd h.respCoal, noteCoal := coalEnd h.noteCoal }) s

/-- R430: a hold ends once HOLD superframes have passed since the write that set the cause bit. -/
def coalExpire (hold : Half) (sf : Sf) (c : Coal) : Coal :=
  match c.since with
  | some a => if hold.toNat ≤ (sf - a).toNat then coalEnd c else c
  | none => c

/-! ### Domain words (R53, R356) -/

/-- R53: the domain codes, which number the bits of the domain words. -/
def domCode : Dom → Nat
  | .mgmt => 1 | .line => 2 | .opt => 3 | .host => 4 | .ciph => 5 | .store => 6

def domBit (d : Dom) : BitVec 7 := 1 <<< domCode d

/-- A domain's bit in a domain word. -/
def domIn (w : BitVec 7) (d : Dom) : Bool := w.getLsbD (domCode d)

/-- R21: the blocks of a domain work: it is powered, and not merely held. -/
def domWorks (d : Dom) (s : State) : Bool := domIn s.pwr.powered d && !domIn s.pwr.held d

/-! ### The output pins (R12, R53, R65, R414) -/

/-- What an output contact shows. -/
inductive PinLevel where
  | low | high | undriven
  deriving DecidableEq, Repr

/-- R65: ALERT_N is low while an enabled cause raises its interrupt; it is high in DEEP and OFF. -/
def alertLow (s : State) : Bool :=
  s.hif.alertEn && decide (irqActive s.hif ≠ 0) &&
    !decide (s.pwr.phase = .steady .deep) && !decide (s.pwr.phase = .steady .off) && s.pins.vsbValid

/-- R53: FAULT_N is asserted while VALID is 1. -/
def faultLow (s : State) : Bool := s.aon.valid && s.pins.vsbValid

/-- R12, R414: an active-low output powered from VSB33, which nothing drives while VSB33 is absent. -/
def drivenLow (low : Bool) (s : State) : PinLevel :=
  if s.pins.vsbValid = false then .undriven else if low then .low else .high

/-- The contact ALERT_N. -/
def alertPin (s : State) : PinLevel := drivenLow (alertLow s) s

/-- The contact FAULT_N. -/
def faultPin (s : State) : PinLevel := drivenLow (faultLow s) s

/-- R12: PRESENT_N is connected to module ground, whatever the supplies. -/
def presentPin (_s : State) : PinLevel := .low

/-- R47: a change of phase sets STATE when PSTATE changes. -/
def setPhase (p : Phase) (s : State) : State :=
  let s' := { s with pwr := { s.pwr with phase := p } }
  if phaseCode p = phaseCode s.pwr.phase then s' else setCause causeState s'

/-- R45, R47: a change of READY sets STATE. -/
def setReady (b : Bool) (s : State) : State :=
  let s' := { s with hif := { s.hif with ready := b } }
  if s.hif.ready = b then s' else setCause causeState s'

end Sys2Proof.Machine
end

