-- ==== Sys2Proof/Machine/Flash.lean ====
section
/-! DEFINITION. The flash as blocks (R72 to R76): regions, wear, the choice of a fresh block, retirement, refresh, write dates and
reads. A block number names a place of R72; the physical block there brings its erase count with it when two places change
blocks. -/
namespace Sys2Proof.Machine

open Sys2Proof

/-! ### Places -/

/-- R72: blocks by region. -/
def flashRegions : List Nat := [8, 512, 512, 64, 256, 1024, 512, 1208]

/-- The first block of a region (log entry 17). -/
def flashFirst (r : Nat) : Nat := (flashRegions.take r).foldl (· + ·) 0

def blockBytes : Nat := 262144

/-- The region of a block. -/
def flashRegionOf (b : Nat) : Nat := ((List.range 8).find? fun r => decide (b < flashFirst (r + 1))).getD 7

def countAt (b : Nat) (l : List (Nat × Nat)) : Nat := match l.find? fun x => decide (x.1 = b) with | some x => x.2 | none => 0

def setCount (b n : Nat) (l : List (Nat × Nat)) : List (Nat × Nat) := (b, n) :: l.filter fun x => decide (x.1 ≠ b)

def dropCount (b : Nat) (l : List (Nat × Nat)) : List (Nat × Nat) := l.filter fun x => decide (x.1 ≠ b)

/-! ### Wear (R73, R75) -/

/-- R73: of the places `bs`, the one whose block has the lowest erase count, the first of several; `b` when there is none. A
retired or factory-marked place is never used (R75). -/
def leastErased (b : Nat) (bs : List Nat) (f : Flash) : Nat :=
  let ok := bs.filter fun k => !f.retiredBlocks.contains k && !f.factory.contains k
  match ok with
  | [] => b
  | k :: t => t.foldl (fun best k => if countAt k f.erases < countAt best f.erases then k else best) k

/-- R73: the fresh block of SPARE. -/
def freshSpare (f : Flash) : Nat := leastErased (flashFirst 7) ((List.range 1208).map (· + flashFirst 7)) f

/-- The blocks at two places change places: each place has the other's block, with its erase count. -/
def exchange (a b : Nat) (f : Flash) : Flash :=
  if a = b then f
  else { f with
    erases := setCount a (countAt b f.erases) (setCount b (countAt a f.erases) f.erases),
    reads := dropCount a (dropCount b f.reads) }

/-- R75: a block is retired; a spare takes its place while there is one, for LOG and AGEING while 16 remain. -/
def retire (b : Nat) (f : Flash) : Flash :=
  let r := flashRegionOf b
  let none_ := decide (f.spare = 0) || (decide (f.spare < 16) && (decide (r = 5) || decide (r = 6)))
  { f with
    retired := f.retired + 1, retiredBlocks := f.retiredBlocks ++ [b],
    spare := if none_ then f.spare else f.spare - 1,
    lostBlocks := if none_ then insertNat f.lostBlocks b else f.lostBlocks,
    erases := dropCount b f.erases, reads := dropCount b f.reads }

/-- R73: the erase count of a block exceeds the mean of its region by more than 2,000. -/
def levelDue (b : Nat) (f : Flash) : Bool :=
  let r := flashRegionOf b
  let size := flashRegions.getD r 1
  let sum := ((f.erases.filter fun x => decide (flashRegionOf x.1 = r)).map fun x => x.2).foldl (· + ·) 0
  decide (r ≠ 7) && decide (sum + 2000 * size < countAt b f.erases * size)

/-- A block is erased, and whether that retires it: R73: no block is erased more than 60,000 times, and one far above its region's
mean changes places with a spare. -/
def erase (b : Nat) (f : Flash) : Flash × Bool :=
  let n := countAt b f.erases + 1
  let f1 := { f with erases := setCount b n f.erases, reads := dropCount b f.reads, dates := dropCount b f.dates }
  if 60000 ≤ n then (retire b f1, true)
  else if levelDue b f1 && decide (f1.spare ≠ 0) then (exchange b (freshSpare f1) f1, false)
  else (f1, false)

/-! ### Write dates and reads (R74, R76) -/

/-- A page of a block is written at an always-on count: the block keeps the date of its oldest page. -/
def dated (b now : Nat) (f : Flash) : Flash :=
  if f.dates.any fun x => decide (x.1 = b) then f else { f with dates := setCount b now f.dates }

/-- Blocks `b` to `b + n - 1` are read once more. -/
def readBlocks (b n : Nat) (f : Flash) : Flash :=
  (List.range n).foldl (fun f k => { f with reads := setCount (b + k) (countAt (b + k) f.reads + 1) f.reads }) f

/-- The blocks that a range of bytes of a region touches are read. -/
def readRange (region offset len : Nat) (f : Flash) : Flash :=
  if len = 0 then f
  else readBlocks (flashFirst region + offset / blockBytes) ((offset + len - 1) / blockBytes - offset / blockBytes + 1) f

/-- R74: a page written 5 years, taken as 1,826 days of the always-on timer, ago (DESIGN CHOICE, log entry 43). -/
def datedOut (b now : Nat) (f : Flash) : Bool := decide (1826 * 86400 * 32768 ≤ now - countAt b f.dates)

/-! ### The LOG region (R75, R82) -/

/-- The LOG region's first block and its entries per block (R72, R81). -/
def logFirst : Nat := 1352
def logPerBlock : Nat := 4096

/-- The blocks of LOG that are not lost. -/
def logBlocks (f : Flash) : List Nat := ((List.range 1024).map (· + logFirst)).filter fun b => !f.lostBlocks.contains b

/-- R82: the LOG region holds 4,194,304 entries, less those of its lost blocks; with fewer than 16 spare blocks it no longer grows
beyond the blocks it fills (R75). -/
def logCapacity (f : Flash) : Nat :=
  let whole := 4194304 - logPerBlock * (f.lostBlocks.filter fun b => decide (1352 ≤ b) && decide (b < 2376)).length
  if f.spare < 16 then min whole (logPerBlock * max 1 ((f.log.length + logPerBlock - 1) / logPerBlock)) else whole

/-- The block that the `n`-th entry ever written goes to. -/
def logBlockAt (n : Nat) (f : Flash) : Nat := (logBlocks f).getD (n / logPerBlock % max 1 (logCapacity f / logPerBlock)) logFirst

/-- One more entry goes to the ring: a block that begins again is erased first, and is named when that retires it. -/
def logStore (now : Nat) (f : Flash) : Flash × Option Nat :=
  if f.logCount % logPerBlock = 0 then
    let b := logBlockAt f.logCount f
    let r := if logCapacity f ≤ f.logCount then erase b f else (f, false)
    ({ dated b now r.1 with logCount := f.logCount + 1 }, if r.2 then some b else none)
  else ({ f with logCount := f.logCount + 1 }, none)

/-- `n` entries go to the ring; the blocks that this retires. -/
def logStores : Nat → Nat → Flash → Flash × List Nat
  | 0, _, f => (f, [])
  | n + 1, now, f =>
    let r := logStore now f
    let t := logStores n now r.1
    (t.1, r.2.toList ++ t.2)

end Sys2Proof.Machine
end

