-- ==== Sys2Proof/Machine/Ops.lean ====
section
/-! DEFINITION. The named operations every command shares: clocks and stamps, the always-on count, faults, the log,
notifications, and the response a command gives. -/
namespace Sys2Proof.Machine

open Sys2Proof

/-! ### Clocks (R84, R103, R108) -/

/-- The AON_TIMER count with its wrap count, 48 bits (R108). -/
def extTimer (s : State) : Nat := s.aon.wraps.toNat * 2 ^ 32 + s.aon.timer.toNat

/-- Always-on ticks since the entry (R103). -/
def entryTicks (s : State) : Nat := (extTimer s + 2 ^ 48 - s.time.entryTimer) % 2 ^ 48

/-- R103: the numerator of the estimate, over 2^24 * 32768; the nominal rate is held in kBd. -/
def estimateNum (s : State) : Nat :=
  s.time.sfEntry.toNat * (2 ^ 24 * 32768) + entryTicks s * (s.time.entryRate * 1000)

/-- R103: the whole part of the estimate. -/
def estimateFloor (s : State) : Nat := estimateNum s / (2 ^ 24 * 32768)

/-- R104: the superframe count at which line time resumes. -/
def estimateCeil (s : State) : Nat := (estimateNum s + (2 ^ 24 * 32768 - 1)) / (2 ^ 24 * 32768)

/-- R94: the LTS fields while line time does not run. A recovery state reached within an exit from DEEP is in two of R94's
cases; the model takes that of the exit, the carried count (DESIGN CHOICE, log entry 31). -/
def untimedStamp (s : State) : Lts :=
  match s.pwr.phase with
  | .entry .off _ => ⟨s.time.sfEntry, 0⟩
  | .orderlyOff => ⟨s.time.sfEntry, 0⟩
  | .entry _ _ => ⟨BitVec.ofNat 48 (estimateFloor s), 0⟩
  | .exit _ _ => ⟨BitVec.ofNat 48 (estimateFloor s), 0⟩
  | .steady .sleep => ⟨BitVec.ofNat 48 (estimateFloor s), 0⟩
  | _ => Lts.zero

/-- The stamp of what happens now: the transmit LTS, or what R94 puts in its place. -/
def nowLts (s : State) : Lts := if s.time.running then s.time.lts else untimedStamp s

def nowSf (s : State) : Sf := s.time.lts.sf

/-- R89: the stamp, as a number, of symbol `i` of a received superframe. -/
def rxNat (r : RxAt) (i : Nat) : Nat := r.a.toNat + i * (r.b.toNat - r.a.toNat) / 2 ^ 24

/-- R89, R90: the stamp of a receive event; without received superframes, the transmit LTS. -/
def rxStamp (r : RxAt) (s : State) : Lts := if s.eq.rawLosf then s.time.lts else Lts.ofNat (rxNat r r.s.toNat)

/-- Line time counts. -/
def ticking (s : State) : Bool := s.time.running && !s.dbg.frozen

/-- Line time counts and stands at a superframe boundary. -/
def atBoundary (s : State) : Bool := ticking s && decide (s.time.lts.sym = 0)

/-- The superframe boundary at which a change of state takes effect: the present one, or the next. -/
def boundaryStamp (s : State) : Lts := if s.time.running then Lts.ceilSf s.time.lts else s.time.lts

/-- R17, R327: nanoseconds that the resonator has counted outside freeze, on which the drift guard, the slew and holdover memory
run. -/
def refNs (s : State) : Nat := s.time.resNs - s.time.resFrozen

/-- R17: seconds of the resonator outside freeze have passed since a count of them. -/
def lasted (from_ secs : Nat) (s : State) : Bool := decide (from_ + secs * 1000000000 ≤ refNs s)

/-- R17: seconds of the warden's clock have passed since a count of its nanoseconds. -/
def wardenPassed (from_ secs : Nat) (s : State) : Bool := decide (from_ + secs * 1000000000 ≤ s.time.wardenNs)

/-- Whole superframes from `a` to now. -/
def sfSince (a : Sf) (s : State) : Nat := (s.time.lts.sf - a).toNat

/-! ### Sedge engines (R22, R26) -/

/-- R22: the tasks that a sedge engine serves. -/
def taskServed (e : Nat) (t : Task) : Bool :=
  match t with
  | .eqSupervision => decide (e ≤ 11)
  | .bias => decide (12 ≤ e) && decide (e ≤ 19)
  | .laser => decide (12 ≤ e) && decide (e ≤ 19)
  | .calibration => decide (20 ≤ e) && decide (e ≤ 35)
  | .tallies => decide (36 ≤ e) && decide (e ≤ 47)
  | .estimation => decide (36 ≤ e) && decide (e ≤ 47)
  | .framing => decide (48 ≤ e) && decide (e ≤ 55)
  | .references => decide (56 ≤ e) && decide (e ≤ 59)
  | .power => decide (60 ≤ e) && decide (e ≤ 63)

/-- R26: the superframe by which the halted engines of a task have been restarted, zero when none is halted. -/
def heldUntil (t : Task) (s : State) : Nat :=
  s.sedge.halted.foldl (fun n x => if taskServed x.1 t then max n (x.2.toNat + 16) else n) 0

/-- R26: the loops of a task hold their last outputs while an engine that serves it is halted, for at most 16 superframes. -/
def taskHeld (t : Task) (s : State) : Bool := decide (s.time.lts.sf.toNat < heldUntil t s)

/-- The task table's entry of a task. -/
def taskAt (t : Task) (s : State) : Option TaskSt := s.sedge.tasks.find? fun x => decide (x.task = t)

/-! ### The tick -/

/-- One tick of the clocks: a symbol frame of line time while it runs and is not frozen (R85, R87), and the cycles
of the always-on oscillator, and the nanoseconds of the other two wall clocks, that pass meanwhile (R17, log entries 1 and 9). -/
def clockTick (s : State) : State :=
  let n := s.aon.timer.toNat + Config.aonCycles s.time.ticks
  let aon := if s.pins.vsbValid then
      { s.aon with timer := BitVec.ofNat 32 n, wraps := s.aon.wraps + BitVec.ofNat 16 (n / 2 ^ 32) }
    else s.aon
  let lts := if s.time.running && !s.dbg.frozen then Lts.ofNat (s.time.lts.toNat + 65536) else s.time.lts
  { s with aon := aon, time := { s.time with
      lts := lts, ticks := s.time.ticks + 1, resNs := s.time.resNs + Config.resonatorNs s.time.ticks,
      resFrozen := s.time.resFrozen + (if s.dbg.frozen then Config.resonatorNs s.time.ticks else 0),
      wardenNs := s.time.wardenNs + Config.wardenNs s.time.ticks } }

/-! ### The freeze trigger (R397) -/

/-- An event that may be the armed freeze trigger: its delay begins. -/
def freezeTrip (t : FreezeTrig) (s : State) : State :=
  if s.dbg.armed = some t ∧ s.dbg.trip = none then { s with dbg := { s.dbg with trip := some s.time.lts } } else s

/-! ### Free values -/

/-- Draws one free value (log entry 8). -/
def drawn (s : State) : BitVec 64 := Config.freeValue s.time.drawn

def nextDraw (s : State) : State := { s with time := { s.time with drawn := s.time.drawn + 1 } }

/-- The k-th of several free values drawn together, and the draw of `n`. -/
def free (k : Nat) (s : State) : Nat := (Config.freeValue (s.time.drawn + k)).toNat

def drawMany (n : Nat) (s : State) : State := { s with time := { s.time with drawn := s.time.drawn + n } }

/-! ### The log (R81, R82) and silence (R433) -/

/-- R433: from E3 of an entry to DEEP or OFF until the next warden start nothing is notified or logged. -/
def silent (s : State) : Bool :=
  match s.pwr.phase with
  | .inert => true
  | .boot k => decide (k < 3)
  | .entry .deep _ => true
  | .entry .off _ => true
  | .orderlyOff => true
  | .steady .deep => true
  | .steady .off => true
  | .exit .deep k => decide (k < 2)
  | _ => false

/-- The 60 bytes of an entry that CHECK covers (R81). -/
def logBody (e : LogEntry) : List Byte :=
  leBytes 6 e.seq.toNat ++ leBytes 2 e.source.toNat ++ leBytes 4 e.boot.toNat ++ leBytes 4 e.aont.toNat
    ++ leBytes 3 e.lts.sym.toNat ++ leBytes 6 e.lts.sf.toNat ++ [BitVec.ofNat 8 e.sev] ++ leBytes 2 e.code.toNat
    ++ padTo 32 e.data

/-- R81: the 64 bytes of an entry; an entry whose CHECK fails is kept with the CHECK as stored. -/
def logBytes (bad : Bool) (e : LogEntry) : List Byte :=
  let c := check0 (logBody e)
  logBody e ++ leBytes 4 (if bad then (c + 1) % 2 ^ 32 else c)

/-- R81: an entry joins LOGSTAGE. R81 gives the LTS fields zero before line time starts; they are zero too while line time stands
after it has started (DESIGN CHOICE, log entry 22). -/
def stageEntry (topic : Nat) (source : Half) (code : Option Half) (data : List Byte) (s : State) : State :=
  let e : LogEntry := ⟨s.flash.nextSeq, source, s.ident.boots, s.aon.timer, if s.time.running then s.time.lts else Lts.zero,
    (Config.logSeverity topic).toNat, code.getD (Config.logCode topic), padTo 32 data⟩
  { s with
    flash := { s.flash with stage := s.flash.stage ++ [e], nextSeq := s.flash.nextSeq + 1 },
    aon := { s.aon with logSeq := s.flash.nextSeq } }

/-- R75: a block has been retired, which is logged. -/
def retireNote (s : State) (b : Nat) : State := stageEntry 13 0x0D00 none (leBytes 2 b) s

/-- `n` entries of LOGSTAGE move to the LOG region, which holds the most recent entries. -/
def flushEntries (n : Nat) (s : State) : State :=
  let es := s.flash.stage.take n
  let r := logStores es.length (extTimer s) s.flash
  let all := s.flash.log ++ es
  r.2.foldl retireNote
    { s with flash := { r.1 with log := all.drop (all.length - logCapacity r.1), stage := s.flash.stage.drop n } }

/-- R82: LOGSTAGE moves to the LOG region. -/
def flushLog (s : State) : State := flushEntries s.flash.stage.length s

/-- R82: LOGSTAGE is moved at 64 entries, and at once for severity 2 or 3. -/
def stageFull (topic : Nat) (s : State) : Bool :=
  decide (64 ≤ s.flash.stage.length) || decide (2 ≤ (Config.logSeverity topic).toNat)

/-- R81, R82: an entry is logged. `topic` is the model's number of what is logged; the code is the event's where a
notification event gives one. -/
def logEntry (topic : Nat) (source : Half) (code : Option Half) (data : List Byte) (s : State) : State :=
  if silent s then s
  else
    let t := stageEntry topic source code data s
    if stageFull topic t then flushLog t else t

/-! ### AON_FAULT (R53) -/

/-- Records a fault: VALID, CODE and SOURCE, COUNT saturating; FAULT_N follows VALID and HIF_IRQ_STATUS.FAULT sets. -/
def recordFault (code source : Byte) (s : State) : State :=
  let n := if s.aon.valid then s.aon.count else 0
  setCause causeFault
    { s with aon := { s.aon with valid := true, code := code, source := source,
                                 count := if n = 0xFF then n else n + 1 } }

/-! ### Notifications (R63, R64, R92 to R94) -/

/-- R92: the order of an event's source. -/
def eventOrder (event : Half) : Nat :=
  let fam := event.toNat / 256
  if fam = 4 ∨ fam = 6 then 1
  else if fam = 5 then 2
  else if fam = 8 then 3
  else if fam = 7 then
    if event = 0x710 ∨ event = 0x711 ∨ event = 0x712 ∨ event = 0x715 ∨ event = 0x716 then 1 else 4
  else if fam = 9 then 5
  else 6

/-- R64: the notification ring has a free entry. -/
def nqFree (h : Hif) : Bool := decide ((h.nqTail - h.nqHead).toNat < 256)

/-- R63: an entry's 64 bytes. -/
def noteBytes (n : Note) (seq : Word) (late untimed : Bool) : List Byte :=
  leBytes 2 n.event.toNat ++ leBytes 2 n.source.toNat ++ leBytes 4 seq.toNat ++ leBytes 3 n.lts.sym.toNat
    ++ leBytes 6 n.lts.sf.toNat
    ++ [BitVec.ofNat 8 (boolBit late 0 + boolBit (n.set.getD false) 1 + boolBit untimed 2), 0, 0]
    ++ padTo 44 n.data

/-- Writes an entry at the notification tail (R38, R64) and sets NOTIFY. -/
def nqPut (bs : List Byte) (s : State) : State :=
  causeNotification { s with
    win := memWriteN 0 s.win (0x5000 + 64 * (s.hif.nqTail.toNat % 256)) bs,
    hif := { s.hif with nqTail := s.hif.nqTail + 1 } }

/-- R79: the warden restarts on its own; READY has not returned. -/
def restarting (s : State) : Bool := s.flash.wardenOnly && !s.hif.ready

/-- R64: delivery, with one sequence number: to the ring, to the backlog, or a discard that sets NQ_OVF and is
logged. While the warden restarts, what is delivered waits in the backlog (R79). -/
def deliver (n : Note) (late untimed : Bool) (s : State) : State :=
  let bs := noteBytes n s.hif.nqSeq late untimed
  let s1 := { s with hif := { s.hif with nqSeq := s.hif.nqSeq + 1 } }
  if nqFree s.hif && s.q.backlog.isEmpty && !restarting s then nqPut bs s1
  else if s.q.backlog.length < 4096 then { s1 with q := { s1.q with backlog := s1.q.backlog ++ [bs] } }
  else logEntry 0 0x0100 none (leBytes 2 n.event.toNat) (setCause causeNqOvf s1)

/-- R92: the order of two held notifications. -/
def noteLe (a b : Note) : Bool :=
  if a.lts ≠ b.lts then a.lts.lt b.lts
  else if a.src ≠ b.src then decide (a.src < b.src)
  else if a.source ≠ b.source then decide (a.source.toNat < b.source.toNat)
  else decide (a.ord ≤ b.ord)

/-- Puts a held notification in the order of R92. -/
def insertNote (n : Note) : List Note → List Note
  | [] => [n]
  | m :: t => if noteLe m n then m :: insertNote n t else n :: m :: t

/-- R92 to R94: an event stamped `lts` is held, or delivered at once: untimed while line time does not run, late when
it precedes a notification already delivered. -/
def notifyAt (event source : Half) (set : Option Bool) (data : List Byte) (lts : Lts) (s : State) : State :=
  if silent s then s
  else
    let n : Note := ⟨event, source, set, data, lts, eventOrder event, s.q.ord⟩
    let s1 := { s with q := { s.q with ord := s.q.ord + 1 } }
    if !s.time.running then deliver { n with lts := untimedStamp s } false true s1
    else if lts.lt s.q.delivered then deliver n true false s1
    else { s1 with q := { s1.q with held := insertNote n s1.q.held } }

/-- An event of the present instant. -/
def notify (event source : Half) (set : Option Bool) (data : List Byte) (s : State) : State :=
  notifyAt event source set data s.time.lts s

/-- Delivers the held notifications `ns` in order (R93). -/
def deliverAll (ns : List Note) (s : State) : State :=
  ns.foldl (fun s n =>
    deliver n false false { s with q := { s.q with delivered := n.lts } }) s

/-- R93: at the start of superframe event + 17 a notification is released; in freeze, and while the warden restarts
(R79), none is. -/
def releaseDue (s : State) : State :=
  if s.dbg.frozen || restarting s || !s.time.running then s
  else
    let due := s.q.held.filter fun n => decide (n.lts.sf.toNat + 16 < s.time.lts.sf.toNat)
    let rest := s.q.held.filter fun n => !decide (n.lts.sf.toNat + 16 < s.time.lts.sf.toNat)
    deliverAll due { s with q := { s.q with held := rest } }

/-- R447: line time stops, so every held notification is delivered at once, in order. -/
def releaseAll (s : State) : State := deliverAll s.q.held { s with q := { s.q with held := [] } }

/-- R64: the backlog enters the ring as the host frees entries. -/
def drainBacklog : Nat → State → State
  | 0, s => s
  | n + 1, s =>
    match s.q.backlog with
    | [] => s
    | b :: t =>
      if nqFree s.hif then drainBacklog n (nqPut b { s with q := { s.q with backlog := t } }) else s

/-! ### Responses (R60, R62) -/

/-- The status codes. -/
inductive St where
  | ok | busy | badArg | badState | refused | notAvailable | timeout | authFail | noResource | late | integrity
  deriving DecidableEq, Repr

def stCode : St → Byte
  | .ok => 0 | .busy => 1 | .badArg => 2 | .badState => 3 | .refused => 4 | .notAvailable => 5
  | .timeout => 6 | .authFail => 7 | .noResource => 8 | .late => 9 | .integrity => 0x0A

/-- The window offset of a staging buffer (R38). -/
def bufBase (i : BitVec 2) : Nat := 0xA000 + 0x1000 * i.toNat

/-- The request data in a command's staging buffer (R59). -/
def bufData (h : Hdr) (s : State) : List Byte :=
  if h.buf then memReadN 0 s.win (bufBase h.bufIdx) (min h.length.toNat 4096) else []

/-- R102: LATE in place of OK for a scheduled command that did not act at its time. -/
def lateStatus (h : Hdr) (st : St) (s : State) : St :=
  if st = .ok ∧ h.sched ∧ s.q.acting = some true then .late else st

/-- R62: a response entry. -/
def rspBytes (op : Nat) (h : Hdr) (st : St) (out : Option (List Byte)) (done : Lts) (res : List Byte) : List Byte :=
  leBytes 2 op ++ leBytes 2 h.tag.toNat ++ [stCode st] ++ [boolByte out.isSome]
    ++ leBytes 2 ((out.getD []).length) ++ leBytes 6 done.sf.toNat ++ leBytes 2 (done.sym.toNat / 256)
    ++ padTo 48 res

/-- R57: the response ring has a free entry. -/
def rqFree (h : Hif) : Bool := decide ((h.rqTail - h.rqHead).toNat < 128)

/-- Writes a response at the tail of its ring and sets RESP. -/
def rqPut (tag : Half) (bs : List Byte) (s : State) : State :=
  causeResponse { s with
    win := memWriteN 0 s.win (0x3000 + 64 * (s.hif.rqTail.toNat % 128)) bs,
    hif := { s.hif with rqTail := s.hif.rqTail + 1 },
    q := { s.q with rqTags := s.q.rqTags ++ [tag] } }

/-- R60: the staging buffers that commands still outstanding hold. -/
def busyBits (os : List Outst) : BitVec 4 :=
  os.foldl (fun b o =>
    match o.buf with
    | some i => if o.holds then b ||| (1 <<< i.toNat) else b
    | none => b) 0

def setBusy (s : State) : State := { s with hif := { s.hif with bufBusy := busyBits s.q.outst } }

/-- The oldest unanswered record of a tag is answered and releases its buffer, or is gone when no response will be
consumed. -/
def closeFirst (tag : Half) (quiet : Bool) : List Outst → List Outst
  | [] => []
  | o :: t =>
    if o.tag = tag ∧ o.answered = false then
      if quiet then t else { o with holds := false, answered := true } :: t
    else o :: closeFirst tag quiet t

/-- A command is answered: its record releases its buffer (R58, R60). -/
def closeTag (tag : Half) (quiet : Bool) (s : State) : State :=
  setBusy { s with q := { s.q with outst := closeFirst tag quiet s.q.outst } }

/-- R57, R60: the response is written, or waits for a free entry of the ring (log entry 18). -/
def rspWrite (tag : Half) (bs : List Byte) (s : State) : State :=
  if rqFree s.hif && s.q.rspWait.isEmpty then rqPut tag bs (closeTag tag false s)
  else { s with q := { s.q with rspWait := s.q.rspWait ++ [(tag, bs)] } }

/-- R57: waiting responses enter the ring as the host frees entries. -/
def drainResponses : Nat → State → State
  | 0, s => s
  | n + 1, s =>
    match s.q.rspWait with
    | [] => s
    | r :: t =>
      if rqFree s.hif then
        drainResponses n (rqPut r.1 r.2 (closeTag r.1 false { s with q := { s.q with rspWait := t } }))
      else s

/-- R59: result data go to the command's staging buffer. -/
def putOut (h : Hdr) (out : Option (List Byte)) (s : State) : State :=
  match out with
  | some bs => { s with win := memWriteN 0 s.win (bufBase h.bufIdx) (bs.take 4096) }
  | none => s

/-- A command completes: its result data are put out, and its response is written unless it is quiet and its status is OK (R59,
R62, R102). -/
def respond (op : Nat) (h : Hdr) (st : St) (res : List Byte) (out : Option (List Byte)) (s : State) : State :=
  let st := lateStatus h st s
  let out := if h.buf then out else none
  let s1 := putOut h out s
  if h.quiet && decide (st = .ok) then closeTag h.tag true s1
  else rspWrite h.tag (rspBytes op h st out (nowLts s) res) s1

/-- The result bytes of a refusal: LINE.MODE_SET names no failing bundled entry with 0xFFFF in bytes 20 and 21 (R121). -/
def refusalResult (op : Nat) : List Byte := if op = 0x0301 then result [(20, [0xFF, 0xFF])] else []

/-- A command completes with a status and no result of its effect. -/
def refuse (op : Nat) (h : Hdr) (st : St) (s : State) : State := respond op h st (refusalResult op) none s

end Sys2Proof.Machine
end

