-- ==== Sys2Proof/Machine/Operands.lean ====
section
/-! DEFINITION. The forms of a mailbox command's operands: in which states a command is accepted (R80, R355, R399,
R427), how its request fields are refused, and how it answers. -/
namespace Sys2Proof.Machine

open Sys2Proof

/-- The When column of a command card. -/
inductive When where
  /-- READY = 1, including the recovery state. -/
  | always
  /-- READY = 1. -/
  | ready
  | run
  | runIdle
  | runWatch
  | runIdleWatch
  | runIdleWatchSleep
  deriving DecidableEq, Repr

/-- What the warden does with a command it has taken. -/
inductive Verdict where
  | ignore
  | refuse (st : St)
  | accept
  deriving DecidableEq, Repr

/-- The power states a When column names. -/
def whenHolds (w : When) (st : PState) : Bool :=
  match st with
  | .run => true
  | .idle => !decide (w = .run) && !decide (w = .runWatch)
  | .watch => !decide (w = .run) && !decide (w = .runIdle)
  | .sleep => decide (w = .always) || decide (w = .ready) || decide (w = .runIdleWatchSleep)
  | .deep => false
  | .off => false

/-- R355: the families SLEEP accepts; every other command returns BAD_STATE there (log entry 35). -/
def sleepFamily (op : Nat) : Bool :=
  decide (op / 256 = 1) || decide (op / 256 = 2) || decide (op / 256 = 0xD) || decide (op = 0x0C13)

/-- R35, R427: what BOOT and transitions admit. -/
def transitional (w : When) (op : Nat) : Bool :=
  decide (w = .always) || decide (w = .ready) || decide (op = 0x0201) || decide (op = 0x0202)

/-- R399: what freeze admits besides status and read commands. -/
def freezeFamily (op : Nat) : Bool :=
  decide (op / 256 = 1) || decide (op / 256 = 0xD) || decide (op / 256 = 0xF)

/-- The When column of a command card by opcode (R427). -/
def cardWhen (op : Nat) : When :=
  if op ∈ [0x0101, 0x0D01, 0x0D02, 0x0D03, 0x0D10, 0x0D20] then .always
  else if op ∈ [0x0102, 0x0D04, 0x0F03] then .ready
  else if op ∈ [0x0405, 0x0406, 0x0604, 0x0B06] then .run
  else if op = 0x0301 then .runWatch
  else if op ∈ [0x0201, 0x0202, 0x0204, 0x0C13] then .runIdleWatchSleep
  else if op ∈
      [0x0501, 0x0502, 0x0503, 0x0505, 0x0701, 0x0702, 0x0801, 0x0802, 0x0803, 0x0804, 0x0805, 0x0808, 0x0809,
      0x0820, 0x0821, 0x0822, 0x0823, 0x0901, 0x0905, 0x0906, 0x0907, 0x0B01, 0x0B02, 0x0B03, 0x0B04, 0x0B05,
      0x0B07, 0x0B08, 0x0B09, 0x0B0A, 0x0C03, 0x0C40, 0x0C41, 0x0E01, 0x0E02, 0x0E03, 0x0E04, 0x0E05] then .runIdle
  else .runIdleWatch

/-- The status and read commands, which freeze admits (R399). -/
def cardReads (op : Nat) : Bool :=
  decide (op ∈
      [0x0101, 0x0202, 0x0302, 0x0303, 0x0402, 0x0403, 0x0441, 0x0442, 0x0504, 0x0506, 0x0602, 0x0603, 0x0703,
      0x0704, 0x0801, 0x0806, 0x0807, 0x0823, 0x0902, 0x0903, 0x0904, 0x0A03, 0x0A04, 0x0A08, 0x0B02, 0x0B04,
      0x0B07, 0x0B09, 0x0C01, 0x0C13, 0x0C20, 0x0C30, 0x0C41, 0x0D10, 0x0D20, 0x0E03, 0x0F03])

/-- R2: a command of the cipher family on the variant without a cipher. -/
def cipherAbsent (op : Nat) (s : State) : Bool := decide (op / 256 = 8) && decide (s.ident.variant = .cn)

/-- Whether a command is accepted (R2, R80, R355, R399, R427). A command that is already taken has been judged
(`acting`); a bundled one is judged by R2 alone. In the recovery state R80 is looked at before R2 (DESIGN CHOICE, log
entry 21). -/
def admitted (op : Nat) (s : State) : Verdict :=
  if s.q.acting.isSome then (if cipherAbsent op s then .refuse .notAvailable else .accept)
  else if s.hif.ready = false then .ignore
  else if s.hif.recovery then (if cardWhen op = .always then .accept else .refuse .badState)
  else if cipherAbsent op s then .refuse .notAvailable
  else if s.dbg.frozen ∧ freezeFamily op = false ∧ cardReads op = false then .refuse .badState
  else
    match s.pwr.phase with
    | .steady .sleep => if whenHolds (cardWhen op) .sleep && sleepFamily op then .accept else .refuse .badState
    | .steady st => if whenHolds (cardWhen op) st then .accept else .refuse .badState
    | .entry .deep _ => .ignore
    | .entry .off _ => .ignore
    | .orderlyOff => .ignore
    | .inert => .ignore
    | _ => if transitional (cardWhen op) op then .accept else .refuse .badState

/-- A mailbox command: nothing while no command path takes it, a refusal, or its own effect. -/
def command (op : Nat) (h : Hdr) (s : State) (body : State → State) : Out :=
  .next (match admitted op s with
    | .ignore => s
    | .refuse st => refuse op h st s
    | .accept => body s)

/-- The first refusal whose condition holds. -/
def firstFail : List (Bool × St) → Option St
  | [] => none
  | (b, st) :: t => if b then some st else firstFail t

/-- Refuses a command on the first condition that holds, or lets it take effect. -/
def guarded (op : Nat) (h : Hdr) (fails : List (Bool × St)) (body : State → State) (s : State) : State :=
  match firstFail fails with
  | some st => refuse op h st s
  | none => body s

/-- A command completes with OK and no result. -/
def done (op : Nat) (h : Hdr) (s : State) : State := respond op h .ok [] none s

/-- A command completes with OK and the fields of its card. -/
def reply (op : Nat) (h : Hdr) (fs : List (Nat × List Byte)) (s : State) : State :=
  respond op h .ok (result fs) none s

/-- A status command: the fields of its card, as they stand. -/
def query (op : Nat) (h : Hdr) (s : State) (fs : List (Nat × List Byte)) : Out :=
  command op h s (reply op h fs)

/-- An answer given later than the command ran, LATE or not as the command was (R102, R435). -/
def answerLate (late : Bool) (f : State → State) (s : State) : State :=
  let t := f { s with q := { s.q with acting := some late } }
  { t with q := { t.q with acting := s.q.acting } }

/-- A field of a card from an unsigned number. -/
def fld (off n v : Nat) : Nat × List Byte := (off, leBytes n v)

/-- A field of a card from a signed number. -/
def fldI (off n : Nat) (v : Int) : Nat × List Byte := (off, intBytes n v)

/-- Event data from numbers: offset, length, value. -/
def ev (fs : List (Nat × List Byte)) : List Byte := eventData fs

/-- Reserved bits of a flags byte are zero. -/
def reservedClear (flags : Byte) (used : Byte) : Bool := decide (flags &&& ~~~ used = 0)

def bitOf (b : Byte) (i : Nat) : Bool := b.getLsbD i

/-- The instance number of an event that concerns the whole module. -/
def noInstance : Half := 0xFFFF

end Sys2Proof.Machine
end

