-- ==== Sys2Proof/Machine/Rates.lean ====
section
/-! DEFINITION. Line modes and the rate formula (chapter 4): the mode table, the net and transport rates as exact
fractions, the FLEX bounds, and what the front end and the equaliser derive from the symbol rate. -/
namespace Sys2Proof.Machine

open Sys2Proof

/-- R109: the fixed modes by code. -/
def fixedMode (code : Byte) : Option LMode :=
  if code = 0x01 then some ⟨0x01, 272000000, 1, 1, 22013, 120⟩
  else if code = 0x02 then some ⟨0x02, 272000000, 1, 2, 19769, 100⟩
  else if code = 0x03 then some ⟨0x03, 272000000, 1, 3, 17454, 80⟩
  else if code = 0x04 then some ⟨0x04, 240000000, 0, 3, 13934, 60⟩
  else if code = 0x05 then some ⟨0x05, 200000000, 0, 3, 11803, 40⟩
  else if code = 0x06 then some ⟨0x06, 59843750, 0, 0xFF, 16384, 0⟩
  else none

/-- R86: the nominal rate of line time without a traffic mode, in kBd. -/
def nominalRate : Nat := 272000000

def isZr (m : LMode) : Bool := decide (m.code = 0x06)

/-- A slot mode (R115). -/
def isSlotMode (m : LMode) : Bool := !isZr m

/-- R110: bits per 2D symbol of the base. -/
def baseBits (base : Byte) : Nat := if base = 0 then 4 else 6

/-- R109: the parity share 1 - r of an overhead code, as a fraction. -/
def parity (ovh : Byte) : Nat × Nat :=
  if ovh = 0 then (1, 10) else if ovh = 1 then (3, 23) else if ovh = 2 then (1, 6) else (1, 5)

/-- R110: the net rate in bit/s as a numerator; its denominator is `netDen`. -/
def netNum (m : LMode) : Nat :=
  2 * m.rate * 1000 * 8001 * (m.h * (parity m.ovh).2 - (parity m.ovh).1 * baseBits m.base * 4096)

def netDen (m : LMode) : Nat := 8192 * 4096 * (parity m.ovh).2

/-- R111: the transport rate of a slot count in bit/s, over 65,280. -/
def transNum (slots : Nat) : Nat := slots * 20250000000 * 65536

/-- The nearest whole number to a fraction (log entry 20). -/
def nearest (n d : Nat) : Nat := (2 * n + d) / (2 * d)

/-- Net and transport rates in Mb/s; zero in ZR400, where the native formula does not apply (R435). -/
def netMbps (m : LMode) : Nat := if isZr m then 0 else nearest (netNum m) (netDen m * 1000000)

def transMbps (m : LMode) : Nat := if isZr m then 0 else nearest (transNum m.slots) (65280 * 1000000)

/-- R113: the largest slot count, up to 120, whose transport rate does not exceed the net rate. -/
def flexSlots (m : LMode) : Nat := min 120 (netNum m * 65280 / (netDen m * (20250000000 * 65536)))

/-- R112: the net rate exceeds the transport rate by at least B * 2^-17 bit/s. -/
def sfohFits (m : LMode) : Bool :=
  decide ((transNum m.slots * 131072 + m.rate * 1000 * 65280) * netDen m ≤ netNum m * (65280 * 131072))

/-- R112: the bounds of FLEX. -/
def flexBounds (p : FlexReq) : Bool :=
  decide (36000 ≤ p.bMBd.toNat) && decide (p.bMBd.toNat ≤ 272000) && decide (p.base.toNat ≤ 1)
    && decide (p.overhead.toNat ≤ 3)
    && (if p.base = 0 then decide (10240 ≤ p.h.toNat) && decide (p.h.toNat ≤ 16179)
        else decide (15975 ≤ p.h.toNat) && decide (p.h.toNat ≤ 24166))

/-- R112: the codeword bit rate is at most 3,190 Gb/s. -/
def codewordFits (m : LMode) : Bool :=
  decide (2 * m.rate * 1000 * 8001 * baseBits m.base ≤ 3190000000000 * 8192)

/-- R112, R113: a FLEX mode from its request, none outside the bounds. -/
def flexMode (p : FlexReq) : Option LMode :=
  if flexBounds p then
    let m : LMode := ⟨0x07, p.bMBd.toNat * 1000, p.base, p.overhead, p.h.toNat, 0⟩
    let m := { m with slots := flexSlots m }
    if decide (5 ≤ m.slots) && sfohFits m && codewordFits m then some m else none
  else none

/-- Bytes 18 to 25 of LINE.MODE_SET are zero for every code but FLEX (R121). -/
def flexZero (p : FlexReq) : Bool :=
  decide (p.overhead = 0) && decide (p.base = 0) && decide (p.bMBd = 0) && decide (p.h = 0)

/-- R141: half-band stages from the symbol rate in kBd. -/
def stagesOf (rate : Nat) : Nat :=
  if 160000000 * 8 ≤ rate * 9 then 0 else if 80000000 * 8 ≤ rate * 9 then 1 else 2

/-- R141: the nominal resampler ratio in Q2.30. -/
def rhoQ30 (rate : Nat) : Nat := nearest (rate * 9 * 2 ^ stagesOf rate * 2 ^ 30) (8 * 320000000)

/-- R147: output samples marked VALID = 0 after a start of the receive chain. -/
def invalidOutputs (rate : Nat) : Nat :=
  if stagesOf rate = 0 then 24 else if stagesOf rate = 1 then 48 else 60

/-- R147: the symbols that those samples cover, rounded outward. -/
def invalidSymbols (n : Nat) : Nat := (8 * n + 8) / 9

/-- R109: slots of the mode in effect. -/
def slotsNow (s : State) : Nat := match s.line.cur with | some m => m.slots | none => 0

/-- The mode in effect is a slot mode. -/
def slotModeNow (s : State) : Bool := match s.line.cur with | some m => isSlotMode m | none => false

def zrNow (s : State) : Bool := match s.line.cur with | some m => isZr m | none => false

/-- The symbol rate of the mode in effect, nominal without one (R86). -/
def rateNow (s : State) : Nat := match s.line.cur with | some m => m.rate | none => nominalRate

/-- Half-band stages of the running mode, zero without one. -/
def stagesNow (s : State) : Nat := match s.line.cur with | some m => stagesOf m.rate | none => 0

/-- R119: a mode change is between C and its end. -/
def changing (s : State) : Bool := match s.line.change with | some c => decide (1 ≤ c.phase) | none => false

end Sys2Proof.Machine
end

