-- ==== Sys2Proof/Machine/Coding.lean ====
section
/-! DEFINITION. The coding of the line and of the host lanes as functions of bits (chapters 6 to 9 and 11): symbol frames,
the matcher, the codewords and their two codes, the stream of a superframe, and lane frames. No command hands over those bits
(log entry 3), so the commands read its sizes and the overhead of a superframe only; the rest says what stands on the fibre and
on the lanes. -/
namespace Sys2Proof.Machine

open Sys2Proof

/-! ### Symbol frames (R151, R152) -/

/-- What a symbol of a frame carries (R151): a training symbol, a pilot or a data symbol, each with its count. -/
inductive SymbolUse where
  | training (k : Nat)
  | pilot (j : Nat)
  | data (d : Nat)
  deriving DecidableEq, Repr

/-- R151: the layout of a frame of 65,536 symbols. -/
def symbolUse (idx : Nat) : SymbolUse :=
  if idx < 512 then .training idx
  else if (idx - 512) % 64 = 0 then .pilot ((idx - 512) / 64)
  else .data (63 * ((idx - 512) / 64) + (idx - 512) % 64 - 1)

/-- R152: two bits to a QPSK point, in units of 1/√2. -/
def qpsk (b0 b1 : Bool) : Int × Int := (if b0 then -1 else 1, if b1 then -1 else 1)

/-- Bits taken in pairs as QPSK points. -/
def qpskSymbols : List Bool → List (Int × Int)
  | b0 :: b1 :: t => qpsk b0 b1 :: qpskSymbols t
  | _ => []

/-- R152: the training word of a frame: the S form in frame 0, the N form in the others. -/
def trainingWord (frame : Nat) (polY : Bool) : List (Int × Int) :=
  qpskSymbols (trainBits 1024 (trainSeed (decide (frame = 0)) polY))

/-- R152: the pilots of every frame. -/
def pilotWord (polY : Bool) : List (Int × Int) := qpskSymbols (trainBits 2032 (pilotSeed polY))

/-- R178: where data symbol `n` of a superframe stands, in the order of the matcher: increasing symbol index, X before Y.
The answer is the symbol index of the superframe, and whether it is on Y. -/
def dataSymbolPlace (n : Nat) : Nat × Bool :=
  let d := n / 2 % 64008
  (n / 2 / 64008 * 65536 + 512 + d / 63 * 64 + d % 63 + 1, decide (n % 2 = 1))

/-- R153: in ZR400 the frame, its pilots and its training symbols are the agreement's. -/
def zrSymbolUse (idx : Nat) : SymbolUse :=
  if Config.zrUse idx = 0 then .data idx else if Config.zrUse idx = 1 then .pilot idx else .training idx

/-! ### The matcher (R177 to R179) -/

/-- R177: the amplitude alphabet of a base. -/
def alphabet (base : Byte) : List Nat := if base = 0 then [1, 3] else [1, 3, 5, 7]

/-- R177: the label of an amplitude, first bit first. -/
def ampLabel (base : Byte) (a : Nat) : List Bool :=
  if base = 0 then [decide (a = 3)] else [decide (a = 5) || decide (a = 7), decide (a = 3) || decide (a = 5)]

/-- R177: the amplitude of a label. -/
def labelAmp : List Bool → Nat
  | [b] => if b then 3 else 1
  | [b, c] => if b then (if c then 5 else 7) else (if c then 3 else 1)
  | _ => 0

/-- The energy of an amplitude above that of amplitude 1, in units of 8. -/
def ampEnergy (a : Nat) : Nat := (a * a - 1) / 8

/-- From the counts of sequences within each energy to those of sequences one amplitude longer. -/
def countLonger (amps row : List Nat) : List Nat :=
  amps.foldl (fun acc a => List.zipWith (· + ·) acc (List.replicate (ampEnergy a) 0 ++ row))
    (List.replicate row.length 0)

/-- For lengths `n` down to 0: how many sequences have an energy of at most 0, 1, 2, … up to `lim`. -/
def countRows (amps : List Nat) (lim : Nat) : Nat → List (List Nat)
  | 0 => [List.replicate (lim + 1) 1]
  | n + 1 =>
    let rows := countRows amps lim n
    countLonger amps (rows.headD []) :: rows

/-- The counts for sequences of `n` amplitudes of a base. -/
def shapeRows (base : Byte) (n : Nat) : List (List Nat) :=
  countRows (alphabet base) (n * ampEnergy ((alphabet base).getLastD 1)) n

/-- R179 step 1: the smallest energy within which at least 2^k sequences lie. E_max is n + 8 times it. -/
def energyLimit (rows : List (List Nat)) (k : Nat) : Nat :=
  (rows.headD []).findIdx fun c => decide (2 ^ k ≤ c)

/-- How many sequences of a row's length stay within an energy after an amplitude is spent. -/
def countAfter (row : List Nat) (e a : Nat) : Nat := if ampEnergy a ≤ e then row.getD (e - ampEnergy a) 0 else 0

/-- The amplitude that a rank begins with, and the rank among the sequences that begin so. -/
def pickAmp (row : List Nat) (e : Nat) : List Nat → Nat → Nat × Nat
  | [], v => (1, v)
  | [a], v => (a, v)
  | a :: b :: t, v => if v < countAfter row e a then (a, v) else pickAmp row e (b :: t) (v - countAfter row e a)

/-- R179 step 3: the sequence of a rank, in lexicographic order, smaller amplitudes first. -/
def unrank (amps : List Nat) : List (List Nat) → Nat → Nat → List Nat
  | [], _, _ => []
  | row :: rows, e, v =>
    (pickAmp row e amps v).1
      :: unrank amps rows (e - ampEnergy (pickAmp row e amps v).1) (pickAmp row e amps v).2

/-- The rank of a sequence: what the receiver computes (R179). -/
def rankOf (amps : List Nat) : List (List Nat) → Nat → List Nat → Nat
  | row :: rows, e, a :: t =>
    ((amps.takeWhile fun x => decide (x < a)).map (countAfter row e)).sum
      + rankOf amps rows (e - ampEnergy a) t
  | _, _, _ => 0

/-- R179: `n` amplitudes from the k information bits of a sub-block. -/
def shape (base : Byte) (n : Nat) (bits : List Bool) : List Nat :=
  let rows := shapeRows base n
  unrank (alphabet base) rows.tail (energyLimit rows bits.length) (natOfBits bits)

/-- R179: the k information bits from a sub-block's amplitudes. -/
def unshape (base : Byte) (k : Nat) (amps : List Nat) : List Bool :=
  let rows := shapeRows base amps.length
  let v := rankOf (alphabet base) rows.tail (energyLimit rows k) amps
  (List.range k).map fun i => v.testBit (k - 1 - i)

/-- The energy of all sequences of a row's length within an energy, in units of 8 above that of amplitude 1. -/
def energyWithin (row : List Nat) (e : Nat) : Nat := e * row.getD e 0 - (row.take e).sum

/-- The energy of the `v` sequences of lowest rank that begin with one of some amplitudes. -/
def energyBelow (amps : List Nat) : List (List Nat) → Nat → Nat → Nat
  | [], _, _ => 0
  | row :: rows, e, v =>
    (amps.foldl (fun (acc : Nat × Nat) a =>
      let c := countAfter row e a
      if acc.2 = 0 then acc
      else if c ≤ acc.2 then (acc.1 + c * ampEnergy a + (if ampEnergy a ≤ e then energyWithin row (e - ampEnergy a) else 0), acc.2 - c)
      else (acc.1 + acc.2 * ampEnergy a + energyBelow amps rows (e - ampEnergy a) acc.2, 0)) (0, v)).1

/-- The mean of the sum of squared amplitudes of a sub-block of k bits, over 2^k. -/
def subBlockEnergy (base : Byte) (k : Nat) : Nat :=
  let rows := shapeRows base 128
  128 * 2 ^ k + 8 * energyBelow (alphabet base) rows.tail (energyLimit rows k) (2 ^ k)

/-- R179: the information bits of a DM frame at a programmed entropy of h / 4,096. -/
def dmBits (h : Nat) : Nat := h - 8192

/-- R179: the bits of sub-block `i`: the first K mod 64 sub-blocks carry one more. -/
def subBlockBits (k i : Nat) : Nat := k / 64 + (if i < k % 64 then 1 else 0)

/-- Sub-blocks `i`, `i + 1`, … of a DM frame, `n` of them. -/
def dmSubBlocks (base : Byte) (k i : Nat) : Nat → List Bool → List Nat
  | 0, _ => []
  | n + 1, bits =>
    shape base 128 (bits.take (subBlockBits k i)) ++ dmSubBlocks base k (i + 1) n (bits.drop (subBlockBits k i))

/-- R151, R180: the square of the scale of the data constellation, a function of the base and of H: one over the mean power of a data
symbol, since training symbols and pilots have power one already. Numerator and denominator. -/
def scaleSquared (base : Byte) (h : Nat) : Nat × Nat :=
  let k := dmBits h / 64
  let r := dmBits h % 64
  (4096 * 2 ^ (k + 1), r * subBlockEnergy base (k + 1) + 2 * (64 - r) * subBlockEnergy base k)

/-- The bits of sub-blocks `i`, `i + 1`, … of a DM frame, `n` of them, from their amplitudes. -/
def dmUnblocks (base : Byte) (k i : Nat) : Nat → List Nat → List Bool
  | 0, _ => []
  | n + 1, amps => unshape base (subBlockBits k i) (amps.take 128) ++ dmUnblocks base k (i + 1) n (amps.drop 128)

/-- R179: the K information bits of a DM frame from its amplitudes. -/
def dmUnframe (base : Byte) (h : Nat) (amps : List Nat) : List Bool := dmUnblocks base (dmBits h) 0 64 amps

/-- R178, R179: the 8,192 amplitudes of a DM frame, I before Q in each 2D symbol. -/
def dmFrame (base : Byte) (h : Nat) (bits : List Bool) : List Nat := dmSubBlocks base (dmBits h) 0 64 bits

/-! ### Codewords (R203 to R206) -/

/-- A column of a codeword: bit c of the column is bit c of the vector. -/
abbrev Column := BitVec 128

/-- R203: columns of amplitude labels. -/
def labelColumns (base : Byte) : Nat := if base = 0 then 120 else 160

/-- R204: codeword t of a chain is of type B. -/
def isTypeB (t : Nat) : Bool := decide (7 * t % 23 < 16)

/-- R204: the inner-parity columns of codeword t. -/
def innerColumns (ovh : Byte) (t : Nat) : Nat :=
  if ovh = 0 then 23 else if ovh = 1 then (if isTypeB t then 30 else 31) else if ovh = 2 then 39 else 47

/-- R203: columns of sign information of codeword t. -/
def signColumns (base ovh : Byte) (t : Nat) : Nat := 239 - innerColumns ovh t - labelColumns base

/-- R205: 2D data symbols of a codeword. -/
def codewordSymbols (base : Byte) : Nat := 30720 / baseBits base

/-- R205: the codeword bits of the label of I, of the label of Q, of the sign of I and of the sign of Q in symbol i. -/
def symbolBits (base : Byte) (i : Nat) : List Nat × List Nat × Nat × Nat :=
  let w := (baseBits base - 2) / 2
  ((List.range w).map (2 * w * i + ·), (List.range w).map (2 * w * i + w + ·),
    128 * labelColumns base + i, 128 * labelColumns base + codewordSymbols base + i)

/-- Bits as columns of 128, bit 128 c + r in row r of column c (R203). -/
def toColumns : Nat → List Bool → List Column
  | 0, _ => []
  | n + 1, bits => BitVec.ofNat 128 (natOfBitsLsb (bits.take 128)) :: toColumns n (bits.drop 128)

/-- The bits of columns, in the order of R203. -/
def columnBits (cols : List Column) : List Bool :=
  cols.flatMap fun c => (List.range 128).map fun r => c.getLsbD r

/-- R177, R205: the signed I and Q values of symbol i of a codeword, before scaling. -/
def symbolValue (base : Byte) (bits : List Bool) (i : Nat) : Int × Int :=
  let (li, lq, si, sq) := symbolBits base i
  let value (l : List Nat) (sg : Nat) : Int :=
    let a : Int := labelAmp (l.map fun b => bits.getD b false)
    if bits.getD sg false then -a else a
  (value li si, value lq sq)

/-- R209: codeword and symbol within it of data symbol `n` of a coupled chain. -/
def codewordOf (base : Byte) (n : Nat) : Nat × Nat := (n / codewordSymbols base, n % codewordSymbols base)

/-! ### The inner code (R207) -/

/-- R207: row block and shift of systematic column k of the codeword i places before the position, q row blocks. -/
def innerPlace (q i k : Nat) : Nat × Nat := ((k + 11 * i) % q, (37 * k * (i + 1) + 53 * i) % 128)

/-- Adds the systematic columns of one codeword, from column k on, to row block j of a position. -/
def innerSum (q i j : Nat) : Nat → List Column → Column
  | _, [] => 0
  | k, c :: t =>
    (if (innerPlace q i k).1 = j then c.rotateRight (innerPlace q i k).2 else 0) ^^^ innerSum q i j (k + 1) t

/-- R207: what the systematic columns of codewords t, t - 1 and t - 2 put into row block j of position t. -/
def innerChecks (q j : Nat) (sys prev1 prev2 : List Column) : Column :=
  innerSum q 0 j 0 sys ^^^ innerSum q 1 j 0 prev1 ^^^ innerSum q 2 j 0 prev2

/-- The inner-parity columns of row blocks j, j + 1, … from the column before: each row block sums to zero. -/
def innerSolve (check : Nat → Column) : Nat → Nat → Column → List Column
  | 0, _, _ => []
  | n + 1, j, before => (check j ^^^ before) :: innerSolve check n (j + 1) (check j ^^^ before)

/-- R207: the inner-parity columns of position t. -/
def innerParity (q : Nat) (sys prev1 prev2 : List Column) : List Column :=
  innerSolve (fun j => innerChecks q j sys prev1 prev2) q 0 0

/-- The row blocks j, j + 1, … that parity columns leave: all zero where every check sums to zero. -/
def innerResidual (check : Nat → Column) : Nat → Column → List Column → List Column
  | _, _, [] => []
  | j, before, c :: t => (check j ^^^ before ^^^ c) :: innerResidual check (j + 1) c t

/-- R207, R213: the inner syndrome of a position is zero. -/
def innerClean (q : Nat) (sys prev1 prev2 par : List Column) : Bool :=
  (innerResidual (fun j => innerChecks q j sys prev1 prev2) 0 0 par).all fun c => decide (c = 0)

/-! ### The outer code (R208) -/

/-- The product of `a` and the `n` low bits of `b` in GF(2^w), the field polynomial without its highest term. -/
def gfMul (w poly a b : Nat) : Nat → Nat
  | 0 => 0
  | n + 1 =>
    let rest := gfMulShift w poly (gfMul w poly a (b / 2) n)
    if b % 2 = 1 then Nat.xor rest a else rest
where
  /-- Multiplication by x. -/
  gfMulShift (w poly v : Nat) : Nat := if v.testBit (w - 1) then Nat.xor (v * 2 % 2 ^ w) poly else v * 2

/-- GF(2^16) on x^16 + x^5 + x^3 + x^2 + 1 (R208). -/
def mul16 (a b : Nat) : Nat := gfMul 16 0x002D a b 16

/-- A polynomial, lowest coefficient first, times (x + r). -/
def timesRoot (mul : Nat → Nat → Nat) (r : Nat) (p : List Nat) : List Nat :=
  List.zipWith Nat.xor (0 :: p) (p.map (mul r) ++ [0])

/-- The product of (x + r), (x + r^2), (x + r^4), …, `n` factors. -/
def conjugates (r : Nat) : Nat → List Nat → List Nat
  | 0, p => p
  | n + 1, p => conjugates (mul16 r r) n (timesRoot mul16 r p)

/-- The minimal polynomial of an element of GF(2^16) of degree 16, as bits. -/
def minimalPoly (r : Nat) : Nat := (conjugates r 16 [1]).foldr (fun c a => 2 * a + c % 2) 0

/-- A product of polynomials over GF(2), `n` bits of the second. -/
def polyMul (a b : Nat) : Nat → Nat
  | 0 => 0
  | n + 1 => Nat.xor (if b % 2 = 1 then a else 0) (2 * polyMul a (b / 2) n)

/-- R208: products of the minimal polynomials of r, r x^2, r x^4, …, `n` of them. -/
def outerProduct : Nat → Nat → Nat → Nat
  | 0, _, g => g
  | n + 1, r, g => outerProduct n (mul16 r 4) (polyMul g (minimalPoly r) 17)

/-- R208: the generator, of degree 128. -/
def outerGen : Nat := outerProduct 8 2 1

/-- R208: the outer-parity column: the remainder, its highest coefficient in row 0. -/
def outerParity (gen : Nat) (data : List Bool) : Column :=
  BitVec.ofNat 128 (reflect 128 (data.foldl (crcBit 128 (gen % 2 ^ 128)) 0))

/-! ### From information bits to symbols (R206) -/

/-- The columns of codeword t of a chain: its labels and sign information, the outer parity, the inner parity (R203). -/
def encodeCodeword (ovh : Byte) (t : Nat) (labels signs : List Bool) (prev1 prev2 : List Column) :
    List Column :=
  let p := innerColumns ovh t
  let data := labels ++ signs
  let sys := toColumns (239 - p) data ++ [outerParity outerGen data]
  sys ++ innerParity p sys prev1 prev2

/-- DM frames whose first symbol stands from symbol `a` on and before symbol `b` of a chain. -/
def dmStarts (a b : Nat) : Nat := (b + 4095) / 4096 - (a + 4095) / 4096

/-- The amplitudes of the next `n` DM frames, and the bits after theirs. -/
def dmFrames (base : Byte) (h : Nat) : Nat → List Bool → List Nat × List Bool
  | 0, bits => ([], bits)
  | n + 1, bits =>
    let rest := dmFrames base h n (bits.drop (dmBits h))
    (dmFrame base h (bits.take (dmBits h)) ++ rest.1, rest.2)

/-- R219: the error injector flips each coded bit whose draw lies below the set probability; `pos` bits have been drawn. -/
def injectErrors (on : Bool) (ber pos : Nat) (bits : List Bool) : List Bool :=
  if on then bits.mapIdx fun i b => xor b (decide (Config.injectDraw (pos + i) % 10000000 < ber)) else bits

/-- R205, R206: the symbols of codewords t, t + 1, … of a chain, `n` of them, from the information bits left and the
amplitudes that the DM frames begun have left over; a DM frame that starts with a codeword takes its bits first. What is sent of a
codeword's bits is `sent` of them (R219). -/
def encodeChain (base ovh : Byte) (h : Nat) (sent : Nat → List Bool → List Bool) :
    Nat → Nat → List Nat → List Column → List Column → List Bool → List (Int × Int)
  | 0, _, _, _, _, _ => []
  | n + 1, t, left, prev1, prev2, bits =>
    let ns := codewordSymbols base
    let first := if t * ns % 4096 = 0 then 1 else 0
    let (amps0, bits) := dmFrames base h first bits
    let signs := bits.take (128 * signColumns base ovh t)
    let (amps1, bits) := dmFrames base h (dmStarts (t * ns) ((t + 1) * ns) - first) (bits.drop signs.length)
    let amps := left ++ amps0 ++ amps1
    let cols := encodeCodeword ovh t ((amps.take (2 * ns)).flatMap (ampLabel base)) signs prev1 prev2
    let all := sent t (columnBits cols)
    (List.range ns).map (symbolValue base all)
      ++ encodeChain base ovh h sent n (t + 1) (amps.drop (2 * ns)) (cols.take (240 - innerColumns ovh t)) prev1 bits

/-- R178: the 2D data symbols of a superframe. -/
def superframeSymbols : Nat := 32772096

/-- R209: the data symbols of a chain of `n` superframes: its codewords follow one another from the first data symbol, and the one
in progress at the end is cut off there. -/
def chainSymbols (base ovh : Byte) (h n : Nat) (sent : Nat → List Bool → List Bool) (bits : List Bool) : List (Int × Int) :=
  (encodeChain base ovh h sent ((n * superframeSymbols + codewordSymbols base - 1) / codewordSymbols base) 0 [] [] [] bits).take
    (n * superframeSymbols)

/-- The amplitudes that the bits of a codeword carry (R203, R205). -/
def codewordAmps (base : Byte) (bits : List Bool) : List Nat :=
  let w := (baseBits base - 2) / 2
  (List.range (2 * codewordSymbols base)).map fun i => labelAmp ((bits.drop (w * i)).take w)

/-- The bits of the next `n` DM frames, and the amplitudes after theirs. -/
def dmUnframes (base : Byte) (h : Nat) : Nat → List Nat → List Bool × List Nat
  | 0, amps => ([], amps)
  | n + 1, amps =>
    let rest := dmUnframes base h n (amps.drop 8192)
    (dmUnframe base h (amps.take 8192) ++ rest.1, rest.2)

/-- R206: the receiver rebuilds the stream in the order in which the encoder took it, from the sign information of codewords t, t + 1,
… and all their amplitudes. -/
def rebuild (base ovh : Byte) (h : Nat) : Nat → List Nat → List (List Bool) → List Bool
  | _, _, [] => []
  | t, amps, signs :: more =>
    let ns := codewordSymbols base
    let first := if t * ns % 4096 = 0 then 1 else 0
    let a := dmUnframes base h first amps
    let b := dmUnframes base h (dmStarts (t * ns) ((t + 1) * ns) - first) a.2
    a.1 ++ signs ++ b.1 ++ rebuild base ovh h (t + 1) b.2 more

/-- R206: the information bits of the codewords of a chain from its first. -/
def rebuildChain (base ovh : Byte) (h : Nat) (codewords : List (List Bool)) : List Bool :=
  rebuild base ovh h 0 (codewords.flatMap (codewordAmps base))
    (codewords.mapIdx fun t c => (c.drop (128 * labelColumns base)).take (128 * signColumns base ovh t))

/-- R222: the 16 bytes of the symbol-frame overhead. -/
def sfohBytes (fbytes next : Nat) (tsp : Option Nat) (code : Byte) : List Byte :=
  let body := beBytes 4 fbytes ++ beBytes 4 next ++ beBytes 2 (tsp.getD 0) ++ [code, boolByte tsp.isSome]
  body ++ leBytes 4 (check0 body)

/-- R221: the information stream of a superframe of `n` bits: overhead, framer bytes, fill. -/
def superframeBits (n : Nat) (sfoh framer : List Byte) : List Bool :=
  let body := bitsOf sfoh ++ bitsOf framer
  body ++ fillBits (n - body.length)

/-! ### Lane frames (R287 to R291) -/

/-- R287: the level of a PAM4 symbol from its two bits, the earlier first. -/
def pamLevel (b0 b1 : Bool) : Nat := if b0 then (if b1 then 2 else 3) else (if b1 then 1 else 0)

/-- Bits taken in pairs as PAM4 levels. -/
def pamSymbols : List Bool → List Nat
  | b0 :: b1 :: t => pamLevel b0 b1 :: pamSymbols t
  | _ => []

/-- R287: the symbols of a lane at a step: NRZ at S0, PAM4 above. -/
def laneSymbols (step : Nat) (bits : List Bool) : List Nat :=
  if step = 0 then bits.map (·.toNat) else pamSymbols bits

/-- R291: the stuff symbol after 31 symbols of one level. -/
def stuffLevel (step v : Nat) : Nat := if step = 0 then 1 - v else (v + 2) % 4

/-- The run of equal symbols after one more symbol. -/
def runAfter (run : Nat × Nat) (x : Nat) : Nat × Nat := (x, if x = run.1 then run.2 + 1 else 1)

/-- R291: stuffing, with the level and the length of the run sent so far (log entry 46). -/
def stuff (step : Nat) : Nat × Nat → List Nat → List Nat
  | run, [] => if run.2 = 31 then [stuffLevel step run.1] else []
  | run, x :: t =>
    if run.2 = 31 then
      stuffLevel step run.1 :: x :: stuff step (runAfter (stuffLevel step run.1, 1) x) t
    else x :: stuff step (runAfter run x) t

/-- R291: the receiver discards the symbol after 31 equal ones. -/
def unstuff : Nat × Nat → List Nat → List Nat
  | _, [] => []
  | run, x :: t => if run.2 = 31 then unstuff (x, 1) t else x :: unstuff (runAfter run x) t

/-- GF(2^10) on x^10 + x^3 + 1, the field of RS(544,514) (R288, IEEE 802.3 Clause 91). PRESUMED, log entry 46. -/
def mul10 (a b : Nat) : Nat := gfMul 10 0x009 a b 10

/-- The generator of RS(544,514), lowest coefficient first: roots 1, 2, 4, … (30 of them). -/
def rsRoots : Nat → Nat → List Nat → List Nat
  | 0, _, p => p
  | n + 1, r, p => rsRoots n (mul10 r 2) (timesRoot mul10 r p)

/-- Its 30 coefficients below the highest, highest first. -/
def rsGen : List Nat := (rsRoots 30 1 [1]).reverse.tail

/-- One message symbol: the remainder, highest coefficient first. -/
def rsStep (gen rem : List Nat) (m : Nat) : List Nat :=
  let f := Nat.xor m (rem.headD 0)
  List.zipWith Nat.xor (rem.tail ++ [0]) (gen.map (mul10 f))

/-- The 30 parity symbols of 514 message symbols (R288). -/
def rsParity (msg : List Nat) : List Nat := msg.foldl (rsStep rsGen) (List.replicate 30 0)

/-- R288: bits as symbols of 10, the first of them symbol bit 0. -/
def rsSymbols : Nat → List Bool → List Nat
  | 0, _ => []
  | n + 1, bits => natOfBitsLsb (bits.take 10) :: rsSymbols n (bits.drop 10)

/-- R288: a codeword of 5,440 bits from 5,140 payload bits. -/
def rsCodeword (bits : List Bool) : List Bool :=
  bits ++ (rsParity (rsSymbols 514 bits)).flatMap fun y => (List.range 10).map y.testBit

/-- The low `n` bits of a number, most significant first. -/
def msbBits (n v : Nat) : List Bool := (List.range n).map fun i => v.testBit (n - 1 - i)

/-- R289: the 257 bits of a lane frame header. -/
def laneHeader (lane lfc : Nat) (tags : List Nat) (step : Nat) (rdi : Bool) : List Bool :=
  msbBits 32 0x78C6936C ++ msbBits 4 lane ++ msbBits 8 lfc ++ List.replicate 4 false
    ++ tags.flatMap (msbBits 5) ++ msbBits 3 step ++ [rdi] ++ List.replicate 10 false

/-- R288: header and positions to the 10,880 bits of a lane frame: scrambled from bit 48 on, then the two codewords. -/
def laneFrameBits (lane : Nat) (header : List Bool) (positions : List (List Bool)) : List Bool :=
  let payload := header ++ positions.flatten
  let sent := payload.take 48 ++ laneScramble lane (payload.drop 48)
  rsCodeword (sent.take 5140) ++ rsCodeword (sent.drop 5140)

/-- R292: a lane frame interval: what a lane's frame leaves of it is filled with pad symbols of levels 0 and 3 alternately. -/
def laneInterval (longest : Nat) (symbols : List Nat) : List Nat :=
  symbols ++ (List.range (longest - symbols.length)).map fun i => if i % 2 = 0 then 0 else 3

/-- R294: blocks with their ports in the earliest free positions of an interval of the link, the control block first if there is one;
the rest is idle. A position is its tag and its 257 bits. -/
def layPositions (lanes : Nat) (control : Option (List Bool)) (blocks : List (Nat × List Bool)) : List (Nat × List Bool) :=
  let first := match control with | some b => [(30, b)] | none => []
  let used := (first ++ blocks).take (39 * lanes)
  used ++ List.replicate (39 * lanes - used.length) (31, List.replicate 257 false)

/-- R288, R291: the symbols of a lane frame, stuffed. -/
def laneFrameSymbols (step lane : Nat) (header : List Bool) (positions : List (List Bool)) : List Nat :=
  stuff step (0, 0) (laneSymbols step (laneFrameBits lane header positions))

end Sys2Proof.Machine
end

