-- ==== Sys2Proof/Machine/Chains.lean ====
section
/-! DEFINITION. What the chapters share about the two chains: raw defect conditions (R170, R234), the equaliser's
moves (R168, R169), the decoder's and the framer's losses (R217, R230), the optical state (R196 to R198), and the stops
and starts of the receive and transmit chains (R117, R144, R198). -/
namespace Sys2Proof.Machine

open Sys2Proof

/-! ### Raw conditions -/

/-- A raw condition takes a level; the level's start is kept (R234). -/
def rawLevel (b : Bool) (t : Lts) (i : Integ) : Integ :=
  if i.raw = b then i else { i with raw := b, since := t, run := 0 }

/-- The raw conditions of dLOS, dLOA, dLOSF, dOOF and dLOF as the blocks stand (R128, R170, R230, R234), with the stamp of what
changed them. -/
def refreshRawsAt (t : Lts) (s : State) : State :=
  let f := s.tf
  { s with tf := { f with
      los := rawLevel s.fe.rawLos t f.los,
      loa := rawLevel (decide (s.eq.st ≠ 8) && !s.fe.rawLos) t f.loa,
      losf := rawLevel s.eq.rawLosf t f.losf,
      oof := rawLevel (decide (f.st ≠ 3) && s.line.cur.isSome) t f.oof,
      lof := rawLevel f.oof.set t f.lof } }

/-- The same, at the present LTS. -/
def refreshRaws (s : State) : State := refreshRawsAt s.time.lts s

/-! ### The local oscillator and the optical state -/

def optCode : Opt → Nat
  | .dark => 0 | .tuning => 1 | .blank => 2 | .null => 3 | .lit => 4 | .shut => 5

/-- R126, R196: the local oscillator is present only in BLANK, NULL and LIT. -/
def loPresent (s : State) : Bool :=
  match s.tx.st with
  | .blank => true
  | .null => true
  | .lit => true
  | _ => false

/-- A change of optical state with its reason and stamp (R196, R202); TX_STATE is not raised within a pulse cycle of R199. The power
of LIT starts at the set power (R194), and drift counts from there (R189). -/
def txMoveAt (t : Lts) (st : Opt) (reason : Nat) (quiet : Bool) (s : State) : State :=
  if s.tx.st = st then s
  else
    let s' := { s with tx := { s.tx with
        st := st, reason := reason, powerNow := if st = .lit then s.tx.power else s.tx.powerNow,
        beyond := [none, none, none, none, none, none] } }
    if quiet then s'
    else notifyAt 0x0501 noInstance none
      (ev [fld 20 1 (optCode st), fld 21 1 (optCode s.tx.st), fld 22 1 reason]) t s'

/-- R202: the change carries the LTS of the boundary at which it takes place. -/
def txMove (st : Opt) (reason : Nat) (quiet : Bool) (s : State) : State := txMoveAt (boundaryStamp s) st reason quiet s

/-- R199: automatic shutdown is on and dLOS is set: the output is BLANK but for the pulses. -/
def alsBlanks (s : State) : Bool := s.tx.als && s.tf.los.set

/-- R197: a traffic mode is in effect, a frequency is set, the request is "enable" and the transmit chain runs; the
laser's lock and the bias loops' convergence are judged where the states move. -/
def litAllowed (s : State) : Bool :=
  s.line.cur.isSome && s.tx.freqSet && decide (s.tx.request = 1) && s.line.txChain && (!alsBlanks s || s.tx.alsPulsing)
    && domWorks .opt s

/-- R198, first rows: from DARK the laser tunes when a frequency is set and light is not forbidden; from BLANK the
modulator goes to null when the conditions of R197 hold. -/
def txAdvance (reason : Nat) (s : State) : State :=
  match s.tx.st with
  | .dark =>
    if s.tx.freqSet && decide (s.tx.request ≠ 0) && !inWatch s && decide (s.aon.coppice < 4) && s.tx.rearmed && !s.aon.shut
        && domWorks .opt s then
      txMove .tuning reason false { s with tx := { s.tx with tuneFrom := s.time.lts.sf } }
    else s
  | .blank =>
    if litAllowed s then
      txMove .null reason false { s with tx := { s.tx with converged := 0, tuneFrom := s.time.lts.sf } }
    else s
  | _ => s

/-- DARK from any state but SHUT (R198). -/
def txDark (reason : Nat) (s : State) : State :=
  if s.tx.st = .shut then s
  else txMove .dark reason false { s with tx := { s.tx with alsPulsing := false } }

/-- R198: the modulator at null with the laser locked, from LIT. -/
def txNull (reason : Nat) (s : State) : State :=
  if s.tx.st = .lit then txMove .null reason false s else s

/-- R198: blank from NULL and LIT. -/
def txBlank (reason : Nat) (quiet : Bool) (s : State) : State :=
  match s.tx.st with
  | .lit => txMove .blank reason quiet s
  | .null => txMove .blank reason quiet s
  | _ => s

/-! ### The decoder and the framer -/

/-- R220: FEC_ALIGN, with NOTIFY alignment set, with the LTS of the boundary at which the state changed; in ZR400 both phases read
0xFF (R218). -/
def fecEvent (st cause : Nat) (s : State) : State :=
  if s.fec.notify then
    notifyAt 0x0601 noInstance none
      (ev [fld 20 1 st, fld 21 1 cause, fld 22 1 (if zrNow s then 0xFF else s.fec.phase),
        fld 23 1 (if zrNow s then 0xFF else s.fec.cycle)]) (boundaryStamp s) s
  else s

/-- R230: the framer closes its candidates and the frame; a span under way is not whole, and its counter is not confirmed (R263,
R264). -/
def framerClose (cause : Nat) (t : Lts) (s : State) : State :=
  refreshRawsAt t { s with
    tf := { s.tf with st := 0, cands := [], badRun := 0,
                      oofCause := if s.tf.st = 3 then cause else s.tf.oofCause },
    tribs := s.tribs.map fun t => { t with confirmed := false, confirmNext := none, rxAad := [], prevAad := [] } }

/-- R217: the decoder loses its alignment or its search and discards its codewords in flight; `st` is what it does next. A search
starts at the boundary with the L that is set. No overhead of the stream before is of use after it (R224). -/
def fecDrop (st cause : Nat) (s : State) : State :=
  let was := s.fec.st
  let s1 := { s with
    fec := { s.fec with st := st, cause := cause, l := s.fec.lSet, searchFrom := (boundaryStamp s).sf, flight := 0, rawDeg := false,
                        rawUnc := false, estValid := false, curCw := 0, curCorr := 0, curUnc := 0,
                        losses := if was = 2 then s.fec.losses + 1 else s.fec.losses },
    tf := { s.tf with fnext := none, ptr := none, ptrPrev := none, usable := false, usablePrev := false } }
  framerClose 1 (boundaryStamp s) (if was = 2 then fecEvent st cause s1 else s1)

/-- R237: every client carries the replacement signal. -/
def replaceAll (s : State) : State := { s with tribs := s.tribs.map fun t => { t with replaced := true } }

/-! ### The equaliser -/

/-- R176: EQ_ACQ_STATE, on an entry to and an exit from TRACK, with the LTS of the boundary of the change. -/
def eqEvent (old new reason : Nat) (warm : Bool) (s : State) : State :=
  if old = new ∨ (old ≠ 8 ∧ new ≠ 8) then s
  else notifyAt 0x0401 noInstance none
    (ev [fld 20 1 new, fld 21 1 old, fld 22 1 reason, fld 23 1 warm.toNat]) (boundaryStamp s) s

/-- R163: symbols excluded on each side of a marked span. -/
def exclusionReach (taps : Nat) : Nat := nearest ((taps - 1) * 8) 18

/-- R163: what is disturbed, erased or invalid from stamp `a` to `b` is excluded from adaptation, with its reach; what lies four
superframes back is forgotten. -/
def exclude (a b : Nat) (s : State) : State :=
  let r := exclusionReach s.eq.taps
  { s with eq := { s.eq with excl := spanFrom (a - 4 * 2 ^ 24) (spanAdd (a - r) (b + r) s.eq.excl) } }

/-- The runs that a state's condition counts begin anew at the entry to the state (R166, R169). -/
def eqRuns (new : Nat) (e : Eq) : Eq :=
  match new with
  | 2 => { e with locked := false }
  | 4 => { e with foundRun := 0 }
  | 5 => { e with foundRun := 0, sForm := false }
  | 6 => { e with pilotRun := 0, missX := 0, missY := 0, lastWord := none }
  | 7 => { e with snrRun := 0 }
  | 8 => { e with limitRun := 0, lowRun := 0 }
  | _ => e

/-- A move of the equaliser to a state (R166 to R170). Leaving TRACK keeps what a warm entry needs, stops the sensing
input's validity and costs the decoder its alignment; entering TRACK starts its search. -/
def eqMove (new reason : Nat) (warm : Bool) (s : State) : State :=
  let e := eqRuns new s.eq
  let sf := (boundaryStamp s).sf
  let e1 := { e with
    st := new, since := sf, warm := warm && decide (new ≠ 8),
    reason := if reason = 0 then e.reason else reason,
    rawLosf := if new ≤ 1 then true else if new = 6 then false else e.rawLosf,
    taps := if new = 5 then e.tapsSet else e.taps,
    decErr := e.decErr && decide (new = 8) }
  let e2 := if e.st = 8 ∧ new ≠ 8 then
      { e1 with trackOut := sf, warmOk := true, cdKept := true, failNoted := none, cdStored := e.cd, cfoStored := e.cfo,
                tapStored := e.tapVals }
    else if new = 8 ∧ e.st ≠ 8 then
      { e1 with trackIn := sf, entries := e.entries + 1, failed := 0 }
    else e1
  let s1 := eqEvent e.st new reason warm { s with
    eq := e2,
    hs := if new = 8 then s.hs else { s.hs with lastGood := 0, acc := { s.hs.acc with track := false } } }
  let s2 :=
    if e.st = 8 ∧ new ≠ 8 then fecDrop (if s.line.rxChain then 1 else 0) 2 (freezeTrip .trackExit s1)
    else if e.st ≠ 8 ∧ new = 8 ∧ s1.fec.st = 1 then
      { s1 with fec := { s1.fec with searchFrom := sf, l := s1.fec.lSet } }
    else s1
  refreshRaws s2

/-- R168: the return to A0. -/
def eqToA0 (reason : Nat) (s : State) : State := if s.eq.st = 0 then refreshRaws s else eqMove 0 reason false s

/-! ### Stops and starts of the chains -/

/-- The receive chain stops (R144): the equaliser enters A0, the decoder and the framer stop, and the clients carry the
replacement signal. Gain steps due in this superframe are dropped (R132). -/
def stopRx (cause : Nat) (s : State) : State :=
  if s.line.rxChain then
    let s1 := { s with line := { s.line with rxChain := false }, fe := { s.fe with stepX := 0, stepY := 0 } }
    replaceAll (eqToA0 0x0D (fecDrop 0 cause s1))
  else s

/-- R150: FE_COEF_LOADED, when a host set is loaded or a built-in set replaces one. -/
def coefEvent (set : Nat) (was now : Bool) (stages : Nat) (s : State) : State :=
  if was || now then
    notify 0x0442 noInstance none (ev [fld 20 1 set, fld 21 1 stages, fld 22 1 now.toNat]) s
  else s

/-- The receive chain starts at a symbol rate (R141, R144, R145, R147, R168): stages and coefficients are chosen, the
first outputs are invalid, no warm entry is possible, and the decoder waits for TRACK. FE.STATUS counts gain steps from each such
start (DESIGN CHOICE, log entry 40). -/
def startRx (rate cause : Nat) (s : State) : State :=
  let k := stagesOf rate
  let f := s.fe
  let n := invalidOutputs rate
  let s0 := { s with
    line := { s.line with rxChain := true },
    fe := { f with stages := k, invalid := n, resHost := f.resampler.isSome, hbHost := f.halfband.isSome, gainSteps := 0,
                   startAt := s.time.lts, phase := 0, phaseAt := s.time.lts, timingPpb := 0 },
    eq := { s.eq with entries := 0, failNoted := none, a3Done := false, warmOk := false, lastWord := none,
                      base := match s.line.cur with | some m => m.base | none => s.eq.base },
    fec := { s.fec with st := 1, cause := cause, losses := 0, l := s.fec.lSet } }
  let s1 := exclude s.time.lts.toNat (s.time.lts.toNat + invalidSymbols n) s0
  let s2 := coefEvent 0 f.resHost f.resampler.isSome k s1
  refreshRaws (coefEvent 1 f.hbHost f.halfband.isSome k s2)

/-- The transmit chain stops (R117, R198), and its coupled chain and its frames with it (R209, R439). -/
def stopTx (s : State) : State :=
  { s with
    line := { s.line with txChain := false }, fec := { s.fec with chainFrom := none },
    tf := { s.tf with txFbytes := 0, txFnext := 0, txTsp := none, txSfoh := [] } }

/-- R182: the range of dispersion pre-compensation in ps/nm. -/
def preCompRange (rate : Nat) : Nat := min 100000 (50000 * 272000000 ^ 2 / rate ^ 2)

/-- R181: B * (1 + beta) is at most 300 GHz. -/
def rollOffFits (rate beta : Nat) : Bool := decide (rate * (100 + beta) ≤ 300000000 * 100)

/-- R181, R182: stored shaping as it comes into force at a symbol rate: roll-off and pre-compensation that the rate does not allow are
cut to what it allows (DESIGN CHOICE, log entry 47). -/
def shapingAt (rate : Nat) (x : Shaping) : Shaping :=
  let c : Int := preCompRange rate
  { x with beta := if rollOffFits rate x.beta then x.beta else 30000000000 / rate - 100, cd := max (-c) (min c x.cd) }

/-- R227, R259: frames and spans are numbered from zero again, from the start of a superframe on. -/
def framesFrom (sf : Sf) (s : State) : State :=
  { s with tf := { s.tf with txTfn := 0, txCount := 0, spanNext := 0, origin := Lts.boundary sf } }

/-- The transmit chain starts (R182, R209, R227): the stored shaping comes into force, the coupled chain starts, frames are numbered
from zero from superframe `sf` on, and the bias loops converge anew. -/
def startTx (sf : Sf) (s : State) : State :=
  framesFrom sf { s with
    line := { s.line with txChain := true },
    tx := { s.tx with now := shapingAt (rateNow s) s.tx.stored, converged := 0, tuneFrom := s.time.lts.sf },
    fec := { s.fec with chainFrom := some (boundaryStamp s).sf } }

/-! ### Notes to the history record and the intervals -/

/-- R342: an event of R99 marks the record in progress PARTIAL; the sensing chain is reset where R344 says so. -/
def histPartial (s : State) : State := { s with hs := { s.hs with acc := { s.hs.acc with partial_ := true } } }

/-- R344: a synchronising reset of the sensing chain. -/
def senseReset (s : State) : State := { s with hs := { s.hs with lastGood := 0, senseInvalid := 16, senseNew := true } }

/-- R99: an interval is incomplete for a cause, bit numbered in the order of R99. -/
def incomplete (cause : Nat) (s : State) : State :=
  { s with health := { s.health with
      cause15 := s.health.cause15 ||| 2 ^ cause, cause24 := s.health.cause24 ||| 2 ^ cause } }

end Sys2Proof.Machine
end

