-- ==== Sys2Proof/Machine/FrontEnd.lean ====
section
/-! DEFINITION. The receive front end and its converters (chapter 5): loss of signal, gain, over-range, slices and
filter coefficients, with the FE commands. -/
namespace Sys2Proof.Machine

open Sys2Proof

/-! ### Loss of signal (R128) -/

/-- R438: received input power in 0.01 dBm as reports carry it. -/
def powerField (p : Int) : Nat :=
  if p < -3000 then 0x8000 else if 500 < p then 0x7FFF else (BitVec.ofInt 16 p).toNat

/-- R128: the raw condition with its 1.0 dB hysteresis. -/
def losRaw (was : Bool) (thr power : Int) : Bool :=
  if power < thr * 10 then true else if thr * 10 + 100 < power then false else was

/-- LOS_COMPARE: once per superframe the tap reading is compared with the threshold. -/
def execLosCompare (power : Int) (s : State) : Out :=
  .next (if s.time.running && !s.dbg.frozen then
    refreshRaws { s with fe := { s.fe with power := power, rawLos := losRaw s.fe.rawLos s.fe.losThr power } }
  else s)

/-! ### Slices (R134, R185) -/

def chanOf (conv : Conv) (ch : BitVec 2) (s : State) : Chan :=
  match conv with | .adc => s.fe.adc.get ch | .dac => s.tx.dac.get ch

def setChan (conv : Conv) (ch : BitVec 2) (c : Chan) (s : State) : State :=
  match conv with
  | .adc => { s with fe := { s.fe with adc := s.fe.adc.set ch c } }
  | .dac => { s with tx := { s.tx with dac := s.tx.dac.set ch c } }

def countSt (st : SliceSt) (c : Chan) : Nat := (c.slices.filter fun x => decide (x.st = st)).length

/-- Slices in SPARE. -/
def sparesOf (c : Chan) : Nat := countSt .spare c

def retiredOf (c : Chan) : Nat := countSt .retired c

def sliceStCode : SliceSt → Nat
  | .active => 0 | .spare => 1 | .calib => 2 | .retired => 3

/-- One byte per physical slice: state in bits [7:6], logical position in [5:0] when ACTIVE (R148, R201). -/
def sliceBytes (c : Chan) : List Byte :=
  c.slices.map fun x => BitVec.ofNat 8 (sliceStCode x.st * 64 + (if x.st = .active then x.pos else 0))

/-- FE_SLICE_RETIRED and TX_SLICE_RETIRED (R150, R202). -/
def sliceEvent (conv : Conv) (ch : BitVec 2) (slice spares : Nat) (subst : Bool) (s : State) : State :=
  match conv with
  | .adc => notify 0x0441 (BitVec.ofNat 16 ch.toNat) none
      (ev [fld 20 1 slice, fld 21 1 spares, fld 22 1 subst.toNat]) s
  | .dac => notify 0x0502 (BitVec.ofNat 16 ch.toNat) none (ev [fld 20 1 slice, fld 21 1 spares]) s

/-- SLICE_FAILURE: an active slice fails outright. With a spare left it is replaced at the next swap opportunity (R135);
without one, ADC samples are substituted by the mean of their neighbours, logged and reported (R137), and a DAC slice is
reported (R187). -/
def execSliceFailure (conv : Conv) (ch : BitVec 2) (slice : Byte) (s : State) : Out :=
  let c := chanOf conv ch s
  match c.slices[slice.toNat]? with
  | none => .fault .noSuchPart
  | some x =>
    let c1 := { c with slices := c.slices.set slice.toNat { x with failed := true } }
    if x.st = .active ∧ sparesOf c = 0 then
      match conv with
      | .adc => .next (sliceEvent .adc ch slice.toNat 0 true
          (logEntry 1 (0x0400 + BitVec.ofNat 16 ch.toNat) (some 0x0441) [slice, 0, 1]
            (setChan .adc ch { c1 with substituted := true } s)))
      | .dac => .next (sliceEvent .dac ch slice.toNat 0 false (setChan .dac ch c1 s))
    else .next (setChan conv ch c1 s)

/-! ### Disturbed symbols (R131, R139, R163) -/

/-- A span of `n` disturbed symbols from `t`: a symbol marked twice counts once in the record, and the span is excluded from
adaptation with its reach. -/
def disturb (t : Lts) (n : Nat) (s : State) : State :=
  let a := t.toNat
  let fresh := n - spanWithin a (a + n) s.fe.marked
  exclude a (a + n) { s with
    fe := { s.fe with marked := spanFrom (a - 4 * 2 ^ 24) (spanAdd a (a + n) s.fe.marked) },
    hs := { s.hs with acc := { s.hs.acc with disturbed := s.hs.acc.disturbed + fresh } } }

/-- R348: what happens inside a raw capture that fills: bit 0 a gain step, bit 1 an over-range. -/
def capMark (bit : Nat) (s : State) : State :=
  if s.hs.capSt = 1 then { s with hs := { s.hs with capFlags := s.hs.capFlags ||| 2 ^ bit } } else s

/-! ### Over-range (R138 to R140) -/

/-- R139: the symbols a burst of over-range samples disturbs, rounded outward. -/
def burstSymbols (rate samples : Nat) : Nat := ((samples + 64) * rate + 320000000 - 1) / 320000000

def chBit (ch : BitVec 2) : BitVec 4 := 1 <<< ch.toNat

/-- Puts a new count into a held FE_OVERRANGE of the same channel and superframe: the count covers the whole superframe
the notification names (R140). -/
def recount (ch : BitVec 2) (sf : Sf) (n : Nat) (ns : List Note) : List Note :=
  ns.map fun x =>
    if x.event = 0x0440 ∧ x.source = BitVec.ofNat 16 ch.toNat ∧ x.lts.sf = sf then
      { x with data := ev [fld 20 4 n] } else x

/-- R140: FE_OVERRANGE at most once per 1,024 superframes per channel. -/
def overrangeEvent (ch : BitVec 2) (t : Lts) (n : Nat) (s : State) : State :=
  if s.fe.notify then
    match s.fe.ovrNoted.get ch with
    | none => notifyAt 0x0440 (BitVec.ofNat 16 ch.toNat) none (ev [fld 20 4 n]) t
        { s with fe := { s.fe with ovrNoted := s.fe.ovrNoted.set ch (some t.sf) } }
    | some a =>
      if a = t.sf then { s with q := { s.q with held := recount ch t.sf n s.q.held } }
      else if 1024 ≤ (t.sf - a).toNat then
        notifyAt 0x0440 (BitVec.ofNat 16 ch.toNat) none (ev [fld 20 4 n]) t
          { s with fe := { s.fe with ovrNoted := s.fe.ovrNoted.set ch (some t.sf) } }
      else s
  else s

/-- R130: the count of superframe `sf` passes OVR_STEP, so automatic gain steps the polarisation down by 1.0 dB in the next
superframe; with the chain stopped no step falls due (R132). -/
def overrangeStep (chain : Bool) (ch : BitVec 2) (sf : Sf) (n : Nat) (f : Fe) : Fe :=
  if chain ∧ f.mode = 0 ∧ f.ovrStep < n then
    if ch.toNat < 2 then { f with stepX := -2, stepFromX := sf + 1 } else { f with stepY := -2, stepFromY := sf + 1 }
  else f

/-- R138, R348: the burst's place in a raw capture that fills. -/
def capBurst (ch : BitVec 2) (t : Lts) (samples : Nat) (s : State) : State :=
  if s.hs.capSt = 1 then { s with hs := { s.hs with capOver := (ch, t, samples) :: s.hs.capOver } } else s

/-- ADC_OVERRANGE: a burst of samples beyond the outer threshold clamps, is counted, sets the sticky bit, marks symbols
disturbed and may call for a gain step and a notification. -/
def execAdcOverrange (ch : BitVec 2) (_high : Bool) (samples : Nat) (rx : RxAt) (s : State) : Out :=
  .next (if s.time.running && !s.dbg.frozen && decide (0 < samples) then
    let t := rxStamp rx s
    let f := s.fe
    let sfc := if t.sf = f.ovrAt then f.ovrSf else Four.all 0
    let n := sfc.get ch + samples
    let f1 := { f with
      sticky := f.sticky ||| chBit ch, ovr := f.ovr.set ch (sat32 (f.ovr.get ch + samples)),
      ovrSf := sfc.set ch n, ovrAt := t.sf }
    capBurst ch t samples (capMark 1 (overrangeEvent ch t n
      (disturb t (burstSymbols (rateNow s) samples) { s with fe := overrangeStep s.line.rxChain ch t.sf n f1 })))
  else s)

/-! ### Gain (R129 to R132) -/

/-- A gain moved by a step within 0 to 24 dB. -/
def gainBy (g : Nat) (d : Int) : Nat := (max 0 (min 48 ((g : Int) + d))).toNat

/-- R130: a polarisation's step may take effect in superframe `sf`: at most one does. -/
def stepDue (step : Int) (from_ : Sf) (last : Option Sf) (sf : Sf) : Bool :=
  decide (step ≠ 0) && decide (from_.toNat ≤ sf.toNat) && decide (last ≠ some sf)

/-- The gain of one polarisation takes its step. -/
def stepX (sf : Sf) (f : Fe) : Fe :=
  { f with xGain := gainBy f.xGain f.stepX, stepX := 0, stepSfX := some sf, gainSteps := f.gainSteps + 1 }

def stepY (sf : Sf) (f : Fe) : Fe :=
  { f with yGain := gainBy f.yGain f.stepY, stepY := 0, stepSfY := some sf, gainSteps := f.gainSteps + 1 }

/-- R28: a gain step has marked symbols in superframe `sf`, or will. -/
def stepMarks (sf : Sf) (s : State) : Bool :=
  let f := s.fe
  s.line.rxChain && (stepDue f.stepX f.stepFromX f.stepSfX sf || stepDue f.stepY f.stepFromY f.stepSfY sf
    || decide (f.stepSfX = some sf) || decide (f.stepSfY = some sf))

/-- GAIN_STEP_APPLY: the steps due take effect together and disturb 2,048 symbols, at symbol index 32,768 while there are
received superframes (R131); none is applied while the receive chain is stopped (R132) or frozen. -/
def execGainStepApply (rx : RxAt) (s : State) : Out :=
  let f := s.fe
  let t := rxStamp rx s
  let x := stepDue f.stepX f.stepFromX f.stepSfX t.sf
  let y := stepDue f.stepY f.stepFromY f.stepSfY t.sf
  .next (if s.line.rxChain && !s.dbg.frozen && (s.eq.rawLosf || decide (rx.s = 32768)) && (x || y) then
    let f1 := if x then stepX t.sf f else f
    capMark 0 (disturb t 2048 { s with fe := if y then stepY t.sf f1 else f1 })
  else s)

/-- R129: a 0.5 dB step towards the target when the RMS code (in hundredths) is more than 1 dB from it. -/
def gainStep (target rms : Nat) : Int :=
  if target * 100 * 112202 < rms * 100000 then -1
  else if rms * 112202 < target * 100 * 100000 then 1 else 0

/-- AGC_PERIOD of R129: automatic gain runs whenever the local oscillator is present; a step already due stands. With the chain
stopped no step falls due (R132). -/
def agcPeriod (rmsX rmsY : Nat) (s : State) : State :=
  let f := s.fe
  let sf := s.time.lts.sf
  if f.mode = 0 ∧ loPresent s ∧ s.line.rxChain then
    { s with fe := { f with
        stepX := if f.stepX = 0 then gainStep f.rms rmsX else f.stepX,
        stepFromX := if f.stepX = 0 then sf else f.stepFromX,
        stepY := if f.stepY = 0 then gainStep f.rms rmsY else f.stepY,
        stepFromY := if f.stepY = 0 then sf else f.stepFromY } }
  else s

/-! ### The resampler's phase (R142, R143) -/

/-- R142: the accumulator's increment for one input sample: the nominal ratio with the timing correction, over 2^32. -/
def phaseInc (rate : Nat) (ppb : Int) : Nat :=
  (((nearest (rate * 9 * 2 ^ stagesOf rate * 2 ^ 32) (8 * 320000000) : Nat) : Int) * (1000000000 + ppb) / 1000000000).toNat

/-- Input samples of the resampler that pass in `n` symbols (R141). -/
def phaseInputs (rate n : Nat) : Nat := n * 320000000 / (rate * 2 ^ stagesOf rate)

/-- R142: the phase accumulator now. -/
def phaseNow (s : State) : Word :=
  let r := rateNow s
  s.fe.phase + BitVec.ofNat 32 (phaseInputs r (s.time.lts.toNat - s.fe.phaseAt.toNat) * phaseInc r s.fe.timingPpb)

/-- R142, R143: the timing loop corrects the increment by up to ±100 ppm, and steps the phase. -/
def timingMove (ppb : Int) (step : Word) (s : State) : State :=
  { s with fe := { s.fe with
      phase := phaseNow s + step, phaseAt := s.time.lts, timingPpb := max (-100000) (min 100000 ppb) } }

/-! ### Commands (R148) -/

/-- FE.CONFIG. A manual gain set while the chain is stopped is applied once the chain runs, and a change to mode 1 drops a step not
yet applied (DESIGN CHOICE, log entry 40). -/
def execFeConfig (h : Hdr) (mode : Byte) (xGain yGain : Half) (rms : Byte) (ovrStep losThr : Half) (flags : Byte)
    (s : State) : Out :=
  command 0x0440 h s
    (guarded 0x0440 h
      [(decide (2 < mode.toNat), .badArg), (decide (48 < xGain.toNat) || decide (48 < yGain.toNat), .badArg),
       (decide (rms.toNat < 16) || decide (40 < rms.toNat), .badArg), (decide (ovrStep = 0), .badArg),
       (decide (s16 losThr < -300) || decide (-120 < s16 losThr), .badArg), (!reservedClear flags 1, .badArg)]
      fun s =>
        let f := s.fe
        let f1 := { f with
          mode := mode.toNat, rms := rms.toNat, ovrStep := ovrStep.toNat, losThr := s16 losThr,
          notify := bitOf flags 0 }
        let f2 := if mode = 2 then
            { f1 with stepX := (xGain.toNat : Int) - f.xGain, stepFromX := (boundaryStamp s).sf,
                      stepY := (yGain.toNat : Int) - f.yGain, stepFromY := (boundaryStamp s).sf }
          else if mode = 1 then { f1 with stepX := 0, stepY := 0 } else f1
        done 0x0440 h { s with fe := f2 })

/-- The flags of FE.STATUS byte 22. -/
def feFlags (s : State) : Nat :=
  boolBit s.line.rxChain 0 + boolBit (loPresent s) 1 + boolBit s.fe.rawLos 2
    + boolBit (s.fe.resHost || s.fe.hbHost) 3

/-- FE.STATUS. With no mode set it reports ρ at 272 GBd, and the stages of the last start (DESIGN CHOICE, log entry 40). -/
def execFeStatus (h : Hdr) (flags : Byte) (s : State) : Out :=
  command 0x0441 h s
    (guarded 0x0441 h [(!reservedClear flags 1, .badArg)] fun s =>
      let f := s.fe
      reply 0x0441 h
        [fld 16 1 f.stages, fld 17 1 f.mode, fld 18 2 f.xGain, fld 20 2 f.yGain, fld 22 1 (feFlags s),
         fld 23 1 f.sticky.toNat, fld 24 4 (rhoQ30 (rateNow s)), fldI 28 4 f.timingPpb,
         fld 32 2 (powerField f.power), fld 36 4 (f.ovr.get 0), fld 40 4 (f.ovr.get 1), fld 44 4 (f.ovr.get 2),
         fld 48 4 (f.ovr.get 3), fld 52 1 (sparesOf (f.adc.get 0)), fld 53 1 (sparesOf (f.adc.get 1)),
         fld 54 1 (sparesOf (f.adc.get 2)), fld 55 1 (sparesOf (f.adc.get 3)), fld 56 4 f.gainSteps.toNat]
        (if bitOf flags 0 then { s with fe := { f with sticky := 0 } } else s))

/-- FE.SLICES. -/
def execFeSlices (h : Hdr) (ch : Byte) (s : State) : Out :=
  command 0x0442 h s
    (guarded 0x0442 h [(decide (3 < ch.toNat), .badArg), (!h.buf, .badArg)] fun s =>
      let c := s.fe.adc.get (BitVec.ofNat 2 ch.toNat)
      respond 0x0442 h .ok
        (result [fld 16 1 (sparesOf c), fld 17 1 (retiredOf c), fld 18 6 c.lastSwap.toNat])
        (some (sliceBytes c)) s)

/-- The signed 16-bit values of a buffer (R146). -/
def i16s : List Byte → List Int
  | a :: b :: t => (BitVec.ofNat 16 (a.toNat + 256 * b.toNat)).toInt :: i16s t
  | _ => []

def sumInt (l : List Int) : Int := l.foldl (· + ·) 0

/-- R146: each resampler phase's 24 taps sum to 16,384 ± 16; the 12 half-band values to 8,192 ± 32. -/
def coefSums (set : Byte) (vs : List Int) : Bool :=
  if set = 0 then
    (List.range 64).all fun p =>
      let t := sumInt ((vs.drop (24 * p)).take 24)
      decide (16368 ≤ t) && decide (t ≤ 16400)
  else
    let t := sumInt vs
    decide (8160 ≤ t) && decide (t ≤ 8224)

/-- The superframe boundary at which a boundary command that runs now acts. -/
def boundaryNow (s : State) : Sf := (Lts.ceilSf s.time.lts).sf

/-- A mode change with another boundary than this command's is in progress. -/
def busyChanging (s : State) : Bool :=
  match s.line.change with
  | some c => decide (1 ≤ c.phase) && !decide (c.c = boundaryNow s)
  | none => false

/-- A mode change has started at this very boundary and does the restart itself (R149, R183); one that keeps B stops no chain
(R116). -/
def changeHere (s : State) : Bool :=
  match s.line.change with
  | some c => decide (1 ≤ c.phase) && decide (c.c = boundaryNow s) && !c.sameB
  | none => false

def newStages (s : State) : Nat :=
  match s.line.change with
  | some c => match c.new with | some m => stagesOf m.rate | none => 0xFF
  | none => stagesNow s

/-- R145: a set is stored, or reverted to the built-in one. -/
def storeCoef (set : Byte) (vs : Option (List Int)) (s : State) : State :=
  if set = 0 then { s with fe := { s.fe with resampler := vs } } else { s with fe := { s.fe with halfband := vs } }

/-- FE.COEF_SET: action 1 stops the receive chain at C, and the restart at C + 1 answers (R149). -/
def execFeCoefSet (h : Hdr) (set action : Byte) (check : Word) (s : State) : Out :=
  let bs := bufData h s
  command 0x0443 h s
    (guarded 0x0443 h
      [(decide (1 < set.toNat) || decide (2 < action.toNat), .badArg),
       (decide (action = 2) && h.buf, .badArg),
       (decide (action ≠ 2) && (!h.buf || decide (bs.length ≠ if set = 0 then 3072 else 24)), .badArg),
       (busyChanging s, .busy), (decide (action = 1) && s.line.cur.isNone && !changeHere s, .badState),
       (decide (action ≠ 2) && decide (check0 bs ≠ check.toNat), .integrity),
       (decide (action ≠ 2) && !coefSums set (i16s bs), .badArg)]
      fun s =>
        if action = 2 then reply 0x0443 h [fld 16 1 0xFF] (storeCoef set none s)
        else
          let s1 := storeCoef set (some (i16s bs)) s
          if action = 0 then reply 0x0443 h [fld 16 1 0xFF] s1
          else if changeHere s1 then reply 0x0443 h [fld 16 1 (newStages s1)] s1
          else
            let s2 := stopRx 3 s1
            { s2 with fe := { s2.fe with restart := some ⟨boundaryNow s1, h, s1.q.acting = some true⟩ } })

end Sys2Proof.Machine
end

