-- ==== Sys2Proof/Machine/Equaliser.lean ====
section
/-! DEFINITION. The equaliser (chapter 6): acquisition, exits from TRACK, cycle slips, the estimates and the EQ
commands. -/
namespace Sys2Proof.Machine

open Sys2Proof

/-- R154: dispersion capacity in ps/nm at a symbol rate in kBd. -/
def cdCapacity (rate : Nat) : Nat := min 600000 (nearest (200000 * 272000000 ^ 2) (rate ^ 2))

/-- R155: the coarse step S in ps/nm. -/
def cdStep (rate : Nat) : Nat := nearest (1000 * 272000000 ^ 2) (rate ^ 2)

/-- R436: a window of ±W about a hint, cut to the capacity range; none when nothing is left. -/
def cutWindow (rate : Nat) (hint : Int) (w : Nat) : Option (Int × Int) :=
  let c : Int := cdCapacity rate
  if max (-c) (hint - w) ≤ min c (hint + w) then some (max (-c) (hint - w), min c (hint + w)) else none

/-- The last TRACK ended less than WARM_HOLD ago (R155, R168). -/
def withinWarm (s : State) : Bool := decide (sfSince s.eq.trackOut s < s.eq.warmHold)

/-- R155: the window that the sweep of a pass covers first: about the host's hint, or else about the last estimate of a TRACK state
that ended within WARM_HOLD. That the host's hint goes first is a DESIGN CHOICE, log entry 40. -/
def sweepWindow (s : State) : Option (Int × Int) :=
  let r := rateNow s
  if s.eq.useHint then cutWindow r s.eq.hint (if s.eq.window = 0 then 10 * cdStep r else s.eq.window)
  else if s.eq.cdKept && withinWarm s then cutWindow r s.eq.est.cd (10 * cdStep r)
  else none

/-- R155, R166: the three best candidates, strongest first: those of the window, or, where it yields none, of the full range. -/
def sweepKeeps (rate : Nat) (win : Option (Int × Int)) (cands : List Int) : List Int :=
  let inside (w : Int × Int) : List Int := cands.filter fun x => decide (w.1 ≤ x) && decide (x ≤ w.2)
  let full := inside (-(cdCapacity rate : Int), (cdCapacity rate : Int))
  (match win with
    | some w => if (inside w).isEmpty then full else inside w
    | none => full).take 3

/-- R166, R171: SNR_FLOOR in 0.01 dB; its default follows the base. -/
def snrFloor (e : Eq) : Nat := if e.floor = 0 then (if e.base = 0 then 900 else 1400) else e.floor * 10

/-- R156: the timing loop's bandwidth in kHz, eightfold in A2. -/
def timingBandwidth (e : Eq) : Nat := (if e.st = 2 then 8 else 1) * 500 * 2 ^ e.bw

/-- R158: superframes C and C + 1 of a mode change that keeps B. -/
def inSameB (s : State) : Bool :=
  match s.line.change with
  | some c => decide (1 ≤ c.phase) && c.sameB && decide (sfSince c.c s < 2)
  | none => false

/-- R158: decision-directed adaptation, in A7 and TRACK, has fallen back to the pilots. -/
def fallback (s : State) : Bool :=
  (decide (s.eq.st = 7) || decide (s.eq.st = 8)) && (s.eq.decErr || inSameB s)

/-- R159: blind phase search refines the phase between pilots. -/
def blindSearch (s : State) : Bool := (decide (s.eq.st = 7) || decide (s.eq.st = 8)) && !fallback s

/-- R164: a pilot or training symbol at a stamp counts: it is neither disturbed nor excluded. -/
def symbolsUsable (a n : Nat) (s : State) : Bool := !spanHits a (a + n) s.fe.marked && !spanHits a (a + n) s.eq.excl

/-- R161: what reaches the soft demapper's output for a symbol of a polarisation: zero for an erased one. -/
def symbolLlrs (polY : Bool) (a : Nat) (llrs : List Int) (s : State) : List Int :=
  if spanHits a (a + 1) (if polY then s.eq.erasedY else s.eq.erasedX) then llrs.map fun _ => 0 else llrs

/-! ### Acquisition (R166 to R168) -/

/-- The equaliser's states move at superframe boundaries, while the engines that drive them run (R22, R26, R166). -/
def eqMoves (s : State) : Bool := atBoundary s && !taskHeld .eqSupervision s

/-- R166: the conditions of A0, with the first VALID = 1 sample of R147. -/
def acqReady (s : State) : Bool :=
  s.line.rxChain && loPresent s && !s.fe.rawLos && ticking s
    && decide (s.fe.startAt.toNat + invalidSymbols s.fe.invalid ≤ s.time.lts.toNat)

/-- R168: the equaliser as a warm entry takes it up, with the dispersion setting, carrier offset and taps of the last TRACK. -/
def warmSet (e : Eq) : Eq := { e with cands := [], cd := e.cdStored, cfo := e.cfoStored, tapVals := e.tapStored }

/-- ACQ_ENTRY: from A0 the equaliser takes the warm entry to A2 or the cold entry to A1 (R168). -/
def execAcqEntry (s : State) : Out :=
  .next (if s.eq.st = 0 ∧ acqReady s ∧ eqMoves s then
    let s1 := { s with fe := { s.fe with invalid := 0 } }
    if s.eq.warmOk && withinWarm s then eqMove 2 0 true { s1 with eq := warmSet s.eq }
    else eqMove 1 0 false { s1 with eq := { s.eq with cands := [], sweepWin := sweepWindow s } }
  else s)

/-- R165: A2, A5 and A6 cannot complete while adaptation is held. -/
def canComplete (e : Eq) : Bool := !e.held || !(decide (e.st = 2) || decide (e.st = 5) || decide (e.st = 6))

/-- R166: the condition of a state that counts or measures: A2 the timing lock, A4 two training words, A5 eight of them with an S
form, A6 and A7 their runs of superframes. -/
def stateMet (e : Eq) : Bool :=
  match e.st with
  | 2 => e.locked
  | 4 => decide (2 ≤ e.foundRun)
  | 5 => decide (8 ≤ e.foundRun) && e.sForm
  | 6 => decide (16 ≤ e.pilotRun)
  | 7 => decide (256 ≤ e.snrRun)
  | _ => true

/-- ACQ_STATE_COMPLETE: a state that meets its condition moves on at a boundary (R166). A1 brings the candidates above the
detection floor, strongest first, A3 the carrier offset it finds within ±3.6 GHz. -/
def execAcqStateComplete (cands : List Int) (cfoKhz : Int) (s : State) : Out :=
  let e := s.eq
  .next (if eqMoves s && canComplete e && stateMet e then
    match e.st with
    | 1 =>
      match sweepKeeps (rateNow s) e.sweepWin cands with
      | [] => s
      | c :: t => eqMove 2 0 false { s with eq := { e with cd := c, cands := t, sweepWin := none } }
    | 2 => eqMove 3 0 e.warm s
    | 3 =>
      if cfoKhz.natAbs ≤ 3600000 then eqMove 4 0 e.warm { s with eq := { e with cfo := cfoKhz, a3Done := true } }
      else s
    | 4 => eqMove 5 0 e.warm s
    | 5 => senseReset (eqMove 6 0 e.warm s)
    | 6 => eqMove 7 0 e.warm s
    | 7 => eqMove 8 0 e.warm s
    | _ => s
  else s)

/-- R166: timeouts in superframes. -/
def acqTimeout (st : Nat) : Nat :=
  match st with
  | 1 => 512 | 2 => 128 | 3 => 64 | 4 => 256 | 5 => 512 | 6 => 64 | 7 => 512 | _ => 0

/-- R166, R175: failure reasons. -/
def acqReason (st : Nat) : Nat :=
  match st with
  | 1 => 3 | 2 => 4 | 3 => 5 | 4 => 6 | 5 => 7 | 6 => 8 | 7 => 9 | _ => 0

/-- R167: a failed pass counts, may raise EQ_ACQ_FAIL, and the next pass starts at A1 with no hint window. -/
def passFails (st reason : Nat) (s : State) : State :=
  let n := s.eq.failed + 1
  let due := match s.eq.failNoted with
    | none => true
    | some a => decide (16384 ≤ sfSince a s)
  let s1 := { s with eq := { s.eq with
      failed := n, cands := [], sweepWin := none,
      failNoted := if due then some s.time.lts.sf else s.eq.failNoted } }
  let s2 := if due then
      notify 0x0402 noInstance none (ev [fld 20 1 reason, fld 21 1 st, fld 24 4 n.toNat]) s1
    else s1
  eqMove 1 reason false s2

/-- ACQ_STATE_TIMEOUT: the next candidate is tried, or the pass fails (R167); a failure in a warm entry tries no further
candidate (R168). -/
def execAcqStateTimeout (s : State) : Out :=
  let e := s.eq
  .next (if eqMoves s && decide (1 ≤ e.st) && decide (e.st ≤ 7) && decide (acqTimeout e.st ≤ sfSince e.since s) then
    if e.st = 1 ∨ e.warm then passFails e.st (acqReason e.st) s
    else
      match e.cands with
      | [] => passFails e.st (acqReason e.st) s
      | c :: t => eqMove 2 (acqReason e.st) false { s with eq := { e with cd := c, cands := t } }
  else s)

/-- ACQ_RETURN_A0: no light, no local oscillator or a stopped chain (R168); while line time runs, at a boundary. -/
def execAcqReturnA0 (cause : A0Cause) (s : State) : Out :=
  let holds := match cause with
    | .noLight => s.fe.rawLos
    | .noLo => !loPresent s
    | .chainStop => !s.line.rxChain
  let reason := match cause with | .noLight => 1 | .noLo => 2 | .chainStop => 0x0D
  .next (if holds && decide (s.eq.st ≠ 0) && !s.dbg.frozen && (!s.time.running || eqMoves s) then eqToA0 reason s else s)

/-! ### Training words (R152, R164, R166, R170) -/

/-- The stamp of the first symbol of the symbol frame of a receive event, in received superframes or, without them, in transmit
line time (R89, R90). -/
def frameStart (rx : RxAt) (s : State) : Nat :=
  if s.eq.rawLosf then s.time.lts.toNat / 65536 * 65536 else rxNat rx (rx.s.toNat / 65536 * 65536)

/-- R152: the training word of the symbol frame holds no disturbed and no excluded symbol. -/
def wordUsable (rx : RxAt) (s : State) : Bool := symbolsUsable (frameStart rx s) 512 s

/-- A usable training word, found on either output or missed. In A6, A7 and TRACK the eighth miss in a row is symbol-frame loss,
which ends when the condition of A5 is met again (R170). -/
def countWord (wordX wordY sForm : Bool) (e : Eq) : Eq :=
  let e1 := { e with
    foundRun := if wordX && wordY then e.foundRun + 1 else 0, sForm := e.sForm || (wordX && wordY && sForm),
    missX := if wordX then 0 else e.missX + 1, missY := if wordY then 0 else e.missY + 1 }
  if 6 ≤ e.st then
    if e1.missX = 8 ∨ e1.missY = 8 then { e1 with rawLosf := true, foundRun := 0, sForm := false }
    else if e1.foundRun ≥ 8 ∧ e1.sForm then { e1 with rawLosf := false }
    else e1
  else e1

/-- R164, R173: the training word of a symbol frame, once per frame, from A4 on. -/
def trainWord (i : SenseIn) (rx : RxAt) (s : State) : State :=
  if 4 ≤ s.eq.st ∧ wordUsable rx s then refreshRaws { s with eq := countWord i.wordX i.wordY i.sForm s.eq } else s

/-! ### Exits from TRACK (R169) -/

/-- R169: the next state of a condition, its reason, and its row in the table. -/
def trackCond : TrackCond → Nat × Nat × Nat
  | .frameLost => (4, 0x0A, 0)
  | .timingRange => (2, 4, 1)
  | .cfoRange => (3, 5, 2)
  | .lowSnr => (4, 9, 3)
  | .slipRate => (4, 0x0B, 4)

/-- R169: the earliest of the next states, and among its conditions the highest row's reason. -/
def trackExitTo : List TrackCond → Option (Nat × Nat × Nat)
  | [] => none
  | c :: t =>
    match trackExitTo t with
    | none => some (trackCond c)
    | some b =>
      let a := trackCond c
      if a.1 < b.1 ∨ (a.1 = b.1 ∧ a.2.2 ≤ b.2.2) then some a else some b

/-- R169: a condition of TRACK holds; slips are those of a superframe, at its end. -/
def trackHolds (s : State) : TrackCond → Bool
  | .frameLost => decide (8 ≤ s.eq.missX) || decide (8 ≤ s.eq.missY)
  | .timingRange => decide (16 ≤ s.eq.limitRun)
  | .cfoRange => decide (3600000 < s.eq.cfo.natAbs)
  | .lowSnr => decide (16 ≤ s.eq.lowRun)
  | .slipRate => (decide (256 < s.eq.slipSfX) || decide (256 < s.eq.slipSfY)) && decide (sfSince s.eq.slipSf s ≤ 1)

/-- The conditions of R169 that hold. -/
def trackConds (s : State) : List TrackCond :=
  [TrackCond.frameLost, .timingRange, .cfoRange, .lowSnr, .slipRate].filter (trackHolds s)

/-- TRACK_EXIT: at a boundary at which a condition of R169 holds, a warm entry at the state it gives. -/
def execTrackExit (s : State) : Out :=
  .next (if s.eq.st = 8 ∧ eqMoves s then
    match trackExitTo (trackConds s) with
    | none => s
    | some r => eqMove r.1 r.2.1 true { s with eq := { s.eq with cands := [] } }
  else s)

/-! ### Cycle slips (R160, R161, R176) -/

/-- Puts a new count into a held EQ_SLIP of the same polarisation and superframe (R176). -/
def reslip (src : Half) (sf : Sf) (n : Nat) (ns : List Note) : List Note :=
  ns.map fun x =>
    if x.event = 0x0403 ∧ x.source = src ∧ x.lts.sf = sf then { x with data := ev [fld 20 4 n] } else x

/-- R176: EQ_SLIP at most once per 1,024 superframes per polarisation, with the slips of the whole superframe. -/
def slipEvent (src : Half) (noted : Option Sf) (n : Nat) (t : Lts) (mark : State → State) (s : State) : State :=
  if s.eq.notifySlips then
    match noted with
    | none => notifyAt 0x0403 src none (ev [fld 20 4 n]) t (mark s)
    | some a =>
      if a = t.sf then { s with q := { s.q with held := reslip src a n s.q.held } }
      else if 1024 ≤ (t.sf - a).toNat then notifyAt 0x0403 src none (ev [fld 20 4 n]) t (mark s)
      else s
  else s

/-- R160: the quadrant offset of a residual pilot phase in 2^-16 turns, zero where it does not exceed π/4. -/
def quadrant (r : Int) : BitVec 2 :=
  let w := (r + 32768) % 65536 - 32768
  if w.natAbs ≤ 8192 then 0 else BitVec.ofInt 2 ((w + 8192) / 16384)

/-- R151: a received symbol index is a pilot's; in ZR400 the agreement places them (R153). -/
def pilotAt (i : Nat) (s : State) : Bool := zrNow s || (decide (512 ≤ i % 65536) && decide (i % 64 = 0))

/-- R160: the 63 data symbols before the pilot at stamp `p`; before a frame's first pilot stands the training word. -/
def slipErased (p : Nat) (rx : RxAt) (s : State) : Nat × Nat :=
  if !zrNow s && decide (rx.s.toNat % 65536 = 512) then (p - 575, p - 512) else (p - 63, p)

/-- R161: the erased symbols of a slip: their log-likelihood ratios are zero, and they are excluded from adaptation (R163). -/
def eraseSlip (polY : Bool) (w : Nat × Nat) (s : State) : State :=
  let keep (l : List (Nat × Nat)) : List (Nat × Nat) := spanFrom (w.1 - 4 * 2 ^ 24) (spanAdd w.1 w.2 l)
  exclude w.1 w.2 { s with eq :=
    if polY then { s.eq with erasedY := keep s.eq.erasedY } else { s.eq with erasedX := keep s.eq.erasedX } }

/-- CYCLE_SLIP: the residual phases of two consecutive pilots that take part, `rx` being the first of them. With the same quadrant
offset k ≠ 0 the phase is corrected by -kπ/2, 63 symbols are erased (R161) and the slip is counted; a disturbed pilot takes no part
(R160). Between the two pilots the model erases 63 symbols also where a disturbed pilot lies before the first (DESIGN CHOICE, log
entry 40). -/
def execCycleSlip (polY : Bool) (r1 r2 : Int) (rx : RxAt) (s : State) : Out :=
  let e := s.eq
  let k := quadrant r1
  let t := rxStamp rx s
  .next (if ticking s && decide (6 ≤ e.st) && decide (k ≠ 0) && decide (quadrant r2 = k) && pilotAt rx.s.toNat s &&
      !spanHits t.toNat (t.toNat + 1) s.fe.marked then
    let sf := t.sf
    let fresh := decide (e.slipSf ≠ sf)
    let nx := (if fresh then 0 else e.slipSfX) + (if polY then 0 else 1)
    let ny := (if fresh then 0 else e.slipSfY) + (if polY then 1 else 0)
    let e1 := { e with
      slipsX := if polY then e.slipsX else e.slipsX + 1, slipsY := if polY then e.slipsY + 1 else e.slipsY,
      slipTotal := e.slipTotal + 1, slipSfX := nx, slipSfY := ny, slipSf := sf,
      quadX := if polY then e.quadX else e.quadX - k, quadY := if polY then e.quadY - k else e.quadY }
    let a := s.hs.acc
    let s1 := { s with
      eq := e1,
      hs := { s.hs with acc := { a with slipX := if polY then a.slipX else a.slipX + 1,
                                        slipY := if polY then a.slipY + 1 else a.slipY } } }
    let s2 := freezeTrip .cycleSlip (if e.noErase then s1 else eraseSlip polY (slipErased t.toNat rx s) s1)
    if polY then
      slipEvent 1 e.slipNotedY ny t (fun s => { s with eq := { s.eq with slipNotedY := some sf } }) s2
    else
      slipEvent 0 e.slipNotedX nx t (fun s => { s with eq := { s.eq with slipNotedX := some sf } }) s2
  else s)

/-! ### Supervision and estimates (R156, R158, R162, R172, R176) -/

/-- R157: the tolerance of the mean DGD in 0.01 ps. -/
def dgdTolerance (rate taps : Nat) : Nat := 6000 * 272000000 * (taps - 7) / (rate * 56)

/-- EQ_LIMIT on a change of a flag (R176). -/
def limitEvent (which : Nat) (was now : Bool) (s : State) : State :=
  if was = now then s else notify 0x0404 noInstance (some now) (ev [fld 20 1 which]) s

def clampInt (lo hi x : Int) : Int := max lo (min hi x)

def clampNat (lo hi x : Nat) : Nat := max lo (min hi x)

/-- R155, R172: the estimates as the part reports them: dispersion is the setting with the residual that the taps absorb, up to
±S/2, and no estimate leaves its range (DESIGN CHOICE, log entry 40). -/
def estimatesOf (v : Estimates) (s : State) : Estimates :=
  let r := rateNow s
  let c : Int := cdCapacity r
  let h : Int := cdStep r / 2
  let d := 3 * dgdTolerance r s.eq.taps
  let u := clampInt (-16384) 16384
  { cd := clampInt (-c) c (s.eq.cd + clampInt (-h) h v.cd), dgdMean := min d v.dgdMean, dgdInst := min d v.dgdInst,
    pdl := min 600 v.pdl, s1 := u v.s1, s2 := u v.s2, s3 := u v.s3, rotPeak := min 20000 v.rotPeak,
    cfoKhz := clampInt (-3600000) 3600000 v.cfoKhz, linewidth := clampNat 20 1000 v.linewidth,
    snrX := clampNat 500 2500 v.snrX, snrY := clampNat 500 2500 v.snrY, osnr := clampNat 120 300 v.osnr,
    nlcGain := if s.eq.nlcMode = 0 then 0 else clampInt (-200) 300 v.nlcGain,
    bandwidth := clampNat (r / 200000) (r * 12 / 1000000) v.bandwidth }

/-- R172: the estimates of a superframe in TRACK; the carrier offset that R169 judges is taken as measured. -/
def eqEstimate (v : Estimates) (s : State) : State :=
  if s.eq.st = 8 then
    let e := estimatesOf v s
    let near := decide (cdCapacity (rateNow s) * 95 ≤ e.cd.natAbs * 100)
    let beyond := decide (dgdTolerance (rateNow s) s.eq.taps < e.dgdMean)
    let s1 := { s with eq := { s.eq with
        est := e, estSf := s.time.lts.sf, cfo := v.cfoKhz, nearCap := near, dgdBeyond := beyond } }
    limitEvent 2 s.eq.dgdBeyond beyond (limitEvent 1 s.eq.nearCap near s1)
  else s

/-- R158: the decision error exceeds the pilot error by more than 3 dB. -/
def decisionWorse (v : Supervised) : Bool := decide (v.pilotErr * 1995262 < v.decisionErr * 1000000)

/-- R166, R169: the runs of superframes that the state's condition counts. -/
def superviseRuns (v : Supervised) (e : Eq) : Eq :=
  let low := decide (v.est.snrX < snrFloor e) || decide (v.est.snrY < snrFloor e)
  match e.st with
  | 2 => { e with locked := v.locked && decide (v.timingPpb.natAbs ≤ 100000) }
  | 6 => { e with pilotRun := if v.pilotResidual < 4096 then e.pilotRun + 1 else 0 }
  | 7 => { e with snrRun := if low then 0 else e.snrRun + 1, decErr := decisionWorse v }
  | 8 => { e with limitRun := if 100000 ≤ v.timingPpb.natAbs then e.limitRun + 1 else 0,
                  lowRun := if low then e.lowRun + 1 else 0, decErr := decisionWorse v }
  | _ => e

/-- R156, R157, R162, R165: what adapts while adaptation is not held: the timing loop from A2 on, which steps the phase in A2, the
taps from A5 on, and in TRACK the compensator's coefficients and automatic scale. The new values of taps, coefficients and scale are
free. -/
def eqAdapt (v : Supervised) (s : State) : State :=
  let e := s.eq
  if e.held then s
  else
    let s1 := if 2 ≤ e.st then timingMove v.timingPpb (if e.st = 2 then v.phaseStep else 0) s else s
    drawMany 3 { s1 with eq := { e with
      tapVals := if 5 ≤ e.st then free 0 s else e.tapVals,
      nlcCoef := if e.st = 8 ∧ e.nlcMode ≠ 0 then free 1 s else e.nlcCoef,
      nlcUsed := if e.st = 8 ∧ e.nlcMode = 1 then BitVec.ofNat 16 (free 2 s) else e.nlcUsed } }

/-- Equaliser supervision of one superframe, in the states from A1 on. -/
def eqSupervise (v : Supervised) (s : State) : State :=
  if s.eq.st = 0 then s
  else
    let s1 := eqAdapt v s
    eqEstimate v.est { s1 with eq := superviseRuns v s1.eq }

/-! ### Commands (R174) -/

/-- R436 and the card of EQ.CONFIG: the accepted values. -/
def eqConfigBad (taps profile bw flags : Byte) (hint window : Word) (floor warmHold : Half) : Bool :=
  (decide (taps ≠ 0) && (decide (taps.toNat < 15) || decide (63 < taps.toNat) || decide (taps.toNat % 2 = 0)))
    || decide (1 < profile.toNat) || decide (3 < bw.toNat) || !reservedClear flags 7
    || decide (s32 hint < -600000) || decide (600000 < s32 hint) || decide (1200000 < window.toNat)
    || (decide (floor ≠ 0) && (decide (floor.toNat < 50) || decide (250 < floor.toNat)))
    || (decide (warmHold ≠ 0) && decide (warmHold.toNat < 256))

/-- EQ.CONFIG. -/
def execEqConfig (h : Hdr) (taps profile bw flags : Byte) (hint window : Word) (floor warmHold : Half)
    (s : State) : Out :=
  command 0x0401 h s
    (guarded 0x0401 h [(eqConfigBad taps profile bw flags hint window floor warmHold, .badArg)] fun s =>
      done 0x0401 h { s with eq := { s.eq with
        tapsSet := if taps = 0 then s.eq.tapsSet else taps.toNat, profile := profile.toNat, bw := bw.toNat,
        useHint := bitOf flags 0, noErase := bitOf flags 1, notifySlips := bitOf flags 2, hint := s32 hint,
        window := window.toNat, floor := floor.toNat,
        warmHold := if warmHold = 0 then 16384 else warmHold.toNat } })

/-- EQ.STATUS byte 18. -/
def eqFlags (s : State) : Nat :=
  boolBit s.eq.warm 0 + boolBit (fallback s) 1 + boolBit s.eq.held 2
    + boolBit (decide (s.eq.nlcMode ≠ 0) && decide (s.eq.st = 8)) 3 + boolBit s.eq.noErase 4

/-- R174: symbols excluded from adaptation in the last superframe. -/
def excludedLast (s : State) : Nat :=
  let b := s.time.lts.sf.toNat * 2 ^ 24
  spanWithin (b - 2 ^ 24) b s.eq.excl

/-- EQ.STATUS. -/
def execEqStatus (h : Hdr) (s : State) : Out :=
  let e := s.eq
  query 0x0402 h s
    [fld 16 1 e.st, fld 17 1 e.reason, fld 18 1 (eqFlags s), fld 19 1 e.taps, fld 20 4 e.failed.toNat,
     fld 24 6 e.trackIn.toNat, fld 30 6 e.trackOut.toNat, fld 36 4 e.slipsX.toNat, fld 40 4 e.slipsY.toNat,
     fld 44 4 (excludedLast s), fld 48 4 e.entries.toNat]

/-- EQ.ESTIMATES byte 58. -/
def estFlags (s : State) : Nat :=
  boolBit (decide (s.eq.st = 8)) 0 + boolBit s.eq.nearCap 1 + boolBit s.eq.dgdBeyond 2 + boolBit (fallback s) 3

/-- EQ.ESTIMATES. -/
def execEqEstimates (h : Hdr) (s : State) : Out :=
  let e := s.eq.est
  query 0x0403 h s
    [fldI 16 4 e.cd, fld 20 2 e.dgdMean, fld 22 2 e.dgdInst, fld 24 2 e.pdl, fldI 26 2 e.s1, fldI 28 2 e.s2,
     fldI 30 2 e.s3, fld 32 4 e.rotPeak, fldI 36 4 e.cfoKhz, fld 40 2 e.linewidth, fld 42 2 e.snrX,
     fld 44 2 e.snrY, fld 46 2 e.osnr, fldI 48 2 e.nlcGain, fld 50 2 e.bandwidth, fld 52 6 s.eq.estSf.toNat,
     fld 58 1 (estFlags s), fld 59 1 s.eq.st]

/-- EQ.NLC: a manual scale is in use at once, an automatic one as it stands; while the compensator is off the spec gives the
scale in use no value, and the model reports a free one (DESIGN CHOICE, log entry 40). -/
def execEqNlc (h : Hdr) (mode : Byte) (scale : Half) (s : State) : Out :=
  command 0x0404 h s
    (guarded 0x0404 h [(decide (2 < mode.toNat), .badArg)] fun s =>
      let used := if mode = 2 then scale else s.eq.nlcUsed
      let s1 := nextDraw { s with eq := { s.eq with nlcMode := mode.toNat, nlcScale := scale, nlcUsed := used } }
      reply 0x0404 h
        [fld 16 2 (if mode = 0 then (drawn s).toNat else used.toNat), fldI 18 2 s.eq.est.nlcGain] s1)

/-- R437: a warm request needs A3 to have completed since the chain started. The stored setting is that of the last TRACK state since
then, or else the one acquisition works with (DEDUCED, log entry 40). -/
def reacquire (warm : Bool) (s : State) : State :=
  let e := { s.eq with cands := [], taps := s.eq.tapsSet }
  let reason := if s.eq.st = 8 then 0x0C else 0
  if warm && (decide (s.eq.st = 8) || s.eq.a3Done) then
    eqMove 4 reason true { s with eq := if s.eq.st ≠ 8 ∧ s.eq.warmOk then warmSet e else e }
  else
    let s2 := eqMove 1 reason false { s with eq := e }
    { s2 with eq := { s2.eq with sweepWin := sweepWindow s2 } }

/-- EQ.REACQUIRE. -/
def execEqReacquire (h : Hdr) (entry : Byte) (s : State) : Out :=
  command 0x0405 h s
    (guarded 0x0405 h
      [(decide (1 < entry.toNat), .badArg),
       (s.line.cur.isNone || !s.line.rxChain || decide (s.eq.st = 0), .badState)]
      fun s =>
        let s1 := reacquire (decide (entry = 0)) s
        reply 0x0405 h [fld 16 1 s1.eq.st] s1)

/-- EQ.HOLD. -/
def execEqHold (h : Hdr) (hold : Byte) (s : State) : Out :=
  command 0x0406 h s
    (guarded 0x0406 h [(decide (1 < hold.toNat), .badArg)] fun s =>
      done 0x0406 h { s with eq := { s.eq with held := decide (hold = 1) } })

end Sys2Proof.Machine
end

