-- ==== Sys2Proof/Machine/Transmit.lean ====
section
/-! DEFINITION. The transmitter and the laser (chapter 7): tuning, enabling, shaping, bias loops, over-power, automatic
shutdown and the TX commands. -/
namespace Sys2Proof.Machine

open Sys2Proof

/-! ### Laser frequency (R190, R192) -/

/-- R190: the frequency in MHz. -/
def laserMhz (grid fine : Int) : Int := 193100000 + grid * 3125 + fine

/-- R1, R190: grid index and frequency lie within the variant's range. -/
def laserRange (v : Variant) (grid fine : Int) : Bool :=
  let f := laserMhz grid fine
  match v with
  | .l => decide (-2272 ≤ grid) && decide (grid ≤ -688) && decide (186000000 ≤ f) && decide (f ≤ 190950000)
  | _ => decide (-624 ≤ grid) && decide (grid ≤ 976) && decide (191150000 ≤ f) && decide (f ≤ 196150000)

/-- R190: the centres ZR400 accepts. -/
def zrCentre (grid fine : Int) : Bool := decide (fine = 0) && (decide (grid % 32 = 0) || decide (grid % 24 = 0))

/-- The checks of TX.LASER; `zr` says that the mode it acts in is ZR400. Fields a flag does not name are not judged. -/
def txLaserCheck (zr : Bool) (grid fine power : Half) (flags : Byte) (s : State) : List (Bool × St) :=
  [(!reservedClear flags 3, .badArg),
   (bitOf flags 0 && !zr && (decide (1500 < (s16 fine).natAbs) || !laserRange s.ident.variant (s16 grid) (s16 fine)), .badArg),
   (bitOf flags 1 && (decide (s16 power < -80) || decide (10 < s16 power)), .badArg),
   (decide (s.tx.st = .shut) || inWatch s || decide (4 ≤ s.aon.coppice) || s.pwr.failed.getLsbD 3, .badState),
   (bitOf flags 0 && zr && !(zrCentre (s16 grid) (s16 fine) && laserRange s.ident.variant (s16 grid) (s16 fine)), .refused)]

/-- R192: the laser's frequency moves towards its target at 10 MHz/ms, by the warden's clock. -/
def laserMove (s : State) : State :=
  let target := laserMhz s.tx.grid s.tx.fine
  let d := (s.time.wardenNs - s.tx.rampAt) / 100000
  let gap := target - s.tx.freq
  if gap.natAbs ≤ d then { s with tx := { s.tx with freq := target, rampAt := s.time.wardenNs } }
  else
    { s with tx := { s.tx with
        freq := s.tx.freq + (if gap < 0 then -(d : Int) else d), rampAt := s.tx.rampAt + d * 100000 } }

/-- R192: a frequency change of 100 MHz or less with the laser locked is made in light; any other change is a dark
tune. Either ends the warm entry (R168). The second value is the tune kind of R201. -/
def tune (grid fine : Int) (s : State) : State × Nat :=
  let d := (laserMhz grid fine - laserMhz s.tx.grid s.tx.fine).natAbs
  if loPresent s && s.tx.freqSet && decide (d = 0) then (s, 2)
  else
    let s0 := laserMove s
    let s1 := { s0 with
      tx := { s0.tx with grid := grid, fine := fine, freqSet := true, rampAt := s.time.wardenNs },
      eq := { s.eq with warmOk := false, cdKept := false } }
    if loPresent s && s.tx.freqSet && decide (d ≤ 100) then (s1, 0)
    else if loPresent s then
      (txMove .tuning 2 false { s1 with tx := { s1.tx with tuneFrom := s.time.lts.sf } }, 1)
    else if s.tx.st = .tuning then ({ s1 with tx := { s1.tx with tuneFrom := s.time.lts.sf } }, 1)
    else
      let s2 := txAdvance 0 s1
      (s2, if s2.tx.st = .tuning then 1 else 2)

/-- The effect of TX.LASER. -/
def txLaserApply (grid fine power : Half) (flags : Byte) (s : State) : State × Nat :=
  let s1 := if bitOf flags 1 then { s with tx := { s.tx with power := s16 power } } else s
  if bitOf flags 0 then tune (s16 grid) (s16 fine) s1 else (s1, 2)

/-- TX.LASER. -/
def execTxLaser (h : Hdr) (grid fine power : Half) (flags : Byte) (s : State) : Out :=
  command 0x0501 h s
    (guarded 0x0501 h (txLaserCheck (zrNow s) grid fine power flags s) fun s =>
      let r := txLaserApply grid fine power flags s
      reply 0x0501 h [fld 16 1 (optCode r.1.tx.st), fld 17 1 r.2] r.1)

/-! ### Enable (R197, R198) -/

def txEnableCheck (request : Byte) : List (Bool × St) := [(decide (2 < request.toNat), .badArg)]

/-- The effect of TX.ENABLE: "dark" also clears the latch of SHUT, which only a following "enable" lets light again. -/
def txEnableApply (request : Byte) (s : State) : State :=
  let s1 := { s with tx := { s.tx with request := request.toNat } }
  if request = 0 then
    if s.tx.st = .shut then
      txMove .dark 0 false { s1 with tx := { s1.tx with rearmed := false }, aon := { s1.aon with shut := false } }
    else txDark 0 s1
  else if request = 1 then txAdvance 0 { s1 with tx := { s1.tx with rearmed := true } }
  else txAdvance 0 (txBlank 0 false s1)

/-- TX.ENABLE. -/
def execTxEnable (h : Hdr) (request : Byte) (s : State) : Out :=
  command 0x0502 h s
    (guarded 0x0502 h (txEnableCheck request) fun s =>
      let s1 := txEnableApply request s
      reply 0x0502 h [fld 16 1 (optCode s1.tx.st)] s1)

/-! ### Shaping (R181 to R183) -/

/-- The checks on the values of TX.SHAPING at a symbol rate. -/
def txShapingCheck (zr : Bool) (rate : Nat) (beta action flags : Byte) (cd : Word) (clip : Byte) :
    List (Bool × St) :=
  [(decide (beta.toNat < 2) || decide (20 < beta.toNat) || decide (1 < action.toNat) || !reservedClear flags 1,
    .badArg),
   (decide (clip.toNat < 20) || decide (40 < clip.toNat), .badArg),
   (decide (preCompRange rate < (s32 cd).natAbs) || !rollOffFits rate beta.toNat, .badArg),
   (zr, .refused)]

/-- R182: what takes effect in service does so at once; roll-off and dispersion wait for the next chain start. -/
def txShapingApply (beta flags : Byte) (cd : Word) (scale : Half) (clip : Byte) (s : State) : State :=
  let st : Shaping := ⟨beta.toNat, bitOf flags 0, s32 cd, s16 scale, clip.toNat⟩
  { s with tx := { s.tx with
      stored := st,
      now := { s.tx.now with nlOn := st.nlOn, nlScale := st.nlScale, clip := st.clip } } }

/-- TX.SHAPING: action 1 restarts only the transmit chain (R183). -/
def execTxShaping (h : Hdr) (beta action flags : Byte) (cd : Word) (scale : Half) (clip : Byte) (s : State) : Out :=
  command 0x0503 h s
    (guarded 0x0503 h
      (txShapingCheck (zrNow s) (rateNow s) beta action flags cd clip ++
        [(busyChanging s, .busy), (decide (action = 1) && s.line.cur.isNone && !changeHere s, .badState)])
      fun s =>
        let s1 := txShapingApply beta flags cd scale clip s
        if action = 0 ∨ changeHere s1 then done 0x0503 h s1
        else
          let s2 := stopTx (txNull 9 s1)
          { s2 with tx := { s2.tx with restart := some ⟨boundaryNow s1, h, s1.q.acting = some true⟩ } })

/-! ### Status -/

/-- R201: automatic shutdown as TX.STATUS codes it. -/
def alsCode (s : State) : Nat :=
  if s.tx.als = false then 0 else if s.tx.alsPulsing then 3 else if alsBlanks s then 2 else 1

/-- R194: the most that the output emits in each state, in 0.1 dBm; LIT is held to it within ±0.5 dB. -/
def outputPower (s : State) : Int :=
  match s.tx.st with
  | .lit => s.tx.powerNow
  | .null => s.tx.power - 200
  | .tuning => -350
  | .blank => -350
  | .dark => -450
  | .shut => -450

/-- R193: the laser's TEC runs. -/
def tecRuns (s : State) : Bool :=
  domWorks .opt s && !(decide (s.tx.st = .dark) && decide (4 ≤ s.aon.coppice))

/-- TX.STATUS: the measured power, frequency error, TEC temperature, laser current and clip events are free values. -/
def execTxStatus (h : Hdr) (s : State) : Out :=
  command 0x0504 h s fun s =>
    let t := s.tx
    reply 0x0504 h
      [fld 16 1 (optCode t.st), fld 17 1 t.reason, fldI 18 2 t.grid, fldI 20 2 t.fine, fldI 22 2 t.power,
       fld 24 2 (free 0 s), fld 26 2 (free 1 s), fld 28 2 (free 2 s), fld 30 2 (free 3 s),
       fld 32 1 t.converged.toNat, fld 33 1 (alsCode s), fld 34 1 (sparesOf (t.dac.get 0)),
       fld 35 1 (sparesOf (t.dac.get 1)), fld 36 1 (sparesOf (t.dac.get 2)), fld 37 1 (sparesOf (t.dac.get 3)),
       fld 38 1 t.now.beta, fldI 40 4 t.now.cd, fld 44 4 (free 4 s)]
      (drawMany 5 s)

/-- TX.SLICES. -/
def execTxSlices (h : Hdr) (ch : Byte) (s : State) : Out :=
  command 0x0506 h s
    (guarded 0x0506 h [(decide (3 < ch.toNat), .badArg), (!h.buf, .badArg)] fun s =>
      let c := s.tx.dac.get (BitVec.ofNat 2 ch.toNat)
      respond 0x0506 h .ok
        (result [fld 16 1 (sparesOf c), fld 17 1 (retiredOf c), fld 18 6 c.lastSwap.toNat])
        (some (sliceBytes c)) s)

/-! ### Automatic laser shutdown (R199) -/

/-- dLOS is set with automatic shutdown on: the output is BLANK, and restart pulses are timed from here. -/
def alsStart (s : State) : State :=
  if s.tx.als then txBlank 3 false { s with tx := { s.tx with alsPulsing := false, alsFrom := (boundaryStamp s).sf } } else s

/-- From BLANK the output goes to LIT at once where the bias loops have converged, or to NULL for them to converge (R197, R199). -/
def alsLight (quiet : Bool) (s : State) : State :=
  if s.tx.st = .blank ∧ litAllowed s then
    if s.tx.converged = 0x3F then txMove .lit 3 quiet s
    else txMove .null 3 quiet { s with tx := { s.tx with tuneFrom := s.time.lts.sf } }
  else s

/-- dLOS clears, or automatic shutdown is turned off: the output returns to LIT. -/
def alsStop (s : State) : State := alsLight false { s with tx := { s.tx with alsPulsing := false } }

def txSafetyCheck (on : Byte) (interval : Half) (pulse : Byte) : List (Bool × St) :=
  [(decide (1 < on.toNat), .badArg),
   (decide (interval ≠ 0) && (decide (interval.toNat < 60) || decide (300 < interval.toNat)), .badArg),
   (decide (4 < pulse.toNat), .badArg)]

def txSafetyApply (on : Byte) (interval : Half) (pulse : Byte) (s : State) : State :=
  let s1 := { s with tx := { s.tx with
      als := decide (on = 1), alsInterval := if interval = 0 then 100 else interval.toNat,
      alsPulse := if pulse = 0 then 2 else pulse.toNat } }
  if on = 1 then (if s.tf.los.set && !s.tx.als then alsStart s1 else s1) else if s.tx.als then alsStop s1 else s1

/-- TX.SAFETY. -/
def execTxSafety (h : Hdr) (on : Byte) (interval : Half) (pulse : Byte) (s : State) : Out :=
  command 0x0505 h s
    (guarded 0x0505 h (txSafetyCheck on interval pulse) fun s => done 0x0505 h (txSafetyApply on interval pulse s))

/-- ALS_PULSE_START: at a boundary one restart interval after blanking or after the start of the previous pulse, the output goes to
LIT for a pulse. -/
def execAlsPulseStart (s : State) : Out :=
  .next (if atBoundary s && alsBlanks s && !s.tx.alsPulsing && decide (s.tx.st = .blank) &&
      decide (s.tx.alsInterval * 16384 ≤ sfSince s.tx.alsFrom s) then
    alsLight true { s with tx := { s.tx with alsPulsing := true, alsFrom := s.time.lts.sf } }
  else s)

/-- ALS_PULSE_END: the output returns to BLANK. -/
def execAlsPulseEnd (s : State) : Out :=
  .next (if atBoundary s && s.tx.alsPulsing && decide (s.tx.alsPulse * 16384 ≤ sfSince s.tx.alsFrom s) then
    txBlank 3 true { s with tx := { s.tx with alsPulsing := false } }
  else s)

/-! ### Lock, bias and over-power -/

/-- LASER_LOCK: at a boundary the laser has locked after a tune; the output proceeds towards LIT (R192, R198). Automatic shutdown
times its pulses from a BLANK that it keeps (R199; DEDUCED, log entry 47). -/
def execLaserLock (s : State) : Out :=
  .next (if s.tx.st = .tuning ∧ atBoundary s ∧ domWorks .opt s ∧ !taskHeld .laser s then
    txAdvance 2 (txMove .blank 2 false { s with tx := { s.tx with
      freq := laserMhz s.tx.grid s.tx.fine, rampAt := s.time.wardenNs,
      alsFrom := if alsBlanks s then s.time.lts.sf else s.tx.alsFrom } })
  else s)

/-- BIAS_CONVERGED: bias loops reach their targets in NULL; with all six converged the output goes to LIT when R197 allows it. -/
def execBiasConverged (loops : BitVec 6) (s : State) : Out :=
  .next (if s.tx.st = .null ∧ atBoundary s ∧ domWorks .opt s ∧ !taskHeld .bias s then
    let s1 := { s with tx := { s.tx with converged := s.tx.converged ||| loops } }
    if litAllowed s1 && decide (s1.tx.converged = 0x3F) then txMove .lit s.tx.reason s.tx.alsPulsing s1 else s1
  else s)

/-- The bias task, every 16 superframes: in LIT the power moves by 0.1 dB towards the set power (R194), and a loop beyond its target
counts from the first run that finds it there (R189). -/
def biasTask (beyond : BitVec 6) (s : State) : State :=
  if s.tx.st = .lit then
    let p := s.tx.powerNow
    { s with tx := { s.tx with
        powerNow := if p < s.tx.power then p + 1 else if s.tx.power < p then p - 1 else p,
        beyond := (List.range 6).map fun k =>
          if beyond.getLsbD k then some ((s.tx.beyond.getD k none).getD s.time.lts.sf) else none } }
  else s

/-- R189: a loop's error has stayed beyond its target for 256 consecutive superframes in LIT. -/
def drifted (loop : Nat) (s : State) : Bool :=
  decide (s.tx.st = .lit) && match s.tx.beyond.getD loop none with
    | some a => decide (256 ≤ sfSince a s)
    | none => false

/-- BIAS_CONVERGE_LIMIT: a loop that has not converged 2,048 superframes after it starts, or that has drifted in LIT, raises
an alarm, at most once per 16,384 superframes per loop (R189). -/
def execBiasConvergeLimit (loop : BitVec 3) (drift : Bool) (s : State) : Out :=
  match s.tx.alarmed[loop.toNat]? with
  | none => .fault .noSuchPart
  | some last =>
    let due := match last with
      | none => true
      | some a => decide (16384 ≤ sfSince a s)
    let holds :=
      if drift then drifted loop.toNat s
      else decide (s.tx.st = .null) && !s.tx.converged.getLsbD loop.toNat && decide (2048 ≤ sfSince s.tx.tuneFrom s)
    .next (if ticking s && holds && due then
      let s1 := { s with tx := { s.tx with
          alarmed := s.tx.alarmed.set loop.toNat (some s.time.lts.sf),
          reason := if drift then s.tx.reason else 7 } }
      notify 0x0503 (BitVec.ofNat 16 loop.toNat) none (ev [fld 20 1 drift.toNat]) s1
    else s)

/-- OVERPOWER_TRIP: the tap has read above +3.0 dBm; the laser current is cut, the output enters SHUT from any state, latched in
the always-on domain, and the event is reported and logged (R195, R198). TX_STATE carries the instant of the trip (R202). -/
def execOverpowerTrip (peak : Int) (s : State) : Out :=
  .next (if decide (300 < peak) && decide (s.tx.st ≠ .shut) && s.pins.vsbValid then
    let s1 := { s with tx := { s.tx with alsPulsing := false }, aon := { s.aon with shut := true } }
    let s2 := notify 0x0504 noInstance none (ev [fldI 20 2 peak]) (txMoveAt s.time.lts .shut 4 false s1)
    logEntry 2 0x0500 (some 0x0504) (intBytes 2 peak) s2
  else s)

end Sys2Proof.Machine
end

