-- ==== Sys2Proof/Machine/Decoder.lean ====
section
/-! DEFINITION. The soft-decision decoder (chapter 8): alignment, codeword delivery and its counters, the raw conditions
of dDEG and dUNC, and the FEC commands. -/
namespace Sys2Proof.Machine

open Sys2Proof

/-- The overhead code of the mode in effect. -/
def ovhNow (s : State) : Option Byte := s.line.cur.map fun m => m.ovh

/-- R210: the type cycle has 23 positions at 15 % and one otherwise. -/
def cycleLen (s : State) : Nat := if ovhNow s = some 1 then 23 else 1

/-- The first candidate with the lowest fraction: its index and its fraction, in units of 1e-4. -/
def lowest : List Nat → Option (Nat × Nat)
  | [] => none
  | f :: t =>
    match lowest t with
    | none => some (0, f)
    | some r => if f ≤ r.2 then some (0, f) else some (r.1 + 1, r.2)

/-! ### The place of a codeword in the information stream (R203 to R206, R213) -/

/-- Type B codewords among the first `n` of the cycle of 23 (R204). -/
def typeBs (n : Nat) : Nat := 16 * (n / 23) + ((List.range (n % 23)).filter isTypeB).length

/-- Sign bits that codewords `a` to `b - 1` of a cycle take. -/
def signBits (m : LMode) (a b : Nat) : Nat :=
  128 * ((b - a) * (239 - labelColumns m.base - innerColumns m.ovh 22)
    + if m.ovh = 1 then typeBs b - typeBs a else 0)

/-- The first codeword that starts in superframe `q` of a chain or after it. -/
def codewordFrom (m : LMode) (q : Nat) : Nat := (q * superframeSymbols + codewordSymbols m.base - 1) / codewordSymbols m.base

/-- The place of codeword `k` in the cycle of 23, when the first one of superframe `q0` stands at `cycle`. -/
def cyclePlace (m : LMode) (q0 cycle k : Nat) : Nat := cycle + 23 + k - codewordFrom m q0

/-- R206: information bits of superframe `q` taken before codeword `k` and the DM frames `j` on. -/
def bitsBefore (m : LMode) (q0 cycle q k j : Nat) : Nat :=
  j * dmBits m.h + signBits m (cyclePlace m q0 cycle (codewordFrom m q)) (cyclePlace m q0 cycle k)

/-- R213: the bits that DM frame `g` of the chain derives from the symbols `a` to `b - 1`: those of its sub-blocks of 64 symbols that
have one there. The answer is the superframe with the first bit and the bit after the last. -/
def dmMarks (m : LMode) (q0 cycle a b g : Nat) : Nat × Nat × Nat :=
  let q := g / 8001
  let j := g % 8001
  let k := (g * 4096 + codewordSymbols m.base - 1) / codewordSymbols m.base
  let base := bitsBefore m q0 cycle q k j
  let part (i : Nat) : Nat := i * (dmBits m.h / 64) + min i (dmBits m.h % 64)
  (q, base + part ((max a (g * 4096) - g * 4096) / 64), base + part ((min b (g * 4096 + 4096) - 1 - g * 4096) / 64 + 1))

/-- R206, R213: every information bit derived from codeword `k`, by superframes of the chain: its own sign information, and the
sub-blocks that touch it. -/
def codewordMarks (m : LMode) (q0 cycle k : Nat) : List (Nat × Nat × Nat) :=
  let ns := codewordSymbols m.base
  let a := k * ns
  let q := a / superframeSymbols
  let own := bitsBefore m q0 cycle q k (a % superframeSymbols / 4096 + 1)
  (q, own, own + signBits m (cyclePlace m q0 cycle k) (cyclePlace m q0 cycle k + 1))
    :: (List.range ((a + ns - 1) / 4096 + 1 - a / 4096)).map fun i => dmMarks m q0 cycle a (a + ns) (a / 4096 + i)

/-- R210: the place of a received superframe in the chain, counted on from that of the last decision. -/
def chainPlace (sf : Sf) (s : State) : Nat := s.fec.phase + (sf - s.fec.refSf).toNat

/-- The marks of an uncorrectable codeword: the one with index `idx` of those whose last symbol lies in received superframe `sf`. -/
def marksOf (m : LMode) (sf : Sf) (idx : Nat) (s : State) : List Mark :=
  let q := chainPlace sf s
  let k := q * superframeSymbols / codewordSymbols m.base + idx
  (codewordMarks m s.fec.phase (if cycleLen s = 23 then s.fec.cycle else 0) k).map fun x =>
    ⟨sf + BitVec.ofNat 48 x.1 - BitVec.ofNat 48 q, x.2.1, x.2.2⟩

/-- Marks of received superframes more than eight back serve nothing more. -/
def marksKept (sf : Sf) (l : List Mark) : List Mark := l.filter fun x => decide ((sf + 8 - x.sf).toNat ≤ 16)

/-- R213: some of `n` information bits of a received superframe, from bit `lo` on, are marked. -/
def bitsMarked (sf : Sf) (lo n : Nat) (s : State) : Bool :=
  s.fec.marks.any fun x => decide (x.sf = sf) && decide (x.lo < lo + n) && decide (lo < x.hi)

/-- R213: some of `n` bits of the framer stream, from bit `b` of it on, are marked: they stand in the received superframe or in the
one before, after the 128 bits of its overhead. -/
def streamMarked (b n : Nat) (s : State) : Bool :=
  let f := s.tf
  let part (sf : Sf) (base fb : Nat) : Bool :=
    let lo := max b (8 * base)
    let hi := min (b + n) (8 * (base + fb))
    decide (lo < hi) && bitsMarked sf (128 + (lo - 8 * base)) (hi - lo) s
  part f.rxSf f.base f.fbytes || part f.prevSf f.prevBase f.prevFbytes

/-- The same of whole bytes of the stream. -/
def bytesMarked (q n : Nat) (s : State) : Bool := streamMarked (8 * q) (8 * n) s

/-! ### Alignment (R210) -/

/-- The framer waits for a header (R230). -/
def framerHunt (s : State) : State :=
  { s with tf := { s.tf with st := 1, cands := [], badRun := 0, hunts := s.tf.hunts + 1 } }

/-- FEC_ALIGN_DECISION: at a boundary after the search's start, the candidates are the 5 places of received superframe `rxSf` in the
code period, for each place in the type cycle in turn; the lowest fraction of unsatisfied checks decides when it is below 0.42,
otherwise the search repeats (R210). In ZR400 the alignment is the agreement's (R218). -/
def execFecAlignDecision (fractions : List Nat) (rxSf : Sf) (s : State) : Out :=
  .next (if atBoundary s && decide (s.fec.st = 1) && decide (s.eq.st = 8) && decide (s.fec.searchFrom ≠ s.time.lts.sf) &&
      (zrNow s || decide (fractions.length = 5 * cycleLen s)) then
    let found (phase cycle : Nat) : State :=
      let s1 := framerHunt { s with
        fec := { s.fec with st := 2, phase := phase, cycle := cycle, refSf := rxSf, flight := 0, outIdx := 0,
                            alignedAt := s.time.lts.sf, curSf := rxSf, curCw := 0, curCorr := 0, curUnc := 0 } }
      refreshRaws (fecEvent 2 s.fec.cause s1)
    let again : State := { s with fec := { s.fec with searchFrom := s.time.lts.sf } }
    if zrNow s then (if Config.zrAligned fractions then found 0xFF 0xFF else again)
    else
      match lowest fractions with
      | none => again
      | some r => if r.2 < 4200 then found (r.1 % 5) (if cycleLen s = 23 then r.1 / 5 else 0xFF) else again
  else s)

/-- FEC_ALIGN_LOSS: at a boundary, the fraction exceeded 0.42 in each of the last 4 superframes, all of them aligned (R210). -/
def execFecAlignLoss (fractions : List Nat) (s : State) : Out :=
  .next (if atBoundary s && decide (s.fec.st = 2) && decide (4 ≤ sfSince s.fec.alignedAt s) &&
      (if zrNow s then Config.zrLost fractions
       else decide (fractions.length = 4) && fractions.all (fun f => decide (4200 < f))) then
    fecDrop 1 1 s
  else s)

/-! ### Counters and raw conditions (R213 to R216) -/

/-- R214, R218: the pre-FEC BER threshold in units of 1e-9. -/
def berThreshold (ovh : Byte) : Nat :=
  if ovh = 0xFF then 12200000 else if ovh = 0 then 14000000 else if ovh = 1 then 20000000
  else if ovh = 2 then 27000000 else 34000000

/-- R216: the DEG threshold in units of 1e-9. -/
def degThreshold (s : State) : Nat :=
  if s.fec.deg = 0 then berThreshold ((ovhNow s).getD 3) / 2 else s.fec.deg * 100

/-- The coded bits of a codeword (R205, R218). -/
def codewordBits (s : State) : Nat := if zrNow s then Config.zrBlockBits else 30720

/-- One more comparison, superframe, header or span of a run that decides after `n` of them (R234, R235); its stamp is that
of the one that decides. -/
def runLevel (n : Nat) (b : Bool) (t : Lts) (i : Integ) : Integ :=
  if i.raw = b then (if i.run < n then { i with run := i.run + 1, since := t } else i)
  else { i with raw := b, run := 1, since := t }

/-- R216: corrected bits over coded bits is at or above a threshold in units of 1e-9. -/
def ratioReaches (corr bits thr : Nat) : Bool := decide (thr * bits ≤ corr * 1000000000)

/-- R215, R216: the counts of the superframe just ended, which ended at `t`, latch, and its estimate and raw conditions are taken. -/
def latchFec (t : Lts) (s : State) : State :=
  let f := s.fec
  let n := f.curCw - f.curUnc
  let valid := decide (1024 ≤ n)
  let deg := valid && ratioReaches f.curCorr (codewordBits s * n) (degThreshold s)
  let s := if 0 < f.curUnc then freezeTrip .rawUncorrectable s else s
  { s with
    fec := { f with
      lastCw := f.curCw, lastCorr := f.curCorr, lastUnc := f.curUnc,
      estimate := if valid then nearest (f.curCorr * 1000000000) (codewordBits s * n) else f.estimate,
      estOf := if valid then (f.curCorr, codewordBits s * n) else f.estOf,
      estValid := valid, rawDeg := deg, rawUnc := decide (0 < f.curUnc) },
    tf := { s.tf with
      deg := if valid then runLevel 16384 deg t s.tf.deg else s.tf.deg,
      unc := if f.curUnc = 0 then runLevel 16384 false t s.tf.unc else s.tf.unc } }

/-- R213, R218: a codeword whose inner syndrome is still not zero after the outer code, or whose outer syndrome cannot be
resolved, is uncorrectable. -/
def uncorrectable (c : Codeword) (s : State) : Bool :=
  if zrNow s then !Config.zrResolves c else !c.innerZeroAfter || decide (8 < c.outerErrors)

/-- R211: the decoder's delay in codewords; the agreement's decoder has a delay of its own (R218). -/
def windowLength (s : State) : Nat := if zrNow s then 0 else s.fec.l

/-- R213, R215: a codeword counts in the received superframe of its last symbol, and an uncorrectable one marks its bits. -/
def deliverCodeword (c : Codeword) (t : Lts) (s : State) : State :=
  let bad := uncorrectable c s
  let corr := if bad then 0 else c.innerChanged + c.outerErrors
  let f := s.fec
  let a := s.hs.acc
  let u := s.tf.unc
  { s with
    fec := { f with
      cw := f.cw + 1, corr := f.corr + BitVec.ofNat 64 corr,
      outer := if 0 < c.outerErrors ∧ bad = false then f.outer + 1 else f.outer,
      totCw := f.totCw + 1, totCorr := f.totCorr + corr, totUnc := if bad then f.totUnc + 1 else f.totUnc,
      unc := if bad then f.unc + 1 else f.unc, curCw := f.curCw + 1, curCorr := f.curCorr + corr,
      curUnc := if bad then f.curUnc + 1 else f.curUnc, outIdx := f.outIdx + 1,
      marks :=
        match s.line.cur with
        | some m => if bad && isSlotMode m then marksKept c.sf f.marks ++ marksOf m c.sf f.outIdx s else f.marks
        | none => f.marks },
    tf := { s.tf with unc := if bad then rawLevel true t u else u },
    hs := { s.hs with acc := { a with cw := a.cw + 1, unc := if bad then a.unc + 1 else a.unc } } }

/-- A codeword of another received superframe: the counts of the one before latch (R97, R215). -/
def nextSuperframe (sf : Sf) (t : Lts) (s : State) : State :=
  if sf = s.fec.curSf then s
  else
    let s0 := latchFec t s
    { s0 with fec := { s0.fec with curSf := sf, curCw := 0, curCorr := 0, curUnc := 0, outIdx := 0 } }

/-- CODEWORD_DELIVER: one codeword's time. While aligned, a codeword enters the window, and once L are in flight the oldest leaves it
as the event says (R211, R213, R215). -/
def execCodewordDeliver (c : Codeword) (rx : RxAt) (s : State) : Out :=
  .next (if ticking s && decide (s.fec.st = 2) then
    if s.fec.flight < windowLength s then { s with fec := { s.fec with flight := s.fec.flight + 1 } }
    else
      deliverCodeword c (rxStamp rx s) (nextSuperframe c.sf (if s.eq.rawLosf then s.time.lts else rx.a) s)
  else s)

/-! ### The margin (R215) -/

/-- The terms from `n` on of the series of √(2π) (1/2 - tail(z)): `t` is (-1)^n z^(2n+1) / (2^n n!), in units of 2^-128, and `z2` is z²
in the same units. -/
def tailSeries (z2 : Nat) : Nat → Nat → Int → Int
  | 0, _, _ => 0
  | k + 1, n, t => t / (2 * n + 1 : Nat) + tailSeries z2 k (n + 1) (-(t * z2 / (2 * (n + 1) * 2 ^ 128 : Nat)))

/-- √(2π) in units of 2^-128. -/
def rootTwoPi : Nat := 852961402282385019621748714397679344735

/-- The Gaussian tail beyond z (in units of 2^-64, below 8) is at least num / den. -/
def tailReaches (num den z : Nat) : Bool :=
  decide (tailSeries (z * z) 200 0 ((z : Int) * 2 ^ 64) * (2 * den : Nat) ≤ (((den : Int) - 2 * num) * rootTwoPi))

/-- The largest argument, in units of 2^-64, at which a condition that holds up to some point still holds, by halving steps. -/
def lastWith (p : Nat → Bool) : Nat → Nat → Nat
  | 0, z => z
  | k + 1, z => if p (z + 2 ^ k) then lastWith p k (z + 2 ^ k) else lastWith p k z

/-- R215: the argument at which the Gaussian tail probability equals num / den, below 1/2. -/
def tailArgument (num den : Nat) : Nat := lastWith (tailReaches num den) 67 0

/-- 20 log10 of a ratio of at least one, in 0.01 dB to the nearest. -/
def centiBels (a b : Nat) : Nat := lastWith (fun n => decide (10 ^ (2 * n - 1) * b ^ 4000 ≤ a ^ 4000)) 16 0

/-- R215: the margin in 0.01 dB of an estimate of `corr` in `bits` against a threshold in units of 1e-9. Where the estimate is zero or
at least one half, no argument or no ratio exists. -/
def fecMargin (corr bits thr : Nat) : Int :=
  if corr = 0 ∨ bits ≤ 2 * corr then Config.fecMargin corr bits thr
  else
    let a := tailArgument corr bits
    let b := tailArgument thr 1000000000
    if b ≤ a then centiBels a b else -(centiBels b a : Int)

/-! ### Commands (R219) -/

/-- FEC.CONFIG; ZR400 ignores L (R218). -/
def execFecConfig (h : Hdr) (l : Half) (flags : Byte) (deg : Word) (s : State) : Out :=
  command 0x0601 h s
    (guarded 0x0601 h
      [(!zrNow s && (decide (l.toNat % 256 ≠ 0) || decide (4096 < l.toNat)), .badArg), (!reservedClear flags 3, .badArg),
       (decide (deg ≠ 0) && (decide (deg.toNat < 100) || decide (500000 < deg.toNat)), .badArg),
       (bitOf flags 0 && s.line.cur.isNone, .badState)]
      fun s =>
        let keep := decide (l = 0) || zrNow s
        let s1 := { s with fec := { s.fec with
            lSet := if keep then s.fec.lSet else l.toNat, notify := bitOf flags 1, deg := deg.toNat } }
        done 0x0601 h (if bitOf flags 0 then fecDrop (if s.line.rxChain then 1 else 0) 3 s1 else s1))

/-- R212: the decoder's latency in symbols. -/
def fecLatency (m : LMode) (l : Nat) : Nat :=
  if isZr m then nearest (42 * m.rate) 10000 else nearest (l * 16777216 * 10) (if m.base = 0 then 42672 else 64008)

/-- R212: the iteration budget of a codeword in 0.01: 12 at 3,190 Gb/s of codeword bits, in proportion more below, up to 40. -/
def iterationBudget (m : LMode) : Nat :=
  min 4000 (1200 * 3190000000000 * 8192 / (2 * m.rate * 1000 * 8001 * baseBits m.base))

/-- FEC.STATUS: without a mode, overhead and latency are free values; the mean iterations are a free value within the budget. -/
def execFecStatus (h : Hdr) (s : State) : Out :=
  command 0x0602 h s fun s =>
    let f := s.fec
    let zr := zrNow s
    let flags := boolBit f.estValid 0 + boolBit f.rawDeg 1 + boolBit f.rawUnc 2
    let mean := match s.line.cur with
      | some m => if zr then free 2 s else free 2 s % (iterationBudget m + 1)
      | none => free 2 s
    reply 0x0602 h
      [fld 16 1 f.st, fld 17 1 (match s.line.cur with | some m => m.ovh.toNat | none => free 0 s),
       fld 18 2 f.l, fld 20 4 (match s.line.cur with | some m => fecLatency m f.l | none => free 1 s),
       fld 24 4 f.estimate, fldI 28 2 (fecMargin f.estOf.1 f.estOf.2 (berThreshold ((ovhNow s).getD 3))),
       fld 30 2 mean, fld 32 1 (if zr then 0xFF else f.phase), fld 33 1 (if zr then 0xFF else f.cycle),
       fld 34 6 f.alignedAt.toNat, fld 40 4 f.losses.toNat, fld 44 1 flags]
      (drawMany 3 s)

/-- FEC.COUNTERS. -/
def execFecCounters (h : Hdr) (flags : Byte) (s : State) : Out :=
  command 0x0603 h s
    (guarded 0x0603 h [(!reservedClear flags 1, .badArg)] fun s =>
      let f := s.fec
      reply 0x0603 h
        [fld 16 8 f.cw.toNat, fld 24 8 f.corr.toNat, fld 32 8 f.outer.toNat, fld 40 8 f.unc.toNat,
         fld 48 6 f.since.toNat, fld 56 4 f.lastCw, fld 60 4 f.lastCorr]
        (if bitOf flags 0 then
          { s with fec := { f with cw := 0, corr := 0, outer := 0, unc := 0, since := s.time.lts.sf } }
        else s))

/-- FEC.INJECT. -/
def execFecInject (h : Hdr) (on : Byte) (ber : Word) (s : State) : Out :=
  command 0x0604 h s
    (guarded 0x0604 h
      [(decide (1 < on.toNat), .badArg),
       (decide (on = 1) && (decide (ber = 0) || decide (500000 < ber.toNat)), .badArg),
       (s.line.cur.isNone, .badState)]
      fun s => done 0x0604 h { s with fec := { s.fec with
        inject := decide (on = 1), injectBer := if on = 1 then ber.toNat else s.fec.injectBer } })

end Sys2Proof.Machine
end

