-- ==== Sys2Proof/Machine/Cipher.lean ====
section
/-! DEFINITION. The line cipher (chapter 10): key slots and references, spans and their boundaries, the receive side's
switches, records and tags, and the KEY and CIPH commands. -/
namespace Sys2Proof.Machine

open Sys2Proof

/-! ### Span boundaries (R229, R259, R439) -/

/-- R439: span boundaries exist only while the transmit chain runs in a native traffic mode. -/
def spansExist (s : State) : Bool := s.line.txChain && slotModeNow s && decide (0 < slotsNow s) && s.time.running

/-- R229: the symbols of a span of 16 TFs as an exact fraction. -/
def spanNum (s : State) : Nat := 16 * 522240 * rateNow s * 1000 * 4
def spanDen (s : State) : Nat := 81000000000 * slotsNow s

/-- The LTS of span boundary `k`, rounded to the nearest symbol (R229). -/
def spanAt (k : Nat) (s : State) : Lts := Lts.ofNat (s.tf.origin.toNat + nearest (k * spanNum s) (spanDen s))

/-- The number of the first span boundary at or after a stamp. -/
def spanIndex (t : Lts) (s : State) : Nat :=
  let d := t.toNat - s.tf.origin.toNat
  let k := d * spanDen s / spanNum s
  if (spanAt k s).lt t then k + 1 else k

/-- The first span boundary at or after a stamp. -/
def nextSpan (t : Lts) (s : State) : Lts := spanAt (spanIndex t s) s

/-- The second span boundary after the one at or after a stamp (R254). -/
def twoSpansAfter (t : Lts) (s : State) : Lts := spanAt (spanIndex t s + 2) s

/-! ### Slots and references (R250, R251, R256) -/

def emptySlot : KeySlot := {}

def slotAt (i : Byte) (s : State) : KeySlot := s.ciph.slots.getD i.toNat emptySlot

def setSlot (i : Byte) (k : KeySlot) (s : State) : State :=
  { s with ciph := { s.ciph with slots := setAt s.ciph.slots i.toNat k } }

def modSlot (i : Byte) (f : KeySlot → KeySlot) (s : State) : State := setSlot i (f (slotAt i s)) s

/-- R254: a loaded key becomes the slot's contents once its boundary has come. -/
def settled (now : Lts) (k : KeySlot) : KeySlot :=
  match k.coming with
  | some c => if c.2.le now then { k with data := c.1, coming := none } else k
  | none => k

/-- The slot's contents as they are usable now. -/
def slotNow (i : Byte) (s : State) : KeySlot := settled s.time.lts (slotAt i s)

/-- A slot holds a usable key. -/
def usable (k : KeySlot) : Bool := decide (k.data.key ≠ [])

def slotCode : SlotSt → Nat
  | .empty => 0 | .loaded => 1 | .next => 2 | .current => 3 | .draining => 4 | .spent => 5

/-- R282: a slot becomes EMPTY; KEY_ZEROISED unless a non-forced erase did it. -/
def zeroise (i : Byte) (cause : Nat) (s : State) : State :=
  if (slotAt i s).st = .empty then s
  else notify 0x0804 noInstance none (ev [fld 20 1 i.toNat, fld 21 1 cause]) (setSlot i emptySlot s)

def tribAt (tid : Byte) (s : State) : Option Trib := s.tribs.find? fun t => decide (t.tid = tid)

def modTrib (tid : Byte) (f : Trib → Trib) (s : State) : State :=
  { s with tribs := s.tribs.map fun t => if t.tid = tid then f t else t }

/-- R270, R280: blocked for a reason of its own, or by a failure of a line engine until the first span boundary after a pass. -/
def txBlocked (t : Trib) (s : State) : Bool := decide (t.cipher ≠ 0) && (t.blockTx || t.lineTx || !s.ciph.lineOk)
def rxBlocked (t : Trib) (s : State) : Bool := decide (t.cipher ≠ 0) && (t.blockRx || t.lineRx || !s.ciph.lineOk)

/-- R21: the cipher engines work only while CIPH is powered. -/
def cipherWorks (s : State) : Bool := domWorks .ciph s

/-- R256, R269: an encrypted tributary sends zeros, a zero tag and a record with BLOCKED: while it is blocked, while it is unkeyed, and
while the engine does not work. -/
def txSilent (t : Trib) (s : State) : Bool := txBlocked t s || t.txCur.isNone || !cipherWorks s

/-- R237, R263, R266, R268 to R270: the client output of a tributary carries the replacement signal. -/
def mustReplace (t : Trib) (s : State) : Bool :=
  decide (s.tf.st ≠ 3) || s.tf.oof.set || t.plm.set ||
    (decide (t.cipher ≠ 0) &&
      (t.rxCur.isNone || !t.confirmed || rxBlocked t s || t.farBlocked || t.relBad || !cipherWorks s))

/-- The raw condition of dKEY and the client output of every tributary, as they stand, with the stamp of what changed them. -/
def refreshTribsAt (at_ : Lts) (s : State) : State :=
  { s with tribs := s.tribs.map fun t =>
      { t with key := rawLevel (txBlocked t s || rxBlocked t s) at_ t.key, replaced := mustReplace t s } }

/-- R91, R259: the stamp of what happens at a transmit span boundary: the last boundary reached, the present LTS where none has been. -/
def txStamp (s : State) : Lts := if spansExist s && decide (0 < s.tf.spanNext) then spanAt (s.tf.spanNext - 1) s else s.time.lts

def refreshTribs (s : State) : State := refreshTribsAt (txStamp s) s

/-- R251: a slot leaves CURRENT and is kept for its last tag. -/
def drain (tid : Byte) (r : Option Byte) (s : State) : State :=
  match r with
  | none => s
  | some i => modSlot i (fun k =>
      if k.st = .spent then { k with handled := false, drainOf := tid, owner := 0xFF }
      else { k with st := .draining, owner := 0xFF, handled := false, drainOf := tid }) s

/-- R256: a reference is released: its slot returns to LOADED, a draining or spent one stays to be zeroised. -/
def releaseRef (r : Option Byte) (s : State) : State :=
  match r with
  | none => s
  | some i => modSlot i (fun k =>
      if k.st = .next ∨ k.st = .current then { k with st := .loaded, owner := 0xFF } else { k with owner := 0xFF }) s

/-- R256: TRIB.REMOVE releases all four references. -/
def releaseRefs (t : Trib) (s : State) : State :=
  releaseRef t.txCur (releaseRef t.txNext (releaseRef t.rxCur (releaseRef t.rxNext s)))

/-- R282: KEY_SWITCH, with the LTS of the span boundary. -/
def switchEvent (tid : Byte) (rx : Bool) (new : Byte) (left : Option Byte) (phase : Bool) (at_ : Lts) (s : State) : State :=
  notifyAt 0x0801 (BitVec.ofNat 16 tid.toNat) none
    (ev [fld 20 1 rx.toNat, fld 21 1 new.toNat, fld 22 1 (left.getD 0xFF).toNat, fld 23 1 phase.toNat]) at_ s

/-! ### Transmit span boundaries (R251, R271) -/

/-- R271: KEY_AGE when SPANS of a current slot reaches 2^40 - 2^36. -/
def ageEvent (tid slot : Byte) (at_ : Lts) (s : State) : State :=
  let k := slotAt slot s
  if 2 ^ 40 - 2 ^ 36 ≤ k.spans ∧ k.aged = false then
    notifyAt 0x0802 (BitVec.ofNat 16 tid.toNat) none (ev [fld 20 1 slot.toNat, fld 24 8 k.spans]) at_
      (setSlot slot { k with aged := true } s)
  else s

/-- A span begins under a tributary's transmit current key: the counter advances, or stays at the zero of an activation;
at span 2^40 the slot is SPENT and the tributary blocked (R257, R271). -/
def txSpanOf (t : Trib) (s : State) : State :=
  match t.txCur with
  | none => s
  | some i =>
    if txSilent t s then s
    else
      let n := if t.txFresh then 0 else t.txSpan + 1
      if 2 ^ 40 ≤ n then
        modTrib t.tid (fun t => { t with blockTx := true, keySlot := i, txFresh := false })
          (modSlot i (fun k => { k with st := .spent, spans := 2 ^ 40 }) s)
      else
        ageEvent t.tid i (txStamp s) (modTrib t.tid (fun t => { t with txSpan := n, txFresh := false })
          (modSlot i (fun k => { k with spans := n + 1 }) s))

/-- R251: transmit slots in DRAINING, and SPENT ones that have left CURRENT, are zeroised at the first span boundary
after their last tag has been handled. -/
def txDrainAt (i : Nat) (s : State) : State :=
  let b := BitVec.ofNat 8 i
  let k := slotAt b s
  if k.data.usage = 0 ∧ k.owner = 0xFF ∧ (k.st = .draining ∨ k.st = .spent) then
    if k.handled then zeroise b (if k.st = .spent then 2 else 1) s else setSlot b { k with handled := true } s
  else s

/-- Everything a transmit span boundary does besides running the commands that act there: loaded keys settle, drained
slots go, spans are counted. -/
def txSpanTick (s : State) : State :=
  let s1 := { s with ciph := { s.ciph with slots := s.ciph.slots.map (settled s.time.lts) } }
  let s2 := (List.range 256).foldl (fun s i => txDrainAt i s)
    { s1 with tribs := s1.tribs.map fun t => { t with lineTx := t.lineTx && !s.ciph.lineOk } }
  refreshTribs ((s2.tribs.filter fun t => decide (t.cipher ≠ 0)).foldl (fun s t => txSpanOf t s) s2)

/-! ### Receive side (R258, R262 to R267) -/

/-- Receive next is promoted to current: the old slot drains, and the counter prediction restarts at zero (R258). -/
def rxPromote (t : Trib) (phase : Bool) (at_ : Lts) (s : State) : State :=
  match t.rxNext with
  | none => s
  | some n =>
    let s1 := modSlot n (fun k => { k with st := .current }) (drain t.tid t.rxCur s)
    switchEvent t.tid true n t.rxCur phase at_
      (modTrib t.tid (fun t => { t with
        rxCur := some n, rxNext := none, rxPhase := phase, rxSpan := 0, blockRx := false, confirmNext := none }) s1)

/-- Receive slots that drain for a tributary go at its first span start after their last tag. -/
def rxDrainAt (tid : Byte) (i : Nat) (s : State) : State :=
  let b := BitVec.ofNat 8 i
  let k := slotAt b s
  if k.drainOf = tid ∧ k.data.usage = 1 ∧ (k.st = .draining ∨ k.st = .spent) then
    if k.handled then zeroise b (if k.st = .spent then 2 else 1) s else s
  else s

/-- The prediction of the span that starts (R263). -/
def nextPrediction (t : Trib) : Nat := match t.confirmNext with | some n => n | none => t.rxSpan + 1

/-- A span starts under a receive current key: its counter, its confirmation, its place in the verify buffer. -/
def rxSpanOf (tid : Byte) (switched : Bool) (at_ : Lts) (s : State) : State :=
  match tribAt tid s with
  | none => s
  | some t =>
    let n := if switched then 0 else nextPrediction t
    let conf := t.confirmed || t.confirmNext.isSome
    match t.rxCur with
    | none => s
    | some i =>
      if 2 ^ 40 ≤ n then
        modTrib tid (fun t => { t with blockRx := true, keySlot := i })
          (modSlot i (fun k => { k with st := .spent, spans := 2 ^ 40 }) s)
      else
        let s1 := modTrib tid (fun t => { t with
            rxSpan := n, confirmed := conf, confirmNext := none, relBad := t.relBad && decide (t.cipher = 2),
            buffer := if t.cipher = 2 then t.buffer ++ [⟨n, at_, none⟩] else [] }) s
        if conf && !t.farBlocked && !rxBlocked t s then
          ageEvent tid i at_ (modSlot i (fun k => { k with spans := n + 1 }) s1)
        else s1

/-- R267: the interval of a tributary's failing spans is over: beyond 16 of them one summary entry follows. -/
def failClose (tid : Byte) (s : State) : State :=
  match tribAt tid s with
  | none => s
  | some t =>
    if t.failLogged = 0 ∨ sfSince t.failFrom s < 16384 then s
    else
      let s1 := if 16 < t.failLogged then
          logEntry 4 (0x0800 + BitVec.ofNat 16 tid.toNat) (some 0x0810)
            (leBytes 8 t.failFirst ++ leBytes 8 t.authSpan ++ leBytes 4 t.failLogged) s
        else s
      modTrib tid (fun t => { t with failLogged := 0 }) s1

/-- R270: a receive side without a usable next key at a phase change is blocked. -/
def rxBlock (t : Trib) : Trib := { t with blockRx := true, keySlot := t.rxCur.getD t.keySlot }

/-- RX_SPAN_START: the phase of a received span, none when no header of it passes unmarked (R258), at the span's first symbol. -/
def execRxSpanStart (tid : Byte) (phase : Option Bool) (rx : RxAt) (s : State) : Out :=
  .next (match tribAt tid s with
  | none => s
  | some t =>
    if t.cipher = 0 ∨ s.tf.st ≠ 3 ∨ ticking s = false ∨ cipherWorks s = false then s
    else
      let at_ := rxStamp rx s
      let s0 := (List.range 256).foldl (fun s i => rxDrainAt tid i s) (failClose tid s)
      let s0 := modTrib tid (fun t => { t with
        prevSpan := t.rxSpan, prevSlot := t.rxCur, prevConf := t.confirmed, lineRx := t.lineRx && !s.ciph.lineOk }) s0
      let ph := phase.getD t.rxPhase
      refreshTribsAt at_ (
        if t.rxCur.isNone ∧ t.blockRx = false then modTrib tid (fun t => { t with rxPhase := ph }) s0
        else if t.adopt then rxSpanOf tid false at_ (modTrib tid (fun t => { t with rxPhase := ph, adopt := false }) s0)
        else if ph = t.rxPhase then rxSpanOf tid false at_ s0
        else
          match t.rxNext with
          | some n =>
            if usable (slotNow n s0) then rxSpanOf tid true at_ (rxPromote t ph at_ (modSlot n (settled s.time.lts) s0))
            else modTrib tid rxBlock s0
          | none => modTrib tid rxBlock s0))

/-- R261: the byte position, in the framer stream, of a tributary's place in the tag area of the last TF received with offset `o` within
its span. -/
def tagPlace (o : Nat) (t : Trib) (s : State) : Nat :=
  s.tf.pos - 65536 * (((s.tf.tfn - 1 - BitVec.ofNat 32 o).toNat) % 16 + 1) + 128 + 16 * (t.rxEntry % 8)

/-- R262: a usable span record. -/
def recordUsable (tid : Byte) (bytes : List Byte) (marked : Bool) : Bool :=
  !marked && decide (byteAt bytes 8 = tid) && decide (fieldAt bytes 12 4 = check0 (slice bytes 0 12))

/-- SPAN_RECORD_RECEIVE (R258, R262, R263, R269, R271). -/
def execSpanRecordReceive (tid : Byte) (bytes : List Byte) (rx : RxAt) (s : State) : Out :=
  .next (match tribAt tid s with
  | none => s
  | some t =>
    let at_ := rxStamp rx s
    let marked := bytesMarked (tagPlace (3 + t.rxEntry / 8) t s) 16 s
    if t.cipher = 0 ∨ s.tf.st ≠ 3 ∨ ticking s = false ∨ cipherWorks s = false ∨ recordUsable tid bytes marked = false then s
    else if bitOf (byteAt bytes 9) 0 then refreshTribsAt at_ (modTrib tid (fun t => { t with farBlocked := true }) s)
    else
      let v := beNat (slice bytes 0 8)
      let s1 := modTrib tid (fun t => { t with farBlocked := false }) s
      if 2 ^ 40 ≤ v then
        match t.rxCur with
        | some i => refreshTribsAt at_ (modTrib tid (fun t => { t with blockRx := true, keySlot := i })
            (modSlot i (fun k => { k with st := .spent, spans := 2 ^ 40 }) s1))
        | none => s1
      else
        let s2 :=
          if t.rxCur.isNone then
            match t.rxNext with
            | some n => if usable (slotNow n s1) then rxPromote t t.rxPhase at_ (modSlot n (settled s.time.lts) s1) else s1
            | none => s1
          else s1
        refreshTribsAt at_ (modTrib tid (fun t =>
          if t.confirmed then
            if t.rxSpan = v then t
            else { t with counterMiss := t.counterMiss + 1, confirmNext := some (v + 1) }
          else { t with confirmNext := some (v + 1), rxSpan := v }) s2))

/-- R260: the tag of a span: IV of salt and counter, AAD of counter, first TFN, MODE, TID, PT and the entries as sent. -/
def spanTag (d : KeyData) (span : Nat) (tfn : Word) (mode tid pt : Byte) (entries data : List Byte) : List Byte :=
  gcmTagOf d.key (padTo 4 d.salt ++ beBytes 8 span)
    (beBytes 8 span ++ beBytes 4 tfn.toNat ++ [mode, tid, pt, 0] ++ padTo 64 entries) data

/-- R267: the first 16 failing spans of a tributary in an interval of 16,384 superframes are logged. -/
def failLog (tid : Byte) (span : Nat) (s : State) : State :=
  match tribAt tid (failClose tid s) with
  | none => s
  | some t =>
    let fresh := decide (t.failLogged = 0)
    let s2 := modTrib tid (fun t => { t with
        failLogged := t.failLogged + 1, failFrom := if fresh then s.time.lts.sf else t.failFrom,
        failFirst := if fresh then span else t.failFirst, authSpan := span }) (failClose tid s)
    if t.failLogged < 16 then
      logEntry 3 (0x0800 + BitVec.ofNat 16 tid.toNat) (some 0x0810)
        (leBytes 8 span ++ [tid, BitVec.ofNat 8 t.cipher]) s2
    else s2

/-- The verdict of a span's tag enters its place in the verify buffer (R266). -/
def judge (span : Nat) (v : Bool) (b : List SpanHeld) : List SpanHeld :=
  b.map fun x => if x.span = span then { x with verdict := some v } else x

/-- Receive slots that drain for a tributary have had their last tag (R251). -/
def markHandled (tid : Byte) (s : State) : State :=
  { s with ciph := { s.ciph with slots := s.ciph.slots.map fun k =>
      if k.drainOf = tid ∧ (k.st = .draining ∨ k.st = .spent) then { k with handled := true } else k } }

/-- R265: the part of a failing span that cut-through still held becomes error control blocks: at least one, and how many more the
spec leaves to where the span stands (log entry 8). -/
def cutThrough (t : Trib) (s : State) : State :=
  if t.cipher = 1 then
    drawMany 1 (modTrib t.tid (fun t => { t with errBlocks := t.errBlocks + 1 + BitVec.ofNat 32 (free 0 s % 16) }) s)
  else s

/-- R264: the TFs of the span before, and the one with its tag, have been received in frame, under a confirmed counter. -/
def spanWhole (t : Trib) : Bool :=
  decide (t.prevAad.length = 64) && decide (4 * (t.rxEntry / 8 + 1) ≤ t.rxAad.length) && t.prevConf

/-- R258, R260: the tag that the received span before should have carried. -/
def expectedTag (t : Trib) (i : Byte) (data : List Byte) (s : State) : List Byte :=
  spanTag (slotAt i s).data t.prevSpan (BitVec.ofNat 32 (16 * ((s.tf.tfn - 1).toNat / 16)) - 16) s.tf.rxMode t.tid
    (BitVec.ofNat 8 t.client) t.prevAad data

/-- SPAN_TAG_VERIFY: the tag of the tributary's last span, over the ciphertext received. A span that is incomplete or without a
confirmed counter is discarded, and so is one of a blocked sender; otherwise the tag decides (R264 to R267, R269). -/
def execSpanTagVerify (tid : Byte) (data tag : List Byte) (rx : RxAt) (s : State) : Out :=
  .next (match tribAt tid s with
  | none => s
  | some t =>
    if t.cipher = 0 ∨ s.tf.st ≠ 3 ∨ ticking s = false ∨ cipherWorks s = false then s
    else
      let at_ := rxStamp rx s
      let s0 := markHandled tid s
      match t.prevSlot with
      | none => s0
      | some i =>
        if rxBlocked t s then s0
        else if t.prevConf = false then s0
        else if spanWhole t = false then modTrib tid (fun t => { t with incomplete := t.incomplete + 1 }) s0
        else if t.farBlocked then s0
        else
          let marked := bytesMarked (tagPlace (t.rxEntry / 8) t s) 16 s
          if !marked && decide (expectedTag t i data s = tag) then
            modTrib tid (fun t => { t with
              verified := t.verified + 1, auth := runLevel 16 false at_ t.auth,
              buffer := judge t.prevSpan true t.buffer }) s0
          else
            cutThrough t (failLog tid t.prevSpan (modTrib tid (fun t => { t with
              failedSpans := t.failedSpans + 1, failTotal := t.failTotal + 1, auth := runLevel 1 true at_ t.auth,
              buffer := judge t.prevSpan false t.buffer }) s0)))

/-- SPAN_RELEASE: 32 TFs after its start a held span leaves the verify buffer; only a verified one reaches the client, and each edge
of a replacement takes an error control block (R266). -/
def execSpanRelease (tid : Byte) (s : State) : Out :=
  .next (match tribAt tid s with
  | none => s
  | some t =>
    match t.buffer with
    | [] => s
    | b :: rest =>
      if t.cipher = 2 ∧ ticking s ∧ cipherWorks s ∧
          b.start.toNat + nearest (2 * spanNum s) (spanDen s) ≤ s.time.lts.toNat then
        let bad := decide (b.verdict ≠ some true)
        refreshTribs (modTrib tid (fun t => { t with
          buffer := rest, relBad := bad, errBlocks := if t.relBad = bad then t.errBlocks else t.errBlocks + 1 }) s)
      else s)

/-! ### Self-tests (R280) -/

/-- CIPH_SELFTEST_FAIL, with its log entry. -/
def selftestEvent (which : Nat) (s : State) : State :=
  logEntry 5 0x0800 (some 0x0803) [BitVec.ofNat 8 which]
    (notify 0x0803 noInstance none (ev [fld 20 1 which]) s)

/-- R270, R280: a failure of a line engine blocks every encrypted tributary; dKEY reports the current slot, that of transmit where both
directions have one (DESIGN CHOICE, log entry 11). -/
def lineFails (s : State) : State :=
  { s with
    ciph := { s.ciph with lineOk := false },
    tribs := s.tribs.map fun t =>
      if t.cipher = 0 then t
      else { t with lineTx := true, lineRx := true, keySlot := (t.txCur.or t.rxCur).getD t.keySlot } }

/-- The known-answer tests of the three engines; their outcomes are free (log entry 11). -/
def runSelftests (s : State) : State :=
  let n := s.ciph.tests
  let a := Config.selfTestPass 0 n
  let b := Config.selfTestPass 1 n
  let c := Config.selfTestPass 2 n
  let s0 := { s with ciph := { s.ciph with lineOk := true, mmOk := c, tests := n + 1 } }
  let s1 := if a && b then s0 else lineFails s0
  let s2 := if a then s1 else selftestEvent 0 s1
  let s3 := if b then s2 else selftestEvent 1 s2
  refreshTribs (if c then s3 else selftestEvent 2 s3)

/-- TAG_RECOMPUTE_MISMATCH: counts as a failure of the line engine. -/
def execTagRecomputeMismatch (tid : Byte) (s : State) : Out :=
  .next (match tribAt tid s with
  | none => s
  | some t =>
    if t.cipher = 0 ∨ ticking s = false ∨ txSilent t s then s
    else refreshTribs (selftestEvent 3 (lineFails s)))

/-! ### Commands (R281) -/

/-- A pending activation of a tributary falls at or before a stamp (R254). -/
def activationBy (tid : Byte) (t : Lts) (s : State) : Bool :=
  s.q.pend.any fun p => match p.cmd with | .keyActivate _ i => decide (i = tid) && p.due.le t | _ => false

/-- R254, R439: a tributary's activation falls at or before the second span boundary after a stamp. While span boundaries do not exist
one that is due acts at the first of them and so falls before the second. -/
def activatesSoon (tid : Byte) (from_ : Lts) (s : State) : Bool :=
  activationBy tid (if spansExist s then twoSpansAfter from_ s else s.time.lts) s

/-- R254: for a transmit slot in NEXT, the two-span rule counted from a stamp. -/
def twoSpanRefuses (k : KeySlot) (from_ : Lts) (s : State) : Bool :=
  decide (k.st = .next) && decide (k.data.usage = 0) && activatesSoon k.owner from_ s

/-- R254: when a key taken now becomes usable. -/
def usableAt (s : State) : Lts :=
  if spansExist s then nextSpan ⟨s.time.lts.sf + 1, s.time.lts.sym⟩ s else s.time.lts

/-- R253: the fields of the unwrapped payload; none when a reserved field is not zero. -/
def keyPayload (p : List Byte) : Option KeyData :=
  let u := byteAt p 36
  let f := byteAt p 37
  if p.length ≠ 40 ∨ 2 < u.toNat ∨ 1 < f.toNat ∨ (f = 1 ∧ u ≠ 2) ∨ fieldAt p 38 2 ≠ 0 then none
  else some ⟨slice p 0 32, slice p 32 4, u.toNat, decide (f = 1), kcvOf (slice p 0 32)⟩

/-- R275: CIPH cannot be powered. -/
def cipherBarred (s : State) : Bool :=
  decide (4 ≤ s.aon.coppice) || inSleep s || s.pwr.failed.getLsbD 5

/-- KEY.KEK_INFO. -/
def execKeyKekInfo (h : Hdr) (s : State) : Out :=
  query 0x0801 h s
    [(16, kcvOf s.ident.kek), fld 19 1 (boolBit s.ciph.lineOk 0 + boolBit s.ciph.mmOk 1)]

/-- A memory-mode context that is not idle or holds an output area. -/
def mmActive (s : State) : Bool := s.mm.any fun c => c.busy || !c.out.isEmpty

/-- R275, R356: a memory-mode vote is raised; it is withdrawn 16,384 superframes after the last context is idle. -/
def raiseMmVote (s : State) : State :=
  { s with pwr := { s.pwr with
      mmVote := true, mmVoteEnd := if mmActive s then none else some (s.time.lts.sf + 16384) } }

/-- KEY.LOAD. -/
def execKeyLoad (h : Hdr) (slot : Byte) (s : State) : Out :=
  command 0x0802 h s
    (guarded 0x0802 h [(!h.buf || decide (h.length ≠ 48), .badArg)] fun s =>
      match kwUnwrap s.ident.kek (bufData h s) with
      | none => refuse 0x0802 h .authFail s
      | some p =>
        match keyPayload p with
        | none => refuse 0x0802 h .badArg s
        | some d =>
          let k := slotAt slot s
          let u := usableAt s
          guarded 0x0802 h
            [(decide (k.st = .current) || decide (k.st = .draining) || decide (k.st = .spent), .busy),
             (decide (k.st = .next) && decide (k.data.usage ≠ d.usage), .refused), (twoSpanRefuses k u s, .refused),
             (decide (d.usage = 2) && cipherBarred s, .badState)]
            (fun s =>
              let k1 := if k.st = .next then { k with coming := some (d, u) }
                else { emptySlot with st := .loaded, data := ⟨[], [], d.usage, d.clearCtx, d.kcv⟩, coming := some (d, u) }
              let s1 := setSlot slot (settled s.time.lts k1) s
              reply 0x0802 h [fld 16 1 d.usage, (17, d.kcv), fld 24 6 u.sf.toNat]
                (if d.usage = 2 then raiseMmVote s1 else s1)) s)

/-- A slot is zeroised by a forced erase: every tributary that used it is blocked (R255, R270). -/
def forceErase (slot : Byte) (s : State) : State :=
  let s1 := { s with tribs := s.tribs.map fun t =>
      let t1 := if t.txCur = some slot then { t with txCur := none, blockTx := true, keySlot := slot } else t
      let t2 := if t.rxCur = some slot then { t1 with rxCur := none, blockRx := true, keySlot := slot } else t1
      { t2 with txNext := if t.txNext = some slot then none else t2.txNext,
                rxNext := if t.rxNext = some slot then none else t2.rxNext } }
  refreshTribs (zeroise slot 0 s1)

/-- A non-forced erase: the slot's assignment as next goes with it. -/
def plainErase (slot : Byte) (s : State) : State :=
  setSlot slot emptySlot { s with tribs := s.tribs.map fun t =>
    { t with txNext := if t.txNext = some slot then none else t.txNext,
             rxNext := if t.rxNext = some slot then none else t.rxNext } }

/-- KEY.ERASE. -/
def execKeyErase (h : Hdr) (slot flags : Byte) (s : State) : Out :=
  let k := slotAt slot s
  let force := bitOf flags 0
  command 0x0803 h s
    (guarded 0x0803 h
      [(!reservedClear flags 1, .badArg),
       (!force && (decide (k.st = .current) || decide (k.st = .draining) || decide (k.st = .spent)), .busy),
       (!force && twoSpanRefuses k s.time.lts s, .refused),
       (decide (k.data.usage = 2) && decide (k.st = .loaded) && cipherBarred s, .badState)]
      fun s =>
        let s1 := if force then forceErase slot s else plainErase slot s
        reply 0x0803 h [fld 16 1 (slotCode k.st)]
          (if k.data.usage = 2 ∧ k.st = .loaded then raiseMmVote s1 else s1))

/-- The checks of KEY.ASSIGN (R123, R270, R281). -/
def keyAssignCheck (zr : Bool) (tid ref slot : Byte) (s : State) : List (Bool × St) :=
  let k := slotAt slot s
  let t? := tribAt tid s
  let assigns := decide (ref.toNat ≤ 2)
  let usage := if ref = 0 then 0 else 1
  let sameNext := match t? with
    | some t => (decide (ref = 0) && decide (t.txNext = some slot)) || (decide (ref = 1) && decide (t.rxNext = some slot))
    | none => false
  let activates := match t? with
    | some t => t.txNext.isSome && activatesSoon tid s.time.lts s
    | none => false
  let flows := match t? with | some t => t.rxCur.isSome && !t.blockRx | none => false
  [(decide (4 < ref.toNat), .badArg), (zr, .badState),
   (match t? with | some t => decide (t.cipher = 0) | none => true, .badArg),
   (assigns && (decide (k.st = .empty) || decide (k.data.usage ≠ usage)), .badArg),
   (assigns && !sameNext && decide (k.st ≠ .loaded), .refused),
   ((decide (ref = 0) || decide (ref = 3)) && activates, .refused), (decide (ref = 2) && flows, .badState)]

/-- The effect of KEY.ASSIGN. -/
def keyAssignApply (tid ref slot : Byte) (s : State) : State :=
  match tribAt tid s with
  | none => s
  | some t =>
    let take (st : SlotSt) (s : State) : State := modSlot slot (fun k => { k with st := st, owner := tid }) s
    if ref = 0 then
      modTrib tid (fun t => { t with txNext := some slot }) (take .next (releaseRef t.txNext s))
    else if ref = 1 then
      modTrib tid (fun t => { t with rxNext := some slot }) (take .next (releaseRef t.rxNext s))
    else if ref = 2 then
      refreshTribs (modTrib tid (fun t => { t with
        rxCur := some slot, blockRx := false, confirmed := false, confirmNext := none, adopt := true })
        (take .current (drain tid t.rxCur s)))
    else if ref = 3 then modTrib tid (fun t => { t with txNext := none }) (releaseRef t.txNext s)
    else modTrib tid (fun t => { t with rxNext := none }) (releaseRef t.rxNext s)

/-- KEY.ASSIGN. -/
def execKeyAssign (h : Hdr) (tid ref slot : Byte) (s : State) : Out :=
  command 0x0804 h s
    (guarded 0x0804 h (keyAssignCheck (zrNow s) tid ref slot s) fun s =>
      done 0x0804 h (keyAssignApply tid ref slot s))

/-- A tributary's transmit next key, when it is usable. -/
def usableNext (t : Trib) (s : State) : Option Byte :=
  match t.txNext with
  | some n => if usable (slotNow n s) then some n else none
  | none => none

/-- The checks of KEY.ACTIVATE (R123, R257). -/
def keyActivateCheck (zr : Bool) (tid : Byte) (s : State) : List (Bool × St) :=
  [(zr, .badState), (match tribAt tid s with | some t => decide (t.cipher = 0) | none => true, .badArg)]

/-- R257: the next slot becomes current, the old one drains, the counter restarts at zero, the phase inverts. -/
def activate (t : Trib) (n : Byte) (s : State) : State :=
  let s1 := modSlot n (fun k => { settled s.time.lts k with st := .current }) (drain t.tid t.txCur s)
  refreshTribs (switchEvent t.tid false n t.txCur (!t.txPhase) (txStamp s)
    (modTrib t.tid (fun t => { t with
      txCur := some n, txNext := none, txSpan := 0, txFresh := true, txPhase := !t.txPhase, blockTx := false }) s1))

/-- The effect of KEY.ACTIVATE at a span boundary, with its response. -/
def keyActivateAt (h : Hdr) (tid : Byte) (s : State) : State :=
  match tribAt tid s with
  | none => refuse 0x0805 h .badArg s
  | some t =>
    match usableNext t s with
    | none => refuse 0x0805 h .badState s
    | some n =>
      reply 0x0805 h [fld 16 1 n.toNat, fld 17 1 (!t.txPhase).toNat, fld 24 6 (txStamp s).sf.toNat] (activate t n s)

/-- R439: a command that waits for the first span boundary after the transmit chain starts. -/
def waitForSpan (cmd : Instr) (s : State) : State :=
  { s with q := { s.q with
      pend := s.q.pend ++ [{ ord := s.q.ord, cmd := cmd, due := s.time.lts, late := s.q.acting = some true }], ord := s.q.ord + 1 } }

/-- KEY.ACTIVATE. -/
def execKeyActivate (h : Hdr) (tid : Byte) (s : State) : Out :=
  command 0x0805 h s
    (guarded 0x0805 h (keyActivateCheck (zrNow s) tid s) fun s =>
      if spansExist s then keyActivateAt h tid s else waitForSpan (.keyActivate h tid) s)

/-- KEY.STATUS. -/
def execKeyStatus (h : Hdr) (slot : Byte) (s : State) : Out :=
  let k := slotNow slot s
  let mm := decide (k.data.usage = 2) && decide (k.st = .loaded)
  command 0x0806 h s
    (guarded 0x0806 h [(mm && cipherBarred s, .badState)] fun s =>
      reply 0x0806 h
        [fld 16 1 (slotCode k.st), fld 17 1 k.data.usage, fld 18 1 k.owner.toNat, fld 19 1 k.data.clearCtx.toNat,
         (20, padTo 3 k.data.kcv), fld 24 6 k.spans]
        (if mm then raiseMmVote s else s))

def refByte (r : Option Byte) : Nat := (r.getD 0xFF).toNat

/-- CIPH.TRIB_STATUS. -/
def execCiphTribStatus (h : Hdr) (tid flags : Byte) (s : State) : Out :=
  command 0x0807 h s
    (guarded 0x0807 h
      [(!reservedClear flags 1, .badArg), (zrNow s, .badState), ((tribAt tid s).isNone, .badArg)] fun s =>
      match tribAt tid s with
      | none => s
      | some t =>
        let fl := boolBit t.txPhase 0 + boolBit t.rxPhase 1 + boolBit t.confirmed 2 + boolBit (txBlocked t s) 3
          + boolBit (rxBlocked t s) 4 + boolBit t.farBlocked 5
        reply 0x0807 h
          [fld 16 1 t.cipher, fld 17 1 (refByte t.txCur), fld 18 1 (refByte t.txNext), fld 19 1 (refByte t.rxCur),
           fld 20 1 (refByte t.rxNext), fld 21 1 fl, fld 24 8 t.txSpan, fld 32 8 t.rxSpan,
           fld 40 4 t.verified.toNat, fld 44 4 t.failedSpans.toNat, fld 48 4 t.incomplete.toNat,
           fld 52 4 t.counterMiss.toNat]
          (if bitOf flags 0 then
            modTrib tid (fun t => { t with verified := 0, failedSpans := 0, incomplete := 0, counterMiss := 0 }) s
          else s))

/-- CIPH.SELFTEST: it raises the vote of R356 where CIPH is not powered; where CIPH cannot be powered no engine passes (DESIGN CHOICE,
log entry 11). -/
def execCiphSelftest (h : Hdr) (s : State) : Out :=
  command 0x0808 h s fun s =>
    if cipherBarred s then respond 0x0808 h .integrity (result [fld 16 1 0]) none s
    else
    let s1 := runSelftests s
    let bits := boolBit s1.ciph.lineOk 0 + boolBit s1.ciph.mmOk 1
    respond 0x0808 h (if s1.ciph.lineOk && s1.ciph.mmOk then .ok else .integrity) (result [fld 16 1 bits]) none
      (raiseMmVote s1)

/-- The checks of CIPH.TRIB_MODE. -/
def ciphTribModeCheck (zr : Bool) (tid behaviour : Byte) (s : State) : List (Bool × St) :=
  [(decide (behaviour.toNat < 1) || decide (2 < behaviour.toNat), .badArg), (zr, .badState),
   ((tribAt tid s).isNone, .badArg),
   (match tribAt tid s with | some t => decide (t.cipher = 0) | none => false, .badState)]

/-- R268: the receive behaviour changes; the spans held are discarded. -/
def ciphTribModeApply (tid behaviour : Byte) (s : State) : State :=
  modTrib tid (fun t =>
    if t.cipher = behaviour.toNat then t
    else { t with cipher := behaviour.toNat, buffer := [], relBad := true, replaced := true }) s

/-- CIPH.TRIB_MODE. -/
def execCiphTribMode (h : Hdr) (tid behaviour : Byte) (s : State) : Out :=
  command 0x0809 h s
    (guarded 0x0809 h (ciphTribModeCheck (zrNow s) tid behaviour s) fun s =>
      done 0x0809 h (ciphTribModeApply tid behaviour s))

end Sys2Proof.Machine
end

