-- ==== Sys2Proof/Machine/Store.lean ====
section
/-! DEFINITION. The history store as memory (R330 to R339): words with valid bits, the merge buffer, repair and poisoned
pages, and what the owners of the regions do about a poisoned page. A word address counts 64-bit words; a page is 512
words. -/
namespace Sys2Proof.Machine

open Sys2Proof

/-- R330: words and pages of the store. -/
def storeWords : Nat := 2147483648
def storePages : Nat := 4194304

def pageOf (w : Nat) : Nat := w / 512

/-- R330: the region of a page. -/
def regionOf (page : Nat) : Nat :=
  if page < 0x300000 then 0 else if page < 0x380000 then 1 else if page < 0x3C0000 then 2
  else if page < 0x3E0000 then 3 else if page < 0x3F0000 then 4 else 5

/-- The first page of a region, and of the region after it. -/
def regionFirst (r : Nat) : Nat :=
  match r with
  | 0 => 0 | 1 => 0x300000 | 2 => 0x380000 | 3 => 0x3C0000 | 4 => 0x3E0000 | 5 => 0x3F0000 | _ => 0x400000

def wordValid (w : Nat) (s : State) : Bool := s.hs.valid.contains w

def pagePoisoned (p : Nat) (s : State) : Bool := s.hs.poison.contains p

/-- A page with at least one valid word; META keeps no valid bits of its own. -/
def pageHeld (p : Nat) (s : State) : Bool := decide (regionOf p = 5) || s.hs.valid.any fun w => decide (pageOf w = p)

/-- R332, R333: a word's logical content: zero when its valid bit is clear or its page is poisoned. -/
def wordBytes (w : Nat) (s : State) : List Byte :=
  if wordValid w s && !pagePoisoned (pageOf w) s then memReadN 0 s.hs.mem (8 * w) 8 else List.replicate 8 0

/-- The page restarts empty: its valid bits and its poison entry are cleared (R339), its words read zero. -/
def clearPage (p : Nat) (s : State) : State :=
  { s with hs := { s.hs with
      mem := s.hs.mem.filter fun c => decide (c.1 / 4096 ≠ p), valid := s.hs.valid.filter fun w => decide (pageOf w ≠ p),
      poison := s.hs.poison.filter fun q => decide (q ≠ p) } }

/-- R334: a full word is written and its valid bit set; a write to a poisoned page first restarts the page (R339). -/
def wordWrite (w : Nat) (bs : List Byte) (s : State) : State :=
  let s1 := if pagePoisoned (pageOf w) s then clearPage (pageOf w) s else s
  { s1 with hs := { s1.hs with
      mem := memWriteN 0 s1.hs.mem (8 * w) (padTo 8 bs), valid := insertNat s1.hs.valid w,
      merge := s1.hs.merge.filter fun m => decide (m.word ≠ w) } }

/-- Consecutive full words from a word address. -/
def wordsWrite : Nat → List Byte → Nat → State → State
  | 0, _, _, s => s
  | n + 1, bs, w, s => wordsWrite n (bs.drop 8) (w + 1) (wordWrite w (bs.take 8) s)

/-- A write of whole aligned words at a byte address. -/
def storeWrite (a : Nat) (bs : List Byte) (s : State) : State := wordsWrite (bs.length / 8) bs (a / 8) s

/-! ### Poisoned pages (R339) -/

/-- A capture slot's first page. -/
def slotPage (slot : Nat) : Nat := 0x300000 + 1024 * slot

/-- R339: what the owner of a page's region does. -/
def poisonOwner (p : Nat) (s : State) : State :=
  match regionOf p with
  | 1 =>
    if p < 0x340000 then
      let slot := (p - 0x300000) / 1024
      if 3 ≤ s.hs.slots.getD slot 0 then { s with hs := { s.hs with slots := setAt s.hs.slots slot 5 } } else s
    else s
  | 2 =>
    let k := p - 0x380000
    let s1 := clearPage p s
    let keep := (List.range s.q.backlog.length).filter fun i => decide (Config.placedAt 1 i ≠ k)
    let hit (i : Nat) (c : MmCtx) : Bool :=
      (List.range ((c.out.length + 4095) / 4096)).any fun j => decide (Config.placedAt 3 (4096 * i + j) = k)
    let rec_ (b : Nat × List Byte) : Bool := decide (Config.placedAt 4 (b.1 % 4096) = k)
    let inTable (x : Nat × Nat) : Bool := decide (x.1 < 4096 * (p + 1)) && decide (4096 * p < x.1 + x.2)
    { s1 with
      health := { s1.health with
        blazes := s1.health.blazes.map fun b => if rec_ b then (b.1, List.replicate 64 0) else b,
        blazeDamaged := s1.health.blazeDamaged || s1.health.blazes.any rec_ },
      cv := { s1.cv with
        tables := s1.cv.tables.filter fun x => !inTable x, damaged := s1.cv.damaged || s1.cv.tables.any inTable },
      q := { s1.q with backlog := keep.map fun i => s.q.backlog.getD i [] },
      mm := (List.range s.mm.length).map fun i =>
        let c := s.mm.getD i {}
        if hit i c then { c with damaged := true } else c }
  | 3 =>
    let k := p - 0x3C0000
    let restart (b : Bin) : Bin := { start := b.start, incomplete := b.incomplete, invalid := true }
    { s with health := { s.health with
        tallies := s.health.tallies.map fun t =>
          if Config.placedAt 0 t.id = k then
            { t with cum := 0, cumInvalid := true, cur15 := restart t.cur15, cur24 := restart t.cur24 }
          else t } }
  | 4 =>
    let k := p - 0x3E0000
    let lost := (List.range s.flash.stage.length).filter fun i => decide (Config.placedAt 2 i = k)
    let keep := (List.range s.flash.stage.length).filter fun i => decide (Config.placedAt 2 i ≠ k)
    match lost.head?.bind (fun i => s.flash.stage[i]?), lost.getLast?.bind (fun i => s.flash.stage[i]?) with
    | some a, some b =>
      logEntry 6 0x0100 none (leBytes 6 a.seq.toNat ++ leBytes 6 b.seq.toNat)
        { s with flash := { s.flash with stage := keep.filterMap fun i => s.flash.stage[i]? } }
    | _, _ => s
  | _ => s

/-- HS_POISON (R351), with its log entry. -/
def poisonNote (p finder : Nat) (s : State) : State :=
  notify 0x0B03 (BitVec.ofNat 16 (regionOf p)) none (ev [fld 20 8 (4096 * p), fld 28 1 finder])
    (logEntry 7 (BitVec.ofNat 16 (0x0B00 + regionOf p)) (some 0x0B03) (leBytes 8 (4096 * p) ++ [BitVec.ofNat 8 finder]) s)

/-- R339: a page of regions 0 to 4 is poisoned, unless nothing in it is lost; a full list leaves it to the log. -/
def poisonData (finder : Nat) (s : State) (p : Nat) : State :=
  if pagePoisoned p s || !pageHeld p s then s
  else
    let full := decide (16384 ≤ s.hs.poison.length)
    let s1 := { s with hs := { s.hs with
        poison := if full then s.hs.poison else insertNat s.hs.poison p, poisonFull := s.hs.poisonFull || full,
        lap := { s.hs.lap with poisoned := s.hs.lap.poisoned + 1 } } }
    poisonOwner p (poisonNote p finder s1)

/-- R339: a page that cannot be repaired; a valid-map page takes its 64 data pages with it, the rest of META is rebuilt
from its second copy. -/
def poisonPage (p finder : Nat) (s : State) : State :=
  if regionOf p = 5 then
    if p < 0x3F0000 + 64512 then
      ((List.range 64).map fun i => 64 * (p - 0x3F0000) + i).foldl (poisonData finder) s
    else s
  else poisonData finder s p

/-! ### The merge buffer (R334) -/

/-- The bytes an entry gives a word: its own, and the old word's where it has none. -/
def mergeBytes (old : List Byte) (m : Merge) : List Byte :=
  (List.range 8).map fun i => ((m.bytes.getD i none).getD (byteAt old i))

/-- R334: an entry goes to the store; it is dropped, and the owner told, when it is partial and the read of its valid word gives
POISON. -/
def mergeFlush (m : Merge) (s : State) : State :=
  let s1 := { s with hs := { s.hs with merge := s.hs.merge.filter fun x => decide (x.word ≠ m.word) } }
  let partial_ := m.bytes.any fun b => b.isNone
  if partial_ ∧ wordValid m.word s ∧ pagePoisoned (pageOf m.word) s then poisonOwner (pageOf m.word) s1
  else wordWrite m.word (mergeBytes (wordBytes m.word s) m) s1

/-- R334: freeze and level C4 write every entry. -/
def mergeFlushAll (s : State) : State := s.hs.merge.foldl (fun s m => mergeFlush m s) s

/-- R334: a write narrower than a word; a 17th word displaces the least recently used entry. -/
def mergeWrite (a : Nat) (b : Byte) (s : State) : State :=
  let w := a / 8
  match s.hs.merge.find? fun m => decide (m.word = w) with
  | some m =>
    let m1 := { m with bytes := setAt m.bytes (a % 8) (some b) }
    let s1 := { s with hs := { s.hs with merge := m1 :: s.hs.merge.filter fun x => decide (x.word ≠ w) } }
    if m1.bytes.all (fun x => x.isSome) then mergeFlush m1 s1 else s1
  | none =>
    let m1 : Merge := ⟨w, setAt (List.replicate 8 none) (a % 8) (some b)⟩
    let s1 := match s.hs.merge.drop 15 with
      | [] => s
      | l :: _ => mergeFlush l s
    { s1 with hs := { s1.hs with merge := m1 :: s1.hs.merge } }

/-- A write of any bytes: whole words at once, the rest through the merge buffer (R334). -/
def storeNarrow : List Byte → Nat → State → State
  | [], _, s => s
  | b :: t, a, s => storeNarrow t (a + 1) (mergeWrite a b s)

/-- R333: what a read of a valid word finds: a correction or a page repair is counted, and a page beyond repair is poisoned. -/
def wordRead (w : Nat) (d : WordDecode) (pageDecodes : Bool) (finder : Nat) (s : State) : State :=
  match d with
  | .clean => s
  | .corrected => { s with hs := { s.hs with lap := { s.hs.lap with corrections := s.hs.lap.corrections + 1 } } }
  | .uncorrectable =>
    if pageDecodes then { s with hs := { s.hs with lap := { s.hs.lap with repairs := s.hs.lap.repairs + 1 } } }
    else poisonPage (pageOf w) finder s

/-- R334: an entry goes to the store; a partial one reads its old word first, and is dropped when that read gives POISON. -/
def mergeFlushRead (m : Merge) (d : WordDecode) (pageDecodes : Bool) (s : State) : State :=
  let reads := (m.bytes.any fun b => b.isNone) && wordValid m.word s && !pagePoisoned (pageOf m.word) s
  if reads then
    if d = .uncorrectable ∧ pageDecodes = false then
      wordRead m.word d pageDecodes 2 { s with hs := { s.hs with merge := s.hs.merge.filter fun x => decide (x.word ≠ m.word) } }
    else mergeFlush m (wordRead m.word d pageDecodes 2 s)
  else mergeFlush m s

/-- MERGE_BUFFER_TIMEOUT: 1,024 DSP clocks without a write to an entry. -/
def execMergeBufferTimeout (word : Nat) (d : WordDecode) (pageDecodes : Bool) (s : State) : Out :=
  if storeWords ≤ word then .fault .storeAddress
  else
    .next (match s.hs.merge.find? fun m => decide (m.word = word) with
    | some m => if s.dbg.frozen then s else mergeFlushRead m d pageDecodes s
    | none => s)

/-- R333: the read of a word. Its merge entry goes first (R334), and leaves a word that reads clean. -/
def execStoreRead (word : Nat) (d : WordDecode) (pageDecodes : Bool) (s : State) : Out :=
  if storeWords ≤ word then .fault .storeAddress
  else
    .next (if s.pwr.powered.getLsbD 6 = false then s
    else
      match s.hs.merge.find? fun m => decide (m.word = word) with
      | some m => mergeFlushRead m d pageDecodes s
      | none => if !wordValid word s || pagePoisoned (pageOf word) s then s else wordRead word d pageDecodes 1 s)

/-- R332: initialisation of a region clears its valid maps, and with them its poisoned pages. -/
def regionClear (r : Nat) (s : State) : State :=
  let inside (p : Nat) : Bool := decide (regionFirst r ≤ p) && decide (p < regionFirst (r + 1))
  { s with hs := { s.hs with
      mem := s.hs.mem.filter fun c => !inside (c.1 / 4096), valid := s.hs.valid.filter fun w => !inside (pageOf w),
      poison := s.hs.poison.filter fun p => !inside p,
      merge := s.hs.merge.filter fun m => !inside (pageOf m.word) } }

end Sys2Proof.Machine
end

