-- ==== Sys2Proof/Machine/MemMode.lean ====
section
/-! DEFINITION. The memory-mode engine (R275 to R279): jobs whole and in parts, saved and restored contexts, and the
output areas. -/
namespace Sys2Proof.Machine

open Sys2Proof

def ctxAt (i : Nat) (s : State) : MmCtx := s.mm.getD i {}

def setCtx (i : Nat) (c : MmCtx) (s : State) : State := { s with mm := setAt s.mm i c }

/-- A context idle again; its serial and restore flag stay in peat memory (R279). -/
def idleCtx (c : MmCtx) : MmCtx := { serial := c.serial, restored := c.restored }

/-- R275 to R280: what every MM command is refused for. -/
def mmGate (needsPower : Bool) (ctx : Byte) (s : State) : List (Bool × St) :=
  [(!s.ciph.mmOk, .integrity), (decide (11 < ctx.toNat), .badArg), (needsPower && cipherBarred s, .badState)]

/-- R339: after a page of its output area was zeroed, a context's next command reports INTEGRITY. -/
def mmSound (op : Nat) (h : Hdr) (ctx : Byte) (body : State → State) (s : State) : State :=
  let c := ctxAt ctx.toNat s
  if c.damaged then refuse op h .integrity (setCtx ctx.toNat { c with damaged := false } s) else body s

/-- R277, R330: output areas lie in WORK; where is firmware's, taken as one 16 MiB area per context (log entry 27). -/
def areaBase (ctx : Nat) : Nat := 0x380000000 + 0x1000000 * ctx

/-- The shape of an MM.RUN request (R276, R277). -/
def mmRunBad (h : Hdr) (alg dir mode prio : Byte) (aadLen : Half) (data : List Byte) : Bool :=
  let n := data.length
  let m := n - aadLen.toNat
  decide (3 < alg.toNat) || decide (1 < dir.toNat) || decide (3 < mode.toNat) || decide (3 < prio.toNat)
    || (decide (2 ≤ alg.toNat) && decide (mode ≠ 0))
    || (decide (alg ≠ 0 ∨ 2 ≤ mode.toNat) && decide (aadLen ≠ 0)) || decide (n < aadLen.toNat)
    || ((decide (mode = 1) || decide (mode = 2)) && decide (m % 16 ≠ 0))
    || (decide (alg = 2) && (decide (m % 16 ≠ 0) || decide (m = 0)))
    || (decide (alg = 3) && (decide (m = 0) || (decide (dir = 0) && decide (4088 < m))
        || (decide (dir = 1) && (decide (m % 8 ≠ 0) || decide (m < 16)))))
    || (!h.buf && decide (alg.toNat ≠ 0) && decide (mode ≠ 3))

/-- MM.RUN: the job is queued on its context; MM_JOB_DONE completes it. -/
def execMmRun (h : Hdr) (alg dir mode ctx slot prio : Byte) (aadLen : Half) (iv tag : List Byte) (s : State) : Out :=
  let c := ctxAt ctx.toNat s
  let k := slotNow slot s
  let data := bufData h s
  let cont := decide (mode = 2) || decide (mode = 3)
  command 0x0820 h s (mmSound 0x0820 h ctx
    (guarded 0x0820 h
      (mmGate true ctx s ++
        [(mmRunBad h alg dir mode prio aadLen data, .badArg),
         (decide (k.data.usage ≠ 2) || !usable k, .badArg), (c.job.isSome, .busy),
         (!cont && (c.busy || !c.out.isEmpty), .busy), (cont && !c.busy, .badState),
         (cont && (decide (c.alg ≠ alg.toNat) || decide (c.dir ≠ dir.toNat) || decide (c.slot ≠ slot)), .badArg),
         (decide (alg = 0) && decide (dir = 1) && decide (mode ≠ 0) &&
            decide (16777216 < c.out.length + data.length - aadLen.toNat), .noResource)]
        )
      fun s =>
        let job : MmJob := ⟨h, mode.toNat, data.take aadLen.toNat, data.drop aadLen.toNat, padTo 16 tag, s.q.acting = some true, data.length⟩
        let c1 := if cont then { c with prio := prio.toNat, job := some job }
          else
            let j0 := gcmJ0 iv
            { idleCtx c with
              busy := true, alg := alg.toNat, dir := dir.toNat, prio := prio.toNat, slot := slot,
              ctr := if alg = 0 then incr32 j0 else padTo 16 iv, ghash := List.replicate 16 0,
              iv := if alg = 0 then padTo 12 iv else List.replicate 12 0, job := some job }
        raiseMmVote (setCtx ctx.toNat c1 s)))

/-- R276: the jobs that are ready at the highest priority of any that is, by context, with the bytes they still have to run. -/
def mmReady (s : State) : List (Nat × Nat) :=
  let top := s.mm.foldl (fun a c => if c.job.isSome then min a c.prio else a) 3
  (List.range 16).filterMap fun i =>
    match (ctxAt i s).job with
    | some j => if (ctxAt i s).prio = top then some (i, j.left) else none
    | none => none

/-- R276: jobs of equal priority run in rotation by context number, 1 KiB per turn: the context that finishes next, and what the others
have left then. -/
def mmRotate : Nat → Nat → List (Nat × Nat) → Option (Nat × List (Nat × Nat))
  | 0, _, _ => none
  | n + 1, turn, jobs =>
    match (jobs.find? fun j => decide (turn < j.1)).or jobs.head? with
    | none => none
    | some j =>
      if j.2 ≤ 1024 then some (j.1, jobs.filter fun x => decide (x.1 ≠ j.1))
      else mmRotate n j.1 (jobs.map fun x => if x.1 = j.1 then (x.1, x.2 - 1024) else x)

/-- What a context's job has left after the turns that others' completion took. -/
def mmLeft (left : List (Nat × Nat)) (i : Nat) (c : MmCtx) : MmCtx :=
  match left.find? fun x => decide (x.1 = i) with
  | some x => { c with job := c.job.map fun j => { j with left := x.2 } }
  | none => c

/-- The staging buffer is overwritten with zeros (R277). -/
def zeroBuffer (h : Hdr) (s : State) : State :=
  { s with win := memWriteN 0 s.win (bufBase h.bufIdx) (List.replicate (bufData h s).length 0) }

/-- A GCM part: the next counter block, accumulator, output, and the tag it gives. -/
def gcmPart (key : List Byte) (c : MmCtx) (j : MmJob) : MmCtx × List Byte × List Byte :=
  let acc0 := ghash (ghashKey key) c.ghash (blocks j.aad)
  let r := ctrRun incr32 key (blocks j.data) c.ctr
  let cipherText := if c.dir = 0 then r.1 else j.data
  let acc := ghash (ghashKey key) acc0 (blocks cipherText)
  let c1 := { c with
    ctr := r.2, ghash := acc, aadBytes := c.aadBytes + j.aad.length, dataBytes := c.dataBytes + j.data.length,
    job := none }
  (c1, r.1, gcmTag key c.iv acc c1.aadBytes c1.dataBytes)

/-- R281: the response of MM.RUN. -/
def mmReply (h : Hdr) (tag : List Byte) (bytes area : Nat) (out : Option (List Byte)) (s : State) : State :=
  respond 0x0820 h .ok (result [(16, tag), fld 32 8 bytes, fld 40 8 area]) out s

/-- A GCM job's part completes. -/
def gcmDone (ctx : Nat) (key : List Byte) (c : MmCtx) (j : MmJob) (s : State) : State :=
  let r := gcmPart key c j
  let c1 := r.1
  let last := decide (j.mode = 0) || decide (j.mode = 3)
  if c.dir = 0 then
    mmReply j.hdr (if last then r.2.2 else []) c1.dataBytes 0 (some r.2.1)
      (setCtx ctx (if last then idleCtx c1 else c1) s)
  else if j.mode = 0 then
    if r.2.2 = j.tag then mmReply j.hdr [] c1.dataBytes 0 (some r.2.1) (setCtx ctx (idleCtx c1) s)
    else refuse 0x0820 j.hdr .authFail (zeroBuffer j.hdr (setCtx ctx (idleCtx c1) s))
  else
    let c2 := { c1 with out := c.out ++ r.2.1 }
    let s := storeNarrow r.2.1 (areaBase ctx + c.out.length) s
    if last then
      if r.2.2 = j.tag then
        mmReply j.hdr [] c2.dataBytes c2.out.length none
          (setCtx ctx { idleCtx c2 with out := c2.out, readable := true } s)
      else refuse 0x0820 j.hdr .authFail
        (setCtx ctx (idleCtx c2) (storeNarrow (List.replicate c2.out.length 0) (areaBase ctx) s))
    else mmReply j.hdr [] c2.dataBytes c2.out.length none (setCtx ctx c2 s)

/-- A CTR job's part completes. -/
def ctrDone (ctx : Nat) (key : List Byte) (c : MmCtx) (j : MmJob) (s : State) : State :=
  let r := ctrRun incr128 key (blocks j.data) c.ctr
  let c1 := { c with ctr := r.2, dataBytes := c.dataBytes + j.data.length, job := none }
  let last := decide (j.mode = 0) || decide (j.mode = 3)
  mmReply j.hdr [] c1.dataBytes 0 (some r.1) (setCtx ctx (if last then idleCtx c1 else c1) s)

/-- An ECB job completes. -/
def ecbDone (ctx : Nat) (key : List Byte) (c : MmCtx) (j : MmJob) (s : State) : State :=
  let out := (blocks j.data).flatMap fun b => if b = [] then [] else if c.dir = 0 then aesEnc key b else aesDec key b
  mmReply j.hdr [] j.data.length 0 (some out) (setCtx ctx (idleCtx c) s)

/-- A KW job completes. -/
def kwDone (ctx : Nat) (key : List Byte) (c : MmCtx) (j : MmJob) (s : State) : State :=
  let s1 := setCtx ctx (idleCtx c) s
  if c.dir = 0 then mmReply j.hdr [] j.data.length 0 (some (kwWrap key j.data)) s1
  else
    match kwUnwrap key j.data with
    | some p => mmReply j.hdr [] j.data.length 0 (some p) s1
    | none => refuse 0x0820 j.hdr .authFail (zeroBuffer j.hdr s1)

/-- MM_JOB_DONE: a job completes once no ready job has a higher priority and the rotation comes to its end before any other's (R276,
R277); the CIPH domain is powered and its self-tests are done. -/
def execMmJobDone (ctx : BitVec 4) (s : State) : Out :=
  let c := ctxAt ctx.toNat s
  .next (match c.job with
  | none => s
  | some j =>
    let next := mmRotate 128 s.ciph.mmTurn (mmReady s)
    if s.pwr.powered.getLsbD 5 && decide (next.map (·.1) = some ctx.toNat) && !s.dbg.frozen then
      let left := (next.map (·.2)).getD []
      let s := { s with
        mm := s.mm.mapIdx (mmLeft left), ciph := { s.ciph with mmTurn := ctx.toNat } }
      let key := (slotNow c.slot s).data.key
      let finish (s : State) : State :=
        if s.ciph.mmOk = false then refuse 0x0820 j.hdr .integrity (setCtx ctx.toNat (idleCtx c) s)
        else if c.alg = 0 then gcmDone ctx.toNat key c j s
        else if c.alg = 1 then ctrDone ctx.toNat key c j s
        else if c.alg = 2 then ecbDone ctx.toNat key c j s
        else kwDone ctx.toNat key c j s
      raiseMmVote (answerLate j.late finish s)
    else s)

/-! ### Saved contexts (R278, R279) -/

/-- The first 92 bytes of a saved context. -/
def ctxBody (ctx : Nat) (kcv : List Byte) (c : MmCtx) : List Byte :=
  [BitVec.ofNat 8 c.alg, BitVec.ofNat 8 c.dir, BitVec.ofNat 8 ctx, BitVec.ofNat 8 c.prio, c.slot] ++ padTo 3 kcv
    ++ leBytes 4 c.serial.toNat ++ padTo 16 c.ctr
    ++ (if c.alg = 0 then padTo 16 c.ghash ++ padTo 12 c.iv else List.replicate 28 0)
    ++ leBytes 8 c.aadBytes ++ leBytes 8 c.dataBytes ++ leBytes 8 c.out.length ++ List.replicate 12 0

/-- MM.CTX_SAVE: the context leaves the engine, its output area stays held (log entry 23). -/
def execMmCtxSave (h : Hdr) (ctx form : Byte) (s : State) : Out :=
  let c := ctxAt ctx.toNat s
  let k := slotNow c.slot s
  command 0x0821 h s (mmSound 0x0821 h ctx
    (guarded 0x0821 h
      (mmGate false ctx s ++
        [(decide (1 < form.toNat) || !h.buf, .badArg), (!c.busy || c.job.isSome, .badState),
         (decide (form = 0) && !decide (c.alg = 1) && !k.data.clearCtx, .refused)])
      fun s =>
        let c1 := { c with serial := c.serial + 1, restored := false }
        let body := ctxBody ctx.toNat k.data.kcv c1
        let clear := body ++ leBytes 4 (check0 body)
        let blob := if form = 0 then clear else kwWrap s.ident.kek clear
        respond 0x0821 h .ok (result [fld 16 4 c1.serial.toNat, fld 20 2 blob.length]) (some blob)
          (raiseMmVote (setCtx ctx.toNat { idleCtx c1 with out := c1.out } s))))

/-- The context a clear blob describes. -/
def ctxOf (b : List Byte) (held : List Byte) : MmCtx :=
  { busy := true, alg := (byteAt b 0).toNat, dir := (byteAt b 1).toNat, prio := (byteAt b 3).toNat, slot := byteAt b 4,
    ctr := slice b 12 16, ghash := slice b 28 16, iv := slice b 44 12, aadBytes := fieldAt b 56 8,
    dataBytes := fieldAt b 64 8, out := held }

/-- The checks of R279 on an unwrapped context, in the order of the card's statuses. -/
def restoreCheck (ctx : Byte) (wrapped : Bool) (b : List Byte) (s : State) : List (Bool × St) :=
  let k := slotNow (byteAt b 4) s
  let origin := (byteAt b 2).toNat
  let o := ctxAt origin s
  let area := fieldAt b 72 8
  let t := ctxAt ctx.toNat s
  [(!wrapped && decide (fieldAt b 92 4 ≠ check0 (slice b 0 92)), .integrity),
   (decide (k.data.usage ≠ 2) || !usable k || decide (padTo 3 k.data.kcv ≠ slice b 5 3), .integrity),
   (decide (o.serial.toNat ≠ fieldAt b 8 4) || o.restored, .refused),
   (decide (0 < area) && (decide (origin ≠ ctx.toNat) || decide (o.out.length ≠ area)), .badState),
   (t.busy || (decide (area = 0) && !t.out.isEmpty), .busy)]

/-- MM.CTX_RESTORE. -/
def execMmCtxRestore (h : Hdr) (ctx : Byte) (s : State) : Out :=
  let data := bufData h s
  let wrapped := decide (h.length = 104)
  command 0x0822 h s (mmSound 0x0822 h ctx
    (guarded 0x0822 h
      (mmGate true ctx s ++ [(!h.buf || (decide (h.length ≠ 96) && !wrapped), .badArg)])
      fun s =>
        match (if wrapped then kwUnwrap s.ident.kek data else some data) with
        | none => refuse 0x0822 h .authFail s
        | some b =>
          guarded 0x0822 h (restoreCheck ctx wrapped b s) (fun s =>
            let origin := (byteAt b 2).toNat
            let o := ctxAt origin s
            let s1 := setCtx origin { o with restored := true } s
            let t := ctxAt ctx.toNat s1
            let c := { ctxOf b t.out with serial := t.serial, restored := t.restored }
            reply 0x0822 h [fld 16 4 (fieldAt b 8 4)] (raiseMmVote (setCtx ctx.toNat c s1))) s))

/-- MM.READ: the output area of a context whose finish returned OK. -/
def execMmRead (h : Hdr) (ctx flags : Byte) (offset : Dword) (s : State) : Out :=
  let c := ctxAt ctx.toNat s
  command 0x0823 h s (mmSound 0x0823 h ctx
    (guarded 0x0823 h
      (mmGate false ctx s ++
        [(!h.buf || !reservedClear flags 1, .badArg), (!c.readable, .badState),
         (decide (c.out.length < offset.toNat), .badArg)])
      fun s =>
        let bs := (c.out.drop offset.toNat).take 4096
        let s1 := if bitOf flags 0 then setCtx ctx.toNat (idleCtx c) s else s
        respond 0x0823 h .ok (result [fld 16 2 bs.length]) (some bs) (raiseMmVote s1)))

end Sys2Proof.Machine
end

