-- ==== Sys2Proof/Machine/HostLanes.lean ====
section
/-! DEFINITION. The host lanes (chapter 11): ports and admission, Osier lane frames, bring-up, low-power states, ingress
failure, loopbacks, and the HL commands. -/
namespace Sys2Proof.Machine

open Sys2Proof

/-! ### Ports (R284, R295) -/

/-- R238, R284: what a client code stands for: slots, and lanes of a standards port. -/
def clientSlots (client : Nat) : Option Nat :=
  match client with
  | 1 => some 5 | 2 => some 10 | 3 => some 20 | 4 => some 40 | 5 => some 80 | _ => none

def clientLanes (client : Nat) : Nat :=
  match client with
  | 1 => 1 | 2 => 2 | 3 => 4 | 4 => 8 | _ => 16

/-- R284: the port exists for the client in the mode of the lanes. -/
def portExists (osier : Bool) (client port : Nat) : Bool :=
  if osier then decide (port ≤ 23)
  else decide (client ≠ 5) && decide (port % clientLanes client = 0) && decide (port + clientLanes client ≤ 16)

/-- R284: the port overlaps one in use. -/
def portTaken (client port : Nat) (s : State) : Bool :=
  s.hl.ports.any fun p =>
    if s.hl.osier then decide (p.num = port)
    else decide (p.num < port + clientLanes client) && decide (port < p.num + clientLanes p.client)

/-- R295: positions a port needs per lane frame interval at a step. -/
def portNeed (client step : Nat) : Nat :=
  (match client with | 1 => 20 | 2 => 40 | 3 => 80 | 4 => 160 | _ => 320) * (if step = 3 then 1 else 2)

/-- R295: floor(0.96 (39N - 1)). -/
def positionLimit (n : Nat) : Nat := 96 * (39 * n - 1) / 100

/-- A port put among the others in ascending number. -/
def insertPort (p : Port) : List Port → List Port
  | [] => [p]
  | q :: t => if p.num < q.num then p :: q :: t else q :: insertPort p t

/-- R295: admission in ascending port number: the positions admitted, and the ports with their verdicts. -/
def admitPorts (limit step : Nat) : Nat → List Port → Nat × List Port
  | used, [] => (used, [])
  | used, p :: t =>
    let need := portNeed p.client step
    if used + need ≤ limit then
      let r := admitPorts limit step (used + need) t
      (r.1, { p with unserved := false } :: r.2)
    else
      let r := admitPorts limit step used t
      (r.1, { p with unserved := true } :: r.2)

/-- R302: a port that was unserved until now has had that cause until now. -/
def servedFrom (sf : Sf) (was now : Port) : Port := if was.unserved then { now with condAt := sf } else now

/-- R295: admission is re-evaluated; outside the link-up state of an Osier link no position is admitted yet. -/
def readmit (s : State) : State :=
  if s.hl.osier then
    if s.hl.link = .up then
      let r := admitPorts (positionLimit s.hl.n) s.hl.step 0 s.hl.ports
      { s with hl := { s.hl with
          admitted := r.1, ports := List.zipWith (servedFrom s.time.lts.sf) s.hl.ports r.2 } }
    else s
  else { s with hl := { s.hl with admitted := 0, ports := s.hl.ports.map fun p => { p with unserved := false } } }

/-- R295: a new port could not be admitted at the step of the link. -/
def portRefused (client port : Nat) (s : State) : Bool :=
  s.hl.osier && decide (s.hl.link = .up) &&
    ((admitPorts (positionLimit s.hl.n) s.hl.step 0 (insertPort { num := port, client := client } s.hl.ports)).2.any
      fun p => decide (p.num = port) && p.unserved)

/-- R305: a loopback returns a port's egress as its ingress: all ports of an Osier link, in standards mode the ports whose lanes are
all looped. -/
def portLooped (p : Port) (s : State) : Bool :=
  decide (s.hl.loopback ≠ 0) &&
    (s.hl.osier || (List.range (clientLanes p.client)).all fun i => s.hl.loopLanes.getLsbD (p.num + i))

/-- R305: a loopback within the module, which needs no link-up and ignores the ingress contacts. -/
def nearLoop (p : Port) (s : State) : Bool := portLooped p s && decide (s.hl.loopback ≠ 3)

def unservedBits (s : State) : Nat := s.hl.ports.foldl (fun a p => a + (if p.unserved then 2 ^ p.num else 0)) 0

/-! ### The link (R299, R306, R307) -/

def linkCode : LinkSt → Nat
  | .off => 0 | .detect => 1 | .switch => 2 | .train => 3 | .bond => 4 | .up => 5 | .l1 => 6 | .l2 => 7

/-- The HOST domain is powered. -/
def hostPowered (s : State) : Bool := s.pwr.powered.getLsbD 4

/-- R283: the lanes in use: in ZR400 those of the group, else all of standards mode, or those of the Osier link. -/
def lanesInUse (s : State) : Half :=
  if zrNow s then (match s.hl.group with | some g => 0xF <<< (4 * g) | none => 0)
  else if s.hl.osier then BitVec.ofNat 16 (2 ^ s.hl.n - 1)
  else 0xFFFF

/-- The lanes of a port in standards mode (R284). -/
def portLanes (p : Port) : Half := BitVec.ofNat 16 ((2 ^ clientLanes p.client - 1) * 2 ^ p.num)

/-- R283, R303, R304: the lanes that are powered: none of an Osier link that is off or in L2; from coppicing level C3 on only those
that carry a defined tributary. -/
def lanesOn (s : State) : Half :=
  if !hostPowered s then 0
  else if zrNow s then lanesInUse s
  else if s.hl.osier then (if s.hl.link = .off ∨ s.hl.link = .l2 then 0 else lanesInUse s)
  else if 3 ≤ s.pwr.shed then
    (s.hl.ports.filter fun p => s.tribs.any fun t => decide (t.port = p.num)).foldl (fun w p => w ||| portLanes p) 0
  else lanesInUse s

/-- A change of link state, with HL_LINK when NOTIFY link is set; admission is re-evaluated at a link-up. -/
def linkTo (st : LinkSt) (cause : Nat) (s : State) : State :=
  if s.hl.link = st then { s with hl := { s.hl with since := s.time.lts.sf } }
  else
    let s1 := readmit { s with hl := { s.hl with link := st, since := s.time.lts.sf } }
    if s.hl.notify then
      notify 0x0901 noInstance none
        (ev [fld 20 1 (linkCode st), fld 21 1 (linkCode s.hl.link), fld 22 1 s1.hl.step, fld 23 1 cause,
          fld 24 4 (unservedBits s1)]) s1
    else s1

/-- R296: the control block the module sends: type fields from byte 6, a new SEQ, its CVP0 value. -/
def sendControl (type : Byte) (lanes : Half) (fields : List Byte) (s : State) : State :=
  let seq := byteAt (s.hl.control.getD []) 1 + 1
  let body := [type, seq, 0, BitVec.ofNat 8 s.hl.step] ++ leBytes 2 lanes.toNat ++ padTo 22 fields
  { s with hl := { s.hl with control := some (body ++ leBytes 4 (check0 body)) } }

/-- The lanes of the link as a bitmap. -/
def linkLanes (s : State) : Half := BitVec.ofNat 16 (2 ^ s.hl.n - 1)

/-- R296: a control block the module accepts. -/
def controlGood (type : Byte) (blk : List Byte) : Bool :=
  decide (blk.length = 32) && decide (byteAt blk 0 = type) && decide (byteAt blk 2 = 1) &&
    decide (fieldAt blk 28 4 = check0 (slice blk 0 28))

/-- Every lane of the link satisfies a test. -/
def allLanes (f : Lane → Bool) (s : State) : Bool := (s.hl.lanes.take s.hl.n).all f

def modLane (i : Nat) (f : Lane → Lane) (s : State) : State := { s with hl := { s.hl with lanes := modAt s.hl.lanes i f } }

def mapLanes (f : Lane → Lane) (s : State) : State := { s with hl := { s.hl with lanes := s.hl.lanes.map f } }

/-- A lane at the start of a step: its frames are counted anew. -/
def laneRestart (l : Lane) : Lane :=
  { l with ready := false, goodRun := 0, badRun := 0, badCwRun := 0, adverts := 0, peerReady := false, lfc := none, held := [] }

/-- R298: preset and stored coefficients. -/
def lanePreset (l : Lane) : Lane := { l with c2 := 0, c1 := 0, cp := 0, answer := 0 }
def laneStored (l : Lane) : Lane := { l with c2 := l.s2, c1 := l.s1, cp := l.sp, answer := 0 }

/-- R299: phase 1 starts, for a full bring-up or a fast retrain, after `silence` superframes; a link that has never been up has no
step to retrain to. -/
def bringUp (quick : Bool) (cause silence : Nat) (s : State) : State :=
  let h := s.hl
  let fast := quick && decide (h.lastStep ≠ 0)
  let s1 := linkTo .detect cause (mapLanes laneRestart { s with hl := { h with
      step := 0, target := 0, fast := fast, retried := false, failedTop := false, txSwitch := none, rxSwitch := none,
      txSwitched := false, rxSwitched := false, upSent := false, upSeen := false, lp := none, hostStep := 0, lfc := 0,
      fulls := if fast then h.fulls else h.fulls + 1, fasts := if fast then h.fasts + 1 else h.fasts } })
  let s2 := { s1 with hl := { s1.hl with since := s.time.lts.sf + BitVec.ofNat 48 silence } }
  sendControl 0x01 (linkLanes s2) [BitVec.ofNat 8 s2.hl.maxStep, 0x0F] s2

/-- R299: phase 2 starts, towards a step. -/
def switchTo (target : Nat) (s : State) : State :=
  let sw := s.hl.lfc + 32
  let s1 := linkTo .switch 0 { s with hl := { s.hl with
      target := target, txSwitch := some sw, rxSwitch := none, txSwitched := false, rxSwitched := false } }
  sendControl 0x02 (linkLanes s1) [BitVec.ofNat 8 target, sw, boolByte s1.hl.fast] s1

/-- The lower of the two highest steps (R299). -/
def topStep (s : State) : Nat := min s.hl.maxStep s.hl.hostStep

/-- R299, phase 4. -/
def startBond (s : State) : State :=
  let s1 := linkTo .bond 0 { s with hl := { s.hl with upSent := true, upSeen := false } }
  sendControl 0x05 (linkLanes s1) [BitVec.ofNat 8 s1.hl.step] s1

/-- R293: the lanes of the link are within 12 lane frames of one another. -/
def deskewed (s : State) : Bool :=
  let seen := (s.hl.lanes.take s.hl.n).map fun l => l.lfc
  seen.all fun a => seen.all fun b =>
    match a, b with
    | some x, some y => decide ((x - y).toNat ≤ 12) || decide ((y - x).toNat ≤ 12)
    | _, _ => false

/-- R299: the phases whose completion shows in what the lanes have received. -/
def phaseCheck (s : State) : State :=
  match s.hl.link with
  | .detect =>
    if s.hl.since.toNat ≤ s.time.lts.sf.toNat ∧ allLanes (fun l => l.locked && decide (3 ≤ l.goodRun) && decide (3 ≤ l.adverts)) s
    then switchTo (if s.hl.fast then s.hl.lastStep else 1) s
    else s
  | .switch =>
    if s.hl.txSwitched ∧ s.hl.rxSwitched ∧ allLanes (fun l => l.locked && decide (3 ≤ l.goodRun)) s then
      let stored := s.hl.fast || s.hl.failedTop
      mapLanes (if stored then laneStored else lanePreset) (linkTo .train 0 s)
    else s
  | .train =>
    if allLanes (fun l => l.ready && l.peerReady) s then
      if s.hl.fast || s.hl.failedTop then startBond s
      else if s.hl.step < 2 ∨ s.hl.step < topStep s then switchTo (s.hl.step + 1) s
      else startBond s
    else s
  | .bond =>
    if s.hl.upSent ∧ s.hl.upSeen ∧ deskewed s then
      let s1 := mapLanes (fun l => { l with s2 := l.c2, s1 := l.c1, sp := l.cp }) s
      linkTo .up 0 { s1 with hl := { s1.hl with lastStep := s1.hl.step, upAt := s.time.lts.sf, fast := false } }
    else s
  | _ => s

/-- The Osier link runs in ordinary operation: not in ZR400, the domain powered, neither frozen nor without line time. -/
def linkRuns (s : State) : Bool :=
  s.hl.osier && !zrNow s && hostPowered s && ticking s &&
    match s.hl.link with
    | .off => false
    | .l1 => false
    | .l2 => false
    | _ => true

/-- A low-power request that will not be answered is answered with the state the link is in. -/
def lpAbandon (s : State) : State :=
  match s.hl.lp with
  | some (_, _, late, some h) =>
    answerLate late (reply 0x0905 h [fld 16 1 0]) { s with hl := { s.hl with lp := none } }
  | _ => { s with hl := { s.hl with lp := none } }

/-! ### Lane frames (R288 to R295, R301) -/

/-- HL_LANE: a loss or a return of lane lock. -/
def laneEvent (i : Nat) (locked : Bool) (s : State) : State :=
  notify 0x0903 (BitVec.ofNat 16 i) none (ev [fld 20 1 locked.toNat, fld 21 1 s.hl.step]) s

/-- R292: more than 175 pad symbols in a row count as a bad MARK. -/
def markGood (f : LaneFrame) : Bool := f.markOk && decide (f.pads ≤ 175)

/-- R293: what a frame does to a lane's lock and counters. -/
def laneTake (f : LaneFrame) (l : Lane) : Lane :=
  let good := markGood f && decide (f.laneField = f.lane)
  let bad := f.cw0Bad || f.cw1Bad
  let badRun := if markGood f then 0 else l.badRun + 1
  let badCw := if bad then l.badCwRun + 1 else 0
  let goodRun := if good then l.goodRun + 1 else 0
  let locked :=
    if decide (3 ≤ badRun) || decide (8 ≤ badCw) then false
    else if markGood f && !decide (f.laneField = f.lane) then false
    else l.locked || decide (3 ≤ goodRun)
  { l with
    goodRun := goodRun, badRun := badRun, badCwRun := badCw, locked := locked, lfc := if good then some f.lfc else l.lfc,
    corrected := l.corrected + f.corrected, stuff := l.stuff + BitVec.ofNat 32 f.stuff, ber := f.ber,
    uncorrectable := l.uncorrectable + (if f.cw0Bad then 1 else 0) + (if f.cw1Bad then 1 else 0),
    ready := locked && decide (f.ber < 10000) }

/-- The tag of a position (R289). -/
def tagAt (payload : List Bool) (p : Nat) : Nat := natOfBits ((payload.drop (43 + 5 * p)).take 5)

/-- What a lane frame brings, as it is held for the deskew. -/
def laneHeld (f : LaneFrame) : LaneHeld :=
  ⟨f.lfc, f.cw0Bad, f.cw1Bad, (List.range 39).map fun k => tagAt f.payload (k + 1)⟩

/-- A port's blocks of one interval, from the frames of equal LFC of all lanes (R293, R294, R301): a block per position it owns, an
error control block for each position of a lost second codeword, and one in place of the interval when tags are lost. -/
def portTake (frames : List LaneHeld) (p : Port) : Port :=
  if p.unserved then p
  else
    let sound := frames.filter fun f => !f.cw0Bad
    let mine (f : LaneHeld) : Nat := (f.tags.filter fun g => decide (g = p.num)).length
    let late (f : LaneHeld) : Nat := if f.cw1Bad then ((f.tags.drop 19).filter fun g => decide (g = p.num)).length else 0
    let gone := if sound.length = frames.length then 0 else 1
    let lost := gone + (sound.map late).sum
    { p with blocksIn := p.blocksIn + BitVec.ofNat 32 (gone + (sound.map mine).sum), errBlocks := p.errBlocks + BitVec.ofNat 32 lost,
             errTotal := p.errTotal + lost }

/-- R293: position contents pass on once every lane of the link has delivered the same LFC. -/
def deskew (s : State) : State :=
  let heads := (s.hl.lanes.take s.hl.n).map fun l => l.held.head?
  match heads.head? with
  | some (some f) =>
    if heads.all fun x => decide (x.map (·.lfc) = some f.lfc) then
      { s with hl := { s.hl with
          lanes := s.hl.lanes.map fun l => { l with held := l.held.tail },
          ports := s.hl.ports.map fun p => if nearLoop p s then p else portTake (heads.filterMap id) p } }
    else s
  | _ => s

/-- R301: RDI is sent while any lane of the link is unlocked. -/
def refreshRdi (s : State) : State := { s with hl := { s.hl with rdi := !allLanes (fun l => l.locked) s } }

/-- R292: both directions run at one step, so the module sends one lane frame in the time of each one that it receives (log entry
26). -/
def frameSent (i : Nat) (s : State) : State := if i = 0 then { s with hl := { s.hl with lfc := s.hl.lfc + 1 } } else s

/-- LANE_FRAME_RECEIVE. -/
def execLaneFrameReceive (f : LaneFrame) (s : State) : Out :=
  .next (if linkRuns s && decide (f.lane.toNat < s.hl.n) then
    let i := f.lane.toNat
    let was := (s.hl.lanes.getD i {}).locked
    let s1 := frameSent i (modLane i (laneTake f) s)
    let now := (s1.hl.lanes.getD i {}).locked
    let s2 := refreshRdi (if was = now then s1 else laneEvent i now s1)
    let s3 := if markGood f && !decide (f.laneField = f.lane) then
        sendControl 0x09 (BitVec.ofNat 16 (2 ^ i)) [2] s2
      else s2
    if s3.hl.link = .up then
      if now then deskew (modLane i (fun l => { l with held := (l.held ++ [laneHeld f]).drop (l.held.length - 11) }) s3)
      else bringUp true 1 0 (lpAbandon s3)
    else phaseCheck s3
  else s)

/-! ### Control messages (R297 to R303) -/

/-- OSIER_ADVERTISE: counted in phase 1; in L2 it causes a fast retrain (R303). -/
def execOsierAdvertise (lane : BitVec 4) (blk : List Byte) (s : State) : Out :=
  let i := lane.toNat
  .next (if s.hl.osier && !zrNow s && hostPowered s && ticking s && decide (i < s.hl.n) then
    if s.hl.link = .l2 ∧ controlGood 0x01 blk then bringUp true 0 0 s
    else if s.hl.link = .detect ∧ s.hl.since.toNat ≤ s.time.lts.sf.toNat then
      if controlGood 0x01 blk ∧ (byteAt blk 6 = 2 ∨ byteAt blk 6 = 3) then
        phaseCheck (modLane i (fun l => { l with adverts := l.adverts + 1 })
          { s with hl := { s.hl with hostStep := (byteAt blk 6).toNat, hostCaps := byteAt blk 7 } })
      else modLane i (fun l => { l with adverts := 0 }) s
    else s
  else s)

/-- OSIER_STEP_ACK: the host names the frame after which it switches. -/
def execOsierStepAck (lane : BitVec 4) (blk : List Byte) (s : State) : Out :=
  .next (if linkRuns s && decide (lane.toNat < s.hl.n) && decide (s.hl.link = .switch) && controlGood 0x03 blk &&
      decide ((byteAt blk 6).toNat = s.hl.target) then
    { s with hl := { s.hl with rxSwitch := some (byteAt blk 7) } }
  else s)

/-- OSIER_STEP_SWITCH: the module's transmitter, or its receiver, switches after the frame named for it; once both have,
the step is the new one, and LFC restarts at a bonded step (R292). -/
def execOsierStepSwitch (transmitter : Bool) (s : State) : Out :=
  let h := s.hl
  .next (if linkRuns s && decide (h.link = .switch) && h.rxSwitch.isSome then
    let h1 := if transmitter then { h with txSwitched := true } else { h with rxSwitched := true }
    let s1 := if transmitter then { s with hl := h1 } else mapLanes laneRestart { s with hl := h1 }
    if h1.txSwitched ∧ h1.rxSwitched then
      phaseCheck { s1 with hl := { s1.hl with step := h.target, lfc := if 2 ≤ h.target then 0 else h.lfc } }
    else s1
  else s)

/-- A tap after a request of TRAIN, and the answer code (R297, R298). -/
def tapMove (req : Nat) (lo hi v : Int) : Int × Nat :=
  if req = 1 then (if v < hi then (v + 1, 1) else (v, 3))
  else if req = 2 then (if lo < v then (v - 1, 1) else (v, 2))
  else (v, 0)

/-- R298: a transmitter applies a request: preset, stored, or one step of each tap within its range, and answers it. -/
def tapRequest (req : Byte) (l : Lane) : Lane :=
  let r := req.toNat
  if r / 64 = 1 then { lanePreset l with answer := 0x15 }
  else if r / 64 = 2 then { laneStored l with answer := 0x15 }
  else
    let a := tapMove (r % 4) 0 8 l.c2
    let b := tapMove (r / 4 % 4) (-24) 0 l.c1
    let c := tapMove (r / 16 % 4) (-20) 0 l.cp
    { l with c2 := a.1, c1 := b.1, cp := c.1, answer := BitVec.ofNat 8 (a.2 + 4 * b.2 + 16 * c.2) }

/-- OSIER_TRAIN: the host's request is applied and answered, and its receiver's readiness noted; what the module's receiver asks of the
host's transmitter is its own affair (a free value, log entry 26). -/
def execOsierTrain (lane : BitVec 4) (blk : List Byte) (s : State) : Out :=
  .next (if linkRuns s && decide (lane.toNat < s.hl.n) && decide (s.hl.link = .train) && controlGood 0x04 blk then
    let s1 := modLane lane.toNat (fun l => { tapRequest (byteAt blk 6) l with peerReady := bitOf (byteAt blk 8) 0 }) s
    let l := s1.hl.lanes.getD lane.toNat {}
    let want := free 0 s1 % 3 + 4 * (free 1 s1 % 3) + 16 * (free 2 s1 % 3)
    phaseCheck (drawMany 3
      (sendControl 0x04 (BitVec.ofNat 16 (2 ^ lane.toNat)) [BitVec.ofNat 8 want, l.answer, boolByte l.ready] s1))
  else s)

/-- OSIER_LINK_UP: the link is up once both messages have been sent and received. -/
def execOsierLinkUp (lane : BitVec 4) (blk : List Byte) (s : State) : Out :=
  .next (if linkRuns s && decide (lane.toNat < s.hl.n) && decide (s.hl.link = .bond) && controlGood 0x05 blk &&
      decide ((byteAt blk 6).toNat = s.hl.step) then
    phaseCheck { s with hl := { s.hl with upSeen := true } }
  else s)

/-- The link goes into a low-power state. -/
def linkLow (state : Nat) (cause : Nat) (s : State) : State := linkTo (if state = 1 then .l1 else .l2) cause s

/-- OSIER_LP_REQ: the host asks for L1 or L2 and the module answers; a request of the module's own stands (R300). -/
def execOsierLpReq (lane : BitVec 4) (blk : List Byte) (s : State) : Out :=
  let st := (byteAt blk 6).toNat
  .next (if linkRuns s && decide (lane.toNat < s.hl.n) && decide (s.hl.link = .up) && controlGood 0x06 blk &&
      (decide (st = 1) || decide (st = 2)) && s.hl.lp.isNone then
    linkLow st 0 (sendControl 0x07 (linkLanes s) [BitVec.ofNat 8 st, s.hl.lfc + 1] s)
  else s)

/-- OSIER_LP_ACK: the host answers the module's request, and the command that made it completes. -/
def execOsierLpAck (lane : BitVec 4) (blk : List Byte) (s : State) : Out :=
  .next (match s.hl.lp with
  | none => s
  | some r =>
    if linkRuns s && decide (lane.toNat < s.hl.n) && decide (s.hl.link = .up) && controlGood 0x07 blk &&
        decide ((byteAt blk 6).toNat = r.1) then
      let s1 := linkLow r.1 0 { s with hl := { s.hl with lp := none } }
      match r.2.2.2 with
      | some h => answerLate r.2.2.1 (reply 0x0905 h [fld 16 1 r.1]) s1
      | none => s1
    else s)

/-- OSIER_FAULT: it ends the link-up state, and the module starts a fast retrain (R301). -/
def execOsierFault (lane : BitVec 4) (blk : List Byte) (s : State) : Out :=
  .next (if linkRuns s && decide (lane.toNat < s.hl.n) && decide (s.hl.link = .up) && controlGood 0x09 blk then
    bringUp true 3 0 (lpAbandon s)
  else s)

/-- R299: the limit of the running phase in superframes; phase 1 has none. -/
def phaseLimit (s : State) : Option Nat :=
  match s.hl.link with
  | .switch => some 16
  | .train => some (if s.hl.fast then 80 else if s.hl.step = 1 then 64 else if s.hl.step = 2 then 96 else 160)
  | .bond => some 16
  | _ => none

/-- OSIER_PHASE_LIMIT: a phase has run into its limit; after a fast retrain that fails a full bring-up follows (R299). -/
def execOsierPhaseLimit (s : State) : Out :=
  .next (match phaseLimit s with
  | none => s
  | some n =>
    if linkRuns s && decide (n ≤ sfSince s.hl.since s) then
      if s.hl.link = .train then
        if s.hl.fast then bringUp false 2 0 s
        else if s.hl.step = 3 then
          if s.hl.retried then
            switchTo 2 (sendControl 0x09 (linkLanes s) [1] { s with hl := { s.hl with failedTop := true } })
          else
            mapLanes (fun l => { lanePreset l with ready := false, peerReady := false })
              { s with hl := { s.hl with retried := true, since := s.time.lts.sf } }
        else bringUp false 2 160 (sendControl 0x09 (linkLanes s) [1] s)
      else bringUp false 2 0 s
    else s)

/-- OSIER_L1_EXIT: pad symbols from either side; lane frames resume with LFC 0 (R303). -/
def execOsierL1Exit (s : State) : Out :=
  .next (if s.hl.osier && !zrNow s && hostPowered s && ticking s && decide (s.hl.link = .l1) then
    linkTo .up 0 { s with hl := { s.hl with lfc := 0 } }
  else s)

/-! ### Ingress failure (R245, R302) -/

def ingressCode : IngressCause → Nat
  | .signal => 0 | .lockLost => 1 | .highBer => 2 | .buffer => 3 | .unserved => 4

def modPort (n : Nat) (f : Port → Port) (s : State) : State :=
  { s with hl := { s.hl with ports := s.hl.ports.map fun p => if p.num = n then f p else p } }

/-- The mapper of a port's tributary sends the replacement signal with CSF, or its client. -/
def setCsf (n : Nat) (b : Bool) (s : State) : State :=
  { s with tribs := s.tribs.map fun t => if t.port = n then { t with txCsf := b } else t }

/-- The port's client runs in standards mode: its lanes do, or the module is in ZR400 (R285). -/
def standardsNow (s : State) : Bool := !s.hl.osier || zrNow s

/-- R302: the causes that a mode of the lanes knows, as far as the state shows them. -/
def ingressHolds (p : Port) (c : IngressCause) (s : State) : Bool :=
  match c with
  | .signal => standardsNow s || decide (s.hl.link ≠ .up)
  | .lockLost => standardsNow s
  | .highBer => standardsNow s
  | .buffer => !standardsNow s
  | .unserved => !standardsNow s && p.unserved

/-- INGRESS_FAIL: a cause holds, for the first time or still. -/
def execIngressFail (port : Byte) (cause : IngressCause) (s : State) : Out :=
  .next (match s.hl.ports.find? fun p => decide (p.num = port.toNat) with
  | none => s
  | some p =>
    if ingressHolds p cause s && !nearLoop p s && ticking s then
      let s1 := modPort p.num (fun p => { p with
        condAt := s.time.lts.sf, overruns := if cause = .buffer then p.overruns + 1 else p.overruns }) s
      if p.failed.isSome then s1
      else
        notify 0x0902 (BitVec.ofNat 16 port.toNat) (some true) (ev [fld 20 1 (ingressCode cause)])
          (setCsf p.num true (modPort p.num (fun p => { p with failed := some cause }) s1))
    else s)

/-- INGRESS_RECOVER: 16 consecutive superframes without a cause; the client is up. A port in a loopback of the module's own has no
ingress to fail (R305). -/
def execIngressRecover (port : Byte) (s : State) : Out :=
  .next (match s.hl.ports.find? fun p => decide (p.num = port.toNat) with
  | none => s
  | some p =>
    let quiet := decide (16 ≤ sfSince p.condAt s)
    let clear := nearLoop p s
      || (quiet && (standardsNow s || (decide (s.hl.link = .up) && !p.unserved && decide (16 ≤ sfSince s.hl.upAt s))))
    if clear && ticking s then
      let s1 := setCsf p.num false (modPort p.num (fun p => { p with failed := none }) s)
      match p.failed with
      | some c => notify 0x0902 (BitVec.ofNat 16 port.toNat) (some false) (ev [fld 20 1 (ingressCode c)]) s1
      | none => s1
    else s)

/-! ### Other events (R285, R304) -/

/-- An Osier link goes off or into L2 and remembers where it was; a request under way is abandoned. -/
def linkHold (st : LinkSt) (cause : Nat) (s : State) : State :=
  if s.hl.osier && s.hl.before.isNone then
    let s0 := lpAbandon s
    linkTo st cause { s0 with hl := { s0.hl with before := some s.hl.link } }
  else s

/-- The link returns to the state it was held from: one that was in L2 or off stays, any other retrains, fast. -/
def linkReturn (cause : Nat) (s : State) : State :=
  match s.hl.before with
  | none => s
  | some b =>
    let s1 := { s with hl := { s.hl with before := none } }
    match b with
    | .off => linkTo .off cause s1
    | .l2 => linkTo .l2 cause s1
    | _ => bringUp true cause 0 s1

/-- R304: coppicing C4: every lane goes off or to L2, with FAULT cause 4 first. -/
def linkShutdown (s : State) : State :=
  if s.hl.osier then linkHold .l2 4 (sendControl 0x09 (linkLanes s) [4] s) else s

/-- R304: SLEEP, DEEP and OFF: the HOST domain is off. -/
def linkOff (s : State) : State :=
  if s.hl.osier then linkTo .off 6 (lpAbandon s) else s

/-! ### Commands (R306) -/

/-- R300: a bring-up is in progress. -/
def bringingUp (s : State) : Bool :=
  s.hl.osier && !zrNow s &&
    match s.hl.link with
    | .detect => true
    | .switch => true
    | .train => true
    | .bond => true
    | _ => false

/-- The checks of HL.CONFIG; `zr` says that the mode it acts in is ZR400 (R285). -/
def hlConfigCheck (zr : Bool) (mode n step group flags : Byte) (s : State) : List (Bool × St) :=
  let osier := decide (mode = 1)
  [(decide (1 < mode.toNat) || decide (n.toNat < 1) || decide (16 < n.toNat) || decide (step.toNat < 2)
      || decide (3 < step.toNat) || (decide (3 < group.toNat) && decide (group ≠ 0xFF)) || !reservedClear flags 1, .badArg),
   (bringingUp s, .busy),
   ((decide (osier ≠ s.hl.osier) || decide (n.toNat ≠ s.hl.n)) && !s.tribs.isEmpty, .refused),
   (zr && decide (group = 0xFF), .refused)]

/-- R285: in ZR400 the one port is the 400GE client on the lane group of HL.CONFIG. -/
def zrPorts (s : State) : State :=
  if zrNow s then
    match s.hl.group with
    | some g =>
      if s.hl.ports.any fun p => decide (p.num = 4 * g) then s
      else { s with hl := { s.hl with ports := [{ num := 4 * g, client := 3 }] } }
    | none => { s with hl := { s.hl with ports := [] } }
  else s

/-- The effect of HL.CONFIG: a new mode, or a new N of an Osier link, brings the lanes up anew. -/
def hlConfigApply (mode n step group flags : Byte) (inPol outPol : Half) (s : State) : State :=
  let osier := decide (mode = 1)
  let fresh := decide (osier ≠ s.hl.osier) || (osier && decide (n.toNat ≠ s.hl.n))
  let s0 := if fresh then lpAbandon s else s
  let s1 := { s0 with hl := { s0.hl with
      osier := osier, n := n.toNat, maxStep := step.toNat, group := if group = 0xFF then none else some group.toNat,
      notify := bitOf flags 0, inPol := inPol, outPol := outPol } }
  zrPorts (if fresh then
    if osier then
      if zrNow s then linkTo .l2 0 { s1 with hl := { s1.hl with before := some .detect } } else if hostPowered s then bringUp false 0 0 s1 else s1
    else readmit (linkTo .off 0 { s1 with hl := { s1.hl with before := none } })
  else s1)

/-- HL.CONFIG. -/
def execHlConfig (h : Hdr) (mode n step group flags : Byte) (inPol outPol : Half) (s : State) : Out :=
  command 0x0901 h s
    (guarded 0x0901 h (hlConfigCheck (zrNow s) mode n step group flags s) fun s =>
      done 0x0901 h (hlConfigApply mode n step group flags inPol outPol s))

def laneBits (f : Lane → Bool) (s : State) : Nat :=
  (List.range 16).foldl (fun a i => a + (if f (s.hl.lanes.getD i {}) then 2 ^ i else 0)) 0

/-- HL.STATUS: the largest measured lane skew is a free value. -/
def execHlStatus (h : Hdr) (s : State) : Out :=
  command 0x0902 h s fun s =>
    let l := s.hl
    reply 0x0902 h
      [fld 16 1 l.osier.toNat, fld 17 1 l.n, fld 18 1 (linkCode l.link), fld 19 1 l.step, fld 20 1 l.loopback,
       fld 22 2 (laneBits (fun x => x.locked) s), fld 24 2 (laneBits (fun x => x.ready) s), fld 26 2 l.admitted,
       fld 28 2 (if l.osier then positionLimit l.n else 0), fld 32 4 (unservedBits s), fld 36 4 l.fulls.toNat,
       fld 40 4 l.fasts.toNat, fld 44 4 (free 0 s), fld 48 6 l.upAt.toNat]
      (nextDraw s)

/-- HL.LANE. -/
def execHlLaneStatus (h : Hdr) (lane : Byte) (s : State) : Out :=
  let l := s.hl.lanes.getD lane.toNat {}
  command 0x0903 h s
    (guarded 0x0903 h [(decide (15 < lane.toNat), .badArg)] fun s =>
      let inv := (!s.hl.osier) && (s.hl.inPol.getLsbD lane.toNat || s.hl.outPol.getLsbD lane.toNat)
      reply 0x0903 h
        [fld 17 1 s.hl.step, fld 18 1 (boolBit l.locked 0 + boolBit l.ready 1 + boolBit inv 2), fldI 19 1 l.c2,
         fldI 20 1 l.c1, fldI 21 1 l.cp, fld 24 8 l.corrected, fld 32 4 l.uncorrectable.toNat, fld 36 4 l.stuff.toNat,
         fld 40 4 l.ber] s)

/-- HL.PORT. -/
def execHlPort (h : Hdr) (port flags : Byte) (s : State) : Out :=
  command 0x0904 h s
    (match s.hl.ports.find? fun p => decide (p.num = port.toNat) with
    | none => refuse 0x0904 h .badArg
    | some p =>
      guarded 0x0904 h [(!reservedClear flags 1, .badArg)] fun s =>
        reply 0x0904 h
          [fld 17 1 p.client, fld 18 1 (boolBit p.failed.isSome 0 + boolBit p.unserved 1), fld 20 4 p.blocksIn.toNat,
           fld 24 4 p.blocksOut.toNat, fld 28 4 p.errBlocks.toNat, fld 32 4 p.overruns.toNat,
           fld 36 4 p.discarded.toNat]
          (if bitOf flags 0 then
            modPort p.num (fun p => { p with
              blocksIn := 0, blocksOut := 0, errBlocks := 0, overruns := 0, discarded := 0 }) s
          else s))

/-- A port that carries a defined tributary is admitted (R303). -/
def trafficAdmitted (s : State) : Bool := s.hl.ports.any fun p => !p.unserved && s.tribs.any fun t => decide (t.port = p.num)

/-- HL.POWER: to L1 or L2 the module sends LP_REQ and answers when the host has; from L1 the frames resume, from L2 a
fast retrain starts (R303). -/
def execHlPower (h : Hdr) (state : Byte) (s : State) : Out :=
  command 0x0905 h s
    (guarded 0x0905 h
      [(decide (2 < state.toNat), .badArg), (standardsNow s || s.pwr.failed.getLsbD 4, .badState), (bringingUp s, .busy), (s.hl.lp.isSome, .busy),
       (decide (s.hl.link = .off), .badState),
       (decide (state ≠ 0) && trafficAdmitted s, .refused),
       (decide (state = 1) && decide (s.hl.link = .l2), .badState),
       (decide (state = 2) && decide (s.hl.link = .l1), .badState)]
      fun s =>
        if state = 0 then
          match s.hl.link with
          | .l1 => reply 0x0905 h [fld 16 1 0] (linkTo .up 0 { s with hl := { s.hl with lfc := 0 } })
          | .l2 => reply 0x0905 h [fld 16 1 0] (bringUp true 0 0 s)
          | _ => reply 0x0905 h [fld 16 1 0] s
        else if s.hl.link = .up then
          let lfc := s.hl.lfc + 1
          sendControl 0x06 (linkLanes s) [state, lfc]
            { s with hl := { s.hl with lp := some (state.toNat, lfc, s.q.acting = some true, some h) } }
        else reply 0x0905 h [fld 16 1 state.toNat] s)

/-- HL.LOOPBACK. -/
def execHlLoopback (h : Hdr) (kind : Byte) (lanes : Half) (s : State) : Out :=
  let far := decide (kind = 3)
  command 0x0906 h s
    (guarded 0x0906 h
      [(decide (3 < kind.toNat) || (s.hl.osier && decide (lanes ≠ 0)), .badArg), (bringingUp s, .busy),
       (far && (standardsNow s || decide (s.hl.link ≠ .up)), .badState), (far && !bitOf s.hl.hostCaps 2, .refused)]
      fun s =>
        let s1 := { s with hl := { s.hl with loopback := kind.toNat, loopLanes := lanes } }
        done 0x0906 h
          (if far then sendControl 0x08 (linkLanes s) [1, s.hl.lfc + 1] s1
          else if s.hl.loopback = 3 then sendControl 0x08 (linkLanes s) [0, s.hl.lfc + 1] s1 else s1))

/-- HL.RETRAIN abandons any bring-up and starts the one it names (R300). -/
def execHlRetrain (h : Hdr) (kind : Byte) (s : State) : Out :=
  command 0x0907 h s
    (guarded 0x0907 h [(decide (1 < kind.toNat), .badArg), (standardsNow s || s.pwr.failed.getLsbD 4, .badState)] fun s =>
      done 0x0907 h (bringUp (decide (kind = 0)) 0 0 (lpAbandon s)))

end Sys2Proof.Machine
end

