-- ==== Sys2Proof/Machine/Transport.lean ====
section
/-! DEFINITION. The transport framer and the tributary mapper (chapter 9): the per-superframe overhead, framing, frames
sent, justification, defects and their integration, and the TRIB and TF commands. -/
namespace Sys2Proof.Machine

open Sys2Proof

/-! ### The per-superframe overhead (R222, R224) -/

/-- R224: the CHECK of an overhead fits. -/
def sfohCheck (b : List Byte) : Bool := decide (fieldAt b 12 4 = check0 (slice b 0 12))

/-- The positions of TF headers that the pointers of this and of the previous superframe give (R230). -/
def pointers (f : Tf) : List Nat := f.ptr.toList ++ f.ptrPrev.toList

/-- R230: a position agrees with the pointer when it lies whole frames from a header the pointer gives. -/
def agrees (f : Tf) (pos : Nat) : Bool :=
  (pointers f).any fun p => decide (pos % 65536 = p % 65536)

/-- The framer is in frame from a winning candidate on; every other candidate is closed (R230). -/
def inFrame (c : Cand) (t : Lts) (s : State) : State :=
  refreshTribs (refreshRawsAt t { s with tf := { s.tf with st := 3, cands := [], pos := c.pos, tfn := c.tfn, badRun := 0 } })

/-- R232: once a usable overhead has come in this or the previous superframe, complete candidates that do not agree are closed and counted, and the first that agrees wins. -/
def judgeCands (t : Lts) (s : State) : State :=
  let f := s.tf
  if f.st ≠ 2 ∨ (f.usable = false ∧ f.usablePrev = false) then s
  else
    match f.cands.find? fun c => decide (2 ≤ c.passed) && agrees f c.pos with
    | some c => inFrame c t s
    | none =>
      let lost := (f.cands.filter fun c => decide (2 ≤ c.passed)).length
      let rest := f.cands.filter fun c => decide (c.passed < 2)
      refreshRaws { s with tf := { f with
        cands := rest, disagree := f.disagree + BitVec.ofNat 32 lost,
        st := if rest.isEmpty then 1 else 2, hunts := if rest.isEmpty then f.hunts + 1 else f.hunts } }

/-- R224: the overhead that opens a received superframe: FBYTES comes from it, from the one of the superframe before, or stays. A usable
one's pointer gives a header position, and a pointer serves in its own superframe and in the next. -/
def sfohTake (bytes : List Byte) (rxSf : Sf) (ok : Bool) (f : Tf) : Tf :=
  let base := f.base + f.fbytes
  let next := decide (rxSf = f.rxSf + 1)
  let fb := if ok then beNat (slice bytes 0 4) else if next then f.fnext.getD f.fbytes else f.fbytes
  { f with
    rxSf := rxSf, prevSf := f.rxSf, prevBase := f.base, prevFbytes := f.fbytes, base := base, fbytes := fb,
    fnext := if ok then some (beNat (slice bytes 4 4)) else none, ptrPrev := if next then f.ptr else none,
    ptr := if ok && bitOf (byteAt bytes 11) 0 then some (base + beNat (slice bytes 8 2)) else none,
    usablePrev := f.usable && next, usable := ok, sfohFails := if sfohCheck bytes then f.sfohFails else f.sfohFails + 1 }

/-- SFOH_RECEIVE: the overhead of a received superframe, usable when its CHECK fits and none of its 128 bits is marked; complete
candidates are judged by its pointer. -/
def execSfohReceive (bytes : List Byte) (rxSf : Sf) (s : State) : Out :=
  .next (if ticking s && slotModeNow s && decide (s.fec.st = 2) && decide (bytes.length = 16) then
    judgeCands s.time.lts { s with tf := sfohTake bytes rxSf (sfohCheck bytes && !bitsMarked rxSf 0 128 s) s.tf }
  else s)

/-! ### Justification (R229, R241, R243) -/

/-- R229: blocks of the slots `lo` to `lo + n - 1` before frame `t`, in a mode of `N` slots. -/
def blocksBefore (slots lo n t : Nat) : Nat :=
  (4080 * t / slots) * n + min n (4080 * t % slots - lo)

/-- R241: fixed stuff among the first `j` regular blocks. -/
def stuffBefore (slots n j : Nat) : Nat := j * (22 * 4080 * n - 1296 * slots) / (2592 * (4080 * n - slots))

/-- R241: a tributary's regular data blocks in the frame with number `t`. -/
def regularData (slots lo n t : Nat) : Nat :=
  let j0 := blocksBefore slots lo n t - t
  let j1 := blocksBefore slots lo n (t + 1) - (t + 1)
  (j1 - j0) - (stuffBefore slots n j1 - stuffBefore slots n j0)

/-- A tributary's regular data blocks in a frame. -/
def tribData (t : Trib) (tfn : Word) (s : State) : Nat :=
  regularData (slotsNow s) t.tid.toNat ((clientSlots t.client).getD 0) tfn.toNat

/-- R241: regular block `j` is fixed stuff. -/
def isStuff (slots n j : Nat) : Bool := decide (stuffBefore slots n j < stuffBefore slots n (j + 1))

/-- R229, R241: the payload blocks of frame `t` in which a tributary's data stand, in their order: the JO where it carries data, and
the regular blocks that are no stuff. -/
def dataPlaces (slots lo n t : Nat) (jo : Bool) : List Nat :=
  let own := (List.range 4080).filter fun k => decide (lo ≤ (4080 * t + k) % slots) && decide ((4080 * t + k) % slots < lo + n)
  let j0 := blocksBefore slots lo n t - t
  let regular := (own.tail.mapIdx fun i k => (i, k)).filter fun x => !isStuff slots n (j0 + x.1)
  (if jo then own.take 1 else []) ++ regular.map (·.2)

/-- The same for a tributary in the mode in effect. -/
def tribPlaces (t : Trib) (tfn : Word) (jo : Bool) (s : State) : List Nat :=
  dataPlaces (slotsNow s) t.tid.toNat ((clientSlots t.client).getD 0) tfn.toNat jo

/-- R243: the block pointer of the next frame. -/
def nextBp (bp d : Nat) : Nat := (((bp : Int) - 128 * d) % 257).toNat

/-- The 257-bit blocks that start in a frame of `d` data blocks whose pointer is `bp`. -/
def blocksStarting (bp d : Nat) : Nat := (128 * d - bp + 256) / 257

/-- R239, R243: what JC says: decrement (the JO carries data), increment, or nothing valid. -/
def jcOf (jc : Nat) : Option Bool := if jc = 0xA then some true else if jc = 0x5 then some false else none

/-- Blocks leave towards a port's client, or are discarded when the port is unserved (R295); in a loopback within the module they
return as the port's ingress (R305). -/
def egress (port n : Nat) (s : State) : State :=
  modPort port (fun p =>
    if p.unserved then { p with discarded := p.discarded + BitVec.ofNat 32 n }
    else { p with blocksOut := p.blocksOut + BitVec.ofNat 32 n,
                  blocksIn := if nearLoop p s then p.blocksIn + BitVec.ofNat 32 n else p.blocksIn }) s

/-- R246: client bits `a` to `b - 1` of a frame at byte `pos` of the stream, whose data stand in `places`, hold a marked bit. -/
def clientMarked (pos : Nat) (places : List Nat) (a b : Nat) (s : State) : Bool :=
  (places.mapIdx fun j k => (j, k)).any fun x =>
    let lo := max a (128 * x.1)
    let hi := min b (128 * x.1 + 128)
    decide (lo < hi) && streamMarked (8 * (pos + 256 + 16 * x.2) + (lo - 128 * x.1)) (hi - lo) s

/-- R246: the 257-bit blocks of a frame whose pointer is `bp` that hold a marked bit, one that reaches in from the frame before left
out when it has been counted, and whether the block that reaches into the next frame is among them. -/
def errorBlocks (pos : Nat) (places : List Nat) (bp : Nat) (counted : Bool) (s : State) : Nat × Bool :=
  if s.fec.marks.isEmpty then (0, false)
  else
    let bits := 128 * places.length
    let n := blocksStarting bp places.length
    let here := (List.range n).filter fun i => clientMarked pos places (bp + 257 * i) (bp + 257 * i + 257) s
    let first := decide (0 < bp) && !counted && clientMarked pos places 0 bp s
    (here.length + first.toNat, here.any fun i => decide (bits < bp + 257 * i + 257))

/-- R243: the JO of the frame held, which began one frame before the one received at `pos`, is settled by the block pointer of the
latter, none when that is marked or no pointer. Client blocks with marked bits become error control blocks (R246); so does every block
until an alignment that fits neither prediction is taken anew. -/
def settleJo (t : Trib) (pos : Nat) (tfn : Word) (bp : Option Nat) (s : State) : State :=
  match t.bp with
  | none => s
  | some b =>
    let p1 := nextBp b (t.dataNow + 1)
    let p0 := nextBp b t.dataNow
    let said := t.jc.getD false
    let fits := !t.gap && (decide (bp = some p1) || decide (bp = some p0))
    let took := if fits then decide (bp = some p1) else said
    let n := blocksStarting b (t.dataNow + took.toNat)
    let e := errorBlocks (pos - 65536) (tribPlaces t (tfn - 1) took s) b t.tailMarked s
    egress t.port n (modTrib t.tid (fun t =>
      if fits then
        { t with mismatches := if t.jc.isSome ∧ took ≠ said then t.mismatches + 1 else t.mismatches,
                 errBlocks := t.errBlocks + BitVec.ofNat 32 e.1, tailMarked := e.2 }
      else
        { t with retakes := if t.gap then t.retakes else t.retakes + 1, errBlocks := t.errBlocks + BitVec.ofNat 32 n,
                 gap := bp.isNone, tailMarked := true }) s)

/-- R246: what the mapper holds of a tributary until its next frame: the pointer received, or while one is missing what the frame held
leads to. -/
def heldBp (t : Trib) (bp : Option Nat) : Option Nat :=
  match bp, t.bp with
  | some v, _ => some v
  | none, some b => some (nextBp b (t.dataNow + (t.jc.getD false).toNat))
  | none, none => none

/-- R260: the entries of a span are kept as received, 4 bytes for each frame received in frame; they begin anew at each TFN that is a
multiple of 16 (R259). -/
def aadTake (tfn : Word) (e : List Byte) (t : Trib) : Trib :=
  if tfn.toNat % 16 = 0 then { t with prevAad := t.rxAad, rxAad := padTo 4 e } else { t with rxAad := t.rxAad ++ padTo 4 e }

/-- A tributary's entry in the table of a frame at `pos`, with its index: none when no entry carries its ID, `some none` when a marked
one may (R240, R246). -/
def entryOf (tid : Byte) (pos : Nat) (table : List (List Byte)) (s : State) : Option (Option (Nat × List Byte)) :=
  let es := table.mapIdx fun e b => (e, b, bytesMarked (pos + 24 + 4 * e) 4 s)
  match es.find? fun x => !x.2.2 && decide (byteAt x.2.1 0 = tid) with
  | some x => some (some (x.1, x.2.1))
  | none => if es.any (fun x => x.2.2) then some none else none

/-- R235, R239, R243, R246: a tributary takes its part of a received frame. -/
def tribTake (t : Trib) (tfn : Word) (pos : Nat) (table : List (List Byte)) (at_ : Lts) (s : State) : State :=
  let data := tribData t tfn s
  let held (bp : Option Nat) (jc : Option Bool) (e : List Byte) (x : Trib) : Trib :=
    aadTake tfn e { x with bp := heldBp t bp, jc := jc, dataNow := data }
  match entryOf t.tid pos table s with
  | none =>
    modTrib t.tid (fun t => held none none [] { t with rxPt := 0xFF, plm := runLevel 5 true at_ t.plm })
      (settleJo t pos tfn none s)
  | some none =>
    modTrib t.tid (fun t => held none none (table.getD t.rxEntry []) { t with
      plm := runLevel 5 (decide (t.rxPt ≠ t.client)) at_ t.plm, csf := runLevel 5 t.csf.raw at_ t.csf })
      (settleJo t pos tfn none s)
  | some (some (i, e)) =>
    let v := beNat (slice e 2 2)
    let pt := (byteAt e 1).toNat / 16
    let bp := if v % 512 ≤ 256 then some (v % 512) else none
    modTrib t.tid (fun t => held bp (jcOf (v / 4096)) e { t with
      rxEntry := i, rxPt := pt, rxEnc := bitOf (byteAt e 1) 2, csf := runLevel 5 (bitOf (byteAt e 1) 3) at_ t.csf,
      plm := runLevel 5 (decide (pt ≠ t.client)) at_ t.plm })
      (settleJo t pos tfn bp s)

/-! ### Finding and keeping the frame (R230 to R233) -/

/-- R226: the header check. -/
def headerPasses (mode : Byte) (b : List Byte) : Bool :=
  decide (fieldAt b 12 4 = check0 (slice b 0 12)) && decide (byteAt b 4 = mode) &&
    decide (byteAt b 8 &&& 0xFE = 0) && decide (slice b 9 3 = [0, 0, 0])

def headerTfn (b : List Byte) : Word := BitVec.ofNat 32 (beNat (slice b 0 4))

/-- The oldest candidate that does not agree with the pointer gives up its place (R232). -/
def dropDisagreeing (f : Tf) : List Cand → Option (List Cand)
  | [] => none
  | c :: t => if agrees f c.pos then (dropDisagreeing f t).map (c :: ·) else some t

/-- R232: a new candidate, at most 16 open. -/
def openCand (c : Cand) (f : Tf) : Tf :=
  if f.cands.length < 16 then { f with cands := f.cands ++ [c], st := 2 }
  else if agrees f c.pos then
    match dropDisagreeing f f.cands with
    | some r => { f with cands := r ++ [c], st := 2 }
    | none => f
  else f

/-- A candidate meets the header at its position: confirmed, passed over when marked, or closed (R230, R231). -/
def candTake (x : TfRx) (ok marked : Bool) (c : Cand) : Option Cand :=
  if c.pos = x.pos then
    if marked then some { c with pos := c.pos + 65536, tfn := c.tfn + 1 }
    else if ok ∧ headerTfn x.header = c.tfn then
      some { c with pos := c.pos + 65536, tfn := c.tfn + 1, passed := c.passed + 1 }
    else none
  else some c

/-- HUNT and PRESYNC at one byte position. -/
def huntTake (x : TfRx) (ok marked : Bool) (at_ : Lts) (s : State) : State :=
  let f := s.tf
  let met := f.cands.any fun c => decide (c.pos = x.pos)
  let kept := f.cands.filterMap (candTake x ok marked)
  let closed := decide (kept.length < f.cands.length)
  let f1 := { f with cands := kept, st := if kept.isEmpty then 1 else 2,
                     hunts := if f.st = 2 ∧ kept.isEmpty then f.hunts + 1 else f.hunts }
  let f2 := if ok && !marked && (!met || closed) then
      openCand ⟨x.pos + 65536, headerTfn x.header + 1, 0⟩ f1
    else f1
  judgeCands at_ { s with tf := f2 }

/-- The frame is lost: the framer hunts (R230). -/
def loseFrame (at_ : Lts) (s : State) : State := refreshTribs (refreshRawsAt at_ (framerHunt (framerClose 0 at_ s)))

/-- A header at the expected position: good, bad or skipped (R230, R231); every received frame serves its tributaries. -/
def frameTake (x : TfRx) (ok marked : Bool) (at_ : Lts) (s : State) : State :=
  let f := s.tf
  let good := ok && decide (headerTfn x.header = f.tfn)
  let next := { f with pos := f.pos + 65536, tfn := f.tfn + 1 }
  let s1 :=
    if marked then { s with tf := next }
    else if good then
      { s with tf := { next with
          badRun := 0, rxMode := byteAt x.header 4, rxTfn := headerTfn x.header, rxSfc := x.sfc,
          rxDiff := x.sfc - at_.sf, bdi := runLevel 5 (bitOf (byteAt x.header 8) 0) at_ f.bdi } }
    else { s with tf := { next with badRun := f.badRun + 1, bad := f.bad + 1 } }
  if 3 ≤ s1.tf.badRun then loseFrame at_ s1
  else refreshTribs (s.tribs.foldl (fun s t => tribTake t f.tfn x.pos x.table at_ s) s1)

/-- R122, R124: in ZR400 the frame is the agreement's, whose format the spec does not give: the event says whether the receiver has lost
it, and what its backward indication is (log entry 26). -/
def agreementFrame (x : TfRx) (at_ : Lts) (s : State) : State :=
  if x.lost then (if s.tf.st = 3 then refreshRawsAt at_ (framerHunt (framerClose 0 at_ s)) else s)
  else refreshRawsAt at_ { s with tf := { s.tf with st := 3, cands := [], bdi := runLevel 5 x.bdi at_ s.tf.bdi } }

/-- TF_HEADER_RECEIVE: a frame's 16 header bytes, and its overhead, at a position of the framer stream. -/
def execTfHeaderReceive (f : TfRx) (rx : RxAt) (s : State) : Out :=
  .next (match s.line.cur with
  | none => s
  | some m =>
    if isZr m then (if ticking s && decide (s.fec.st = 2) then agreementFrame f (rxStamp rx s) s else s)
    else if ticking s && decide (s.fec.st = 2) && decide (f.header.length = 16) then
      let ok := headerPasses m.code f.header
      let marked := bytesMarked f.pos 16 s
      if s.tf.st = 3 then (if f.pos = s.tf.pos then frameTake f ok marked (rxStamp rx s) s else s)
      else if s.tf.st = 0 then s
      else huntTake f ok marked (rxStamp rx s) s
    else s)

/-! ### Frames sent (R226, R227, R239, R242, R261) -/

/-- R229, R259: the LTS of byte 0 of the next TF. -/
def tfAt (s : State) : Lts :=
  Lts.ofNat (s.tf.origin.toNat + nearest (s.tf.txCount * spanNum s) (16 * spanDen s))

/-- R238, R247: the tributary is carried by the next frame, whose header is sent at or after its boundary. -/
def carried (t : Trib) (s : State) : Bool := t.from_.le (tfAt s)

/-- R226: KP, the key-phase bits of the entries. -/
def keyPhases (s : State) : Nat :=
  s.tribs.foldl (fun a t => a + (if t.txPhase ∧ carried t s then 2 ^ t.entry else 0)) 0

/-- R227: BDI is sent while the receiver has dLOS, dLOA, dLOSF or dLOF. -/
def sendBdi (s : State) : Bool := s.tf.los.set || s.tf.loa.set || s.tf.losf.set || s.tf.lof.set

/-- R226: the header of the next frame. -/
def txHeader (m : LMode) (s : State) : List Byte :=
  let b := beBytes 4 s.tf.txTfn.toNat ++ [m.code] ++ beBytes 3 (keyPhases s) ++ [boolByte (sendBdi s), 0, 0, 0]
  b ++ leBytes 4 (check0 b)

/-- R239: an entry of the tributary table. -/
def txEntry (t : Trib) (jo : Bool) : List Byte :=
  [t.tid, BitVec.ofNat 8 (t.client * 16 + boolBit t.txCsf 3 + boolBit (decide (t.cipher ≠ 0)) 2)]
    ++ beBytes 2 ((if jo then 0xA else 0x5) * 4096 + t.txBp)

/-- What a client's buffer has for the next frame. -/
def fillOf (fills : List ClientFill) (t : Trib) : Option ClientFill := fills.find? fun x => decide (x.tid = t.tid)

/-- R242, R245: the decision of a frame's JO; a tributary without a client in hand keeps to nominal rate. -/
def joOf (fills : List ClientFill) (t : Trib) (s : State) : Bool :=
  match fillOf fills t with
  | some x => if t.txCsf then decide (s.tf.txTfn.toNat % 2 = 0) else x.high
  | none => decide (s.tf.txTfn.toNat % 2 = 0)

/-- R239, R240: the tributary table. -/
def txTable (fills : List ClientFill) (s : State) : List Byte :=
  (List.range 24).flatMap fun e =>
    match s.tribs.find? fun t => decide (t.entry = e) && carried t s with
    | some t => txEntry t (joOf fills t s)
    | none => [0xFF, 0, 0, 0]

/-- R262: a span record. -/
def spanRecord (t : Trib) (s : State) : List Byte :=
  let blocked := txSilent t s
  let b := beBytes 8 (if blocked then 0 else t.txSpan) ++ [t.tid, boolByte blocked, 0, 0]
  b ++ leBytes 4 (check0 b)

/-- R261: one position of the tag area. -/
def tagPosition (i : Nat) (s : State) : List Byte :=
  let o := s.tf.txTfn.toNat % 16
  let e := if o < 3 then 8 * o + i else 8 * (o - 3) + i
  match s.tribs.find? fun t => decide (t.entry = e) && carried t s && decide (t.cipher ≠ 0) with
  | none => List.replicate 16 0
  | some t =>
    if o < 3 then t.txTag
    else if o < 6 then spanRecord t s
    else List.replicate 16 0

/-- R226: header and overhead of the next frame, 256 bytes. -/
def txOverhead (m : LMode) (fills : List ClientFill) (s : State) : List Byte :=
  txHeader m s ++ beBytes 6 (tfAt s).sf.toNat ++ [0, 0] ++ txTable fills s ++ List.replicate 8 0
    ++ (List.range 8).flatMap fun i => tagPosition i s

/-! ### The payload of a frame sent (R20, R228, R241, R245, R260) -/

/-- R245: the client replacement signal from the data bit on that a block pointer of `bp` follows, `n` bytes. -/
def replacementBytes (client bp n : Nat) : List Byte :=
  (List.range n).map fun i => BitVec.ofNat 8 (natOfBits ((List.range 8).map fun k =>
    (Config.faultBlock client).getLsbD ((8 * i + k + 257 - bp) % 257)))

/-- The client stream of a tributary in the next frame, 16 bytes for each data block. -/
def clientBytes (fills : List ClientFill) (t : Trib) (s : State) : List Byte :=
  let n := 16 * (tribData t s.tf.txTfn s + (joOf fills t s).toNat)
  match fillOf fills t with
  | some x => if t.txCsf then replacementBytes t.client t.txBp n else padTo n x.data
  | none => replacementBytes t.client t.txBp n

/-- R260, R269: what the cipher makes of it: the ciphertext of an encrypted tributary goes on from that of the span's frames before;
one without a key in force, or blocked, carries zeros. -/
def cipherBytes (t : Trib) (data : List Byte) (s : State) : List Byte :=
  if t.cipher = 0 then data
  else if txSilent t s then data.map fun _ => 0
  else
    match t.txCur with
    | none => data.map fun _ => 0
    | some i =>
      let d := (slotAt i s).data
      gcmContinue d.key (padTo 4 d.salt ++ beBytes 8 t.txSpan) (t.txCt.length / 16) data

/-- R228: the bits of a TF's bytes 16 on, as sent. -/
def scrambledBytes (tfn : Word) (bs : List Byte) : List Byte :=
  bytesOfBits bs.length (tfScramble tfn (bitsOf bs))

/-- The payload blocks k, k + 1, … of a frame, `n` of them, from each tributary's data blocks with their places; any other block is
stuff, all zeros (R241). -/
def payloadFrom : Nat → Nat → List (List (Nat × List Byte)) → List Byte
  | 0, _, _ => []
  | n + 1, k, feeds =>
    let here := feeds.findSome? fun f => match f with
      | x :: _ => if x.1 = k then some x.2 else none
      | [] => none
    (here.getD (List.replicate 16 0)) ++ payloadFrom n (k + 1) (feeds.map fun f => match f with
      | x :: r => if x.1 = k then r else f
      | [] => [])

/-- A tributary's data blocks in the next frame, as sent. -/
def tribFeed (fills : List ClientFill) (s : State) (t : Trib) : List (Nat × List Byte) :=
  let places := tribPlaces t s.tf.txTfn (joOf fills t s) s
  places.zip (blocks (cipherBytes t (clientBytes fills t s) s))

/-- R226, R228: the next TF as sent: the header, and the rest scrambled. -/
def txFrameBytes (head : List Byte) (fills : List ClientFill) (s : State) : List Byte :=
  head.take 16 ++ scrambledBytes s.tf.txTfn (head.drop 16
    ++ payloadFrom 4080 0 ((s.tribs.filter fun t => carried t s).map (tribFeed fills s)))

/-- R260, R261: an encrypted tributary's span after a frame: its entries and ciphertext so far, and at the span's last frame the tag,
zero for a blocked sender. -/
def spanTake (m : LMode) (fills : List ClientFill) (s : State) (t : Trib) : Trib :=
  if t.cipher = 0 then t
  else
    let o := s.tf.txTfn.toNat % 16
    let aad := (if o = 0 then [] else t.txAad) ++ txEntry t (joOf fills t s)
    let t0 := if o = 0 then { t with txCt := [] } else t
    let ct := if txSilent t s then t0.txCt else t0.txCt ++ cipherBytes t0 (clientBytes fills t s) s
    let tag :=
      if o ≠ 15 then t.txTag
      else
        match t.txCur with
        | some i =>
          if txSilent t s then List.replicate 16 0
          else spanTag (slotAt i s).data t.txSpan (s.tf.txTfn - 15) m.code t.tid (BitVec.ofNat 8 t.client) aad ct
        | none => List.replicate 16 0
    { t with txAad := aad, txCt := ct, txTag := tag }

/-- A tributary after a frame: its JO counts and its next block pointer (R242), and its span. -/
def txTake (m : LMode) (fills : List ClientFill) (s : State) (t : Trib) : Trib :=
  if carried t s then
    let jo := joOf fills t s
    { spanTake m fills s t with
      txBp := nextBp t.txBp (tribData t s.tf.txTfn s + jo.toNat),
      joData := if jo then t.joData + 1 else t.joData, joStuff := if jo then t.joStuff else t.joStuff + 1,
      joRecent := (jo :: t.joRecent).take 16384 }
  else t

/-- Blocks of standards ports taken into a frame (R306: blocks in). -/
def ingressTake (fills : List ClientFill) (s : State) (p : Port) : Port :=
  if s.hl.osier || nearLoop p s then p
  else
    match s.tribs.find? fun t => decide (t.port = p.num) && carried t s && !t.txCsf with
    | some t =>
      let d := tribData t s.tf.txTfn s + (joOf fills t s).toNat
      { p with blocksIn := p.blocksIn + BitVec.ofNat 32 (blocksStarting t.txBp d) }
    | none => p

/-! ### The stream of a superframe sent (R221 to R223) -/

/-- Framer bytes that the slots of a mode produce in `k` superframes. -/
def framerBytes (m : LMode) (k : Nat) : Nat := k * 2 ^ 24 * transNum m.slots / (65280 * 8 * m.rate * 1000)

/-- R223: FBYTES of transmitted superframe `n`: what has been produced since the first superframe of the frames, to the byte; zero in
the superframes before it (DESIGN CHOICE, log entry 48). -/
def fbytesOf (m : LMode) (origin : Lts) (n : Nat) : Nat :=
  if n < origin.sf.toNat then 0 else framerBytes m (n + 1 - origin.sf.toNat) - framerBytes m (n - origin.sf.toNat)

/-- R222: TSP of transmitted superframe `n`, valid while it carries framer bytes. -/
def tspOf (m : LMode) (origin : Lts) (n : Nat) : Option Nat :=
  if fbytesOf m origin n = 0 then none else some ((65536 - framerBytes m (n - origin.sf.toNat) % 65536) % 65536)

/-- R221 to R223: the overhead fields of the superframe being sent, while the transmit chain runs in a native mode. With each
superframe the error injector, when it is on, draws for every coded bit (R219). -/
def txStream (s : State) : State :=
  match s.line.cur with
  | none => s
  | some m =>
    if s.line.txChain && isSlotMode m then
      let n := s.time.lts.sf
      let fb := fbytesOf m s.tf.origin n.toNat
      let next := fbytesOf m s.tf.origin (n.toNat + 1)
      let tsp := tspOf m s.tf.origin n.toNat
      let drawn := if s.fec.inject && decide (s.tf.txSf ≠ n) then superframeSymbols * baseBits m.base else 0
      { s with
        tf := { s.tf with txSf := n, txFbytes := fb, txFnext := next, txTsp := tsp, txSfoh := sfohBytes fb next tsp m.code },
        fec := { s.fec with injectPos := s.fec.injectPos + drawn } }
    else s

/-- A frame is due: the chain runs, and its first symbol has been reached (R229, R259). -/
def tfDue (s : State) : Bool := ticking s && s.line.txChain && decide (0 < slotsNow s) && (tfAt s).le s.time.lts

/-- TF_TRANSMIT: the next frame, with the JO decisions and the data from the client buffers. In ZR400 the frame is the agreement's,
and of it only the backward indication is known (R122). -/
def execTfTransmit (fills : List ClientFill) (s : State) : Out :=
  .next (match s.line.cur with
  | none => s
  | some m =>
    if isZr m then
      (if ticking s && s.line.txChain then { s with tf := { s.tf with txBdi := sendBdi s } } else s)
    else if tfDue s then
      let head := txOverhead m fills s
      txStream { s with
        tf := { s.tf with txHead := head, txFrame := txFrameBytes head fills s, txBdi := sendBdi s, txLast := s.tf.txTfn,
                          txTfn := s.tf.txTfn + 1, txCount := s.tf.txCount + 1 },
        tribs := s.tribs.map (txTake m fills s),
        hl := { s.hl with ports := s.hl.ports.map (ingressTake fills s) } }
    else s)

/-! ### Defects (R234 to R237, R249) -/

/-- R234: set and clear times in symbols; the run of comparisons, headers, frames, superframes or spans is counted. -/
def sfSymbols : Nat := 16777216
def lofSymbols : Nat := 816000000

/-- A raw condition has held, continuously, for so many symbols. -/
def heldFor (b : Bool) (n : Nat) (i : Integ) (s : State) : Bool :=
  decide (i.raw = b) && decide (i.since.toNat + n ≤ s.time.lts.toNat)

/-- The stamp at which an integration of so many symbols ended. -/
def endOf (i : Integ) (n : Nat) : Lts := Lts.ofNat (i.since.toNat + n)

/-- A run of the counted level has its length. -/
def ranFor (b : Bool) (n : Nat) (i : Integ) : Bool := decide (i.raw = b) && decide (n ≤ i.run)

/-- The input of a reference by its number. -/
def refIn (k : Nat) (s : State) : Option RefIn := s.ref.inputs.find? fun r => decide (r.num = k)

def refCode : RefSt → Nat
  | .disabled => 0 | .failed => 1 | .soaking => 2 | .qualified => 3

/-- The integration of a defect, none where the part has no such defect now. -/
def integOf (d : Defect) (s : State) : Option Integ :=
  match d with
  | .los => some s.tf.los | .loa => some s.tf.loa | .losf => some s.tf.losf | .oof => some s.tf.oof
  | .lof => some s.tf.lof | .deg => some s.tf.deg | .unc => some s.tf.unc | .bdi => some s.tf.bdi
  | .csf i => (tribAt i s).map fun t => t.csf
  | .plm i => (tribAt i s).map fun t => t.plm
  | .auth i => (tribAt i s).map fun t => t.auth
  | .key i => (tribAt i s).map fun t => t.key
  | .ref i => (refIn i.toNat s).map fun r =>
      ⟨r.dref, decide (r.st = .failed), (match r.soakFrom with | some a => ⟨a, 0⟩ | none => s.time.lts), 0⟩

/-- R234: the stamp at which a defect's set integration has ended, none while it has not. -/
def setsAt (d : Defect) (s : State) : Option Lts :=
  match integOf d s with
  | none => none
  | some i =>
    if i.set then none
    else
      match d with
      | .los => if heldFor true sfSymbols i s then some (endOf i sfSymbols) else none
      | .loa => if heldFor true (16 * sfSymbols) i s then some (endOf i (16 * sfSymbols)) else none
      | .losf => if heldFor true (16 * sfSymbols) i s then some (endOf i (16 * sfSymbols)) else none
      | .oof => if i.raw then some i.since else none
      | .lof => if heldFor true lofSymbols i s then some (endOf i lofSymbols) else none
      | .deg => if ranFor true 16384 i then some i.since else none
      | .unc => if i.raw then some i.since else none
      | .bdi => if ranFor true 5 i && decide (s.tf.st = 3) then some i.since else none
      | .csf _ => if ranFor true 5 i && decide (s.tf.st = 3) then some i.since else none
      | .plm _ => if ranFor true 5 i && decide (s.tf.st = 3) then some i.since else none
      | .auth _ => if ranFor true 1 i then some i.since else none
      | .key _ => if i.raw then some i.since else none
      | .ref _ => if i.raw then some s.time.lts else none

/-- R234: the stamp at which a defect's clear integration has ended. -/
def clearsAt (d : Defect) (s : State) : Option Lts :=
  match integOf d s with
  | none => none
  | some i =>
    if i.set = false then none
    else
      match d with
      | .los => if heldFor false (15 * sfSymbols) i s then some (endOf i (15 * sfSymbols)) else none
      | .loa => if s.eq.st = 8 then some i.since else none
      | .losf => if i.raw then none else some i.since
      | .oof => if i.raw then none else some i.since
      | .lof =>
        if i.raw = false ∧ s.tf.oof.raw = false ∧ s.tf.oof.since.toNat + lofSymbols ≤ s.time.lts.toNat
        then some (endOf s.tf.oof lofSymbols) else none
      | .deg => if ranFor false 16384 i then some i.since else none
      | .unc => if ranFor false 16384 i then some i.since else none
      | .bdi => if ranFor false 5 i && decide (s.tf.st = 3) then some i.since else none
      | .csf _ => if ranFor false 5 i && decide (s.tf.st = 3) then some i.since else none
      | .plm _ => if ranFor false 5 i && decide (s.tf.st = 3) then some i.since else none
      | .auth _ => if ranFor false 16 i then some i.since else none
      | .key _ => if i.raw then none else some i.since
      | .ref k =>
        match refIn k.toNat s with
        | some r =>
          match r.soakFrom with
          | some a => if r.st = .qualified ∧ 163840 ≤ sfSince a s then some ⟨a + 163840, 0⟩ else none
          | none => none
        | none => none

/-- Writes the set flag of a defect. -/
def putDefect (d : Defect) (b : Bool) (s : State) : State :=
  let f := s.tf
  match d with
  | .los => { s with tf := { f with los := { f.los with set := b } } }
  | .loa => { s with tf := { f with loa := { f.loa with set := b } } }
  | .losf => { s with tf := { f with losf := { f.losf with set := b } } }
  | .oof => { s with tf := { f with oof := { f.oof with set := b } } }
  | .lof => { s with tf := { f with lof := { f.lof with set := b } } }
  | .deg => { s with tf := { f with deg := { f.deg with set := b } } }
  | .unc => { s with tf := { f with unc := { f.unc with set := b } } }
  | .bdi => { s with tf := { f with bdi := { f.bdi with set := b } } }
  | .csf i => modTrib i (fun t => { t with csf := { t.csf with set := b } }) s
  | .plm i => modTrib i (fun t => { t with plm := { t.plm with set := b } }) s
  | .auth i => modTrib i (fun t => { t with auth := { t.auth with set := b } }) s
  | .key i => modTrib i (fun t => { t with key := { t.key with set := b } }) s
  | .ref k => { s with ref := { s.ref with inputs := s.ref.inputs.map fun r =>
      if r.num = k.toNat then { r with dref := b } else r } }

/-- R249: event, source and data of a defect. -/
def defectNote (d : Defect) (s : State) : Half × Half × List Byte :=
  match d with
  | .los => (0x0710, noInstance, ev [fld 20 2 (powerField s.fe.power)])
  | .loa => (0x0711, noInstance, ev [fld 20 1 s.eq.st, fld 21 1 s.eq.reason])
  | .losf => (0x0712, noInstance, [])
  | .oof => (0x0713, noInstance, ev [fld 20 1 s.tf.oofCause])
  | .lof => (0x0714, noInstance, [])
  | .deg => (0x0715, noInstance, ev [fld 20 4 s.fec.estimate])
  | .unc => (0x0716, noInstance, ev [fld 20 4 (max s.fec.curUnc s.fec.lastUnc)])
  | .bdi => (0x0717, noInstance, [])
  | .csf i => (0x0718, BitVec.ofNat 16 i.toNat, [])
  | .plm i => (0x0719, BitVec.ofNat 16 i.toNat, ev [fld 20 1 (match tribAt i s with | some t => t.rxPt | none => 0xFF)])
  | .auth i => (0x0810, BitVec.ofNat 16 i.toNat, ev [fld 20 8 (match tribAt i s with | some t => t.authSpan | none => 0)])
  | .key i => (0x0811, BitVec.ofNat 16 i.toNat, ev [fld 20 1 (match tribAt i s with | some t => t.keySlot.toNat | none => 0)])
  | .ref k => (0x0A10, BitVec.ofNat 16 k.toNat, ev [fld 20 1 (match refIn k.toNat s with | some r => r.cause | none => 0)])

/-- A defect sets or clears with its notification (R234, R249). -/
def moveDefect (d : Defect) (b : Bool) (t : Lts) (s : State) : State :=
  let n := defectNote d s
  notifyAt n.1 n.2.1 (some b) n.2.2 t (putDefect d b s)

/-- R235: dBDI, dCSF and dPLM clear when dLOF sets. -/
def clearHeld (t : Lts) (s : State) : State :=
  let one (d : Defect) (s : State) : State :=
    match integOf d s with
    | some i => if i.set then moveDefect d false t s else s
    | none => s
  let s1 := one .bdi s
  let s2 := s1.tribs.foldl (fun s x => one (.plm x.tid) (one (.csf x.tid) s)) s1
  { s2 with
    tf := { s2.tf with bdi := { s2.tf.bdi with raw := false, run := 0 } },
    tribs := s2.tribs.map fun x => { x with
      csf := { x.csf with raw := false, run := 0 }, plm := { x.plm with raw := false, run := 0 } } }

/-- R3: dAUTH and dKEY never set on the variant CN. -/
def defectExists (d : Defect) (s : State) : Bool :=
  match d with
  | .auth _ => s.ident.variant ≠ .cn
  | .key _ => s.ident.variant ≠ .cn
  | _ => true

/-- What follows from a defect's set or clear: automatic laser shutdown (R199), the raw condition of dLOF, the clearing
of R235, and the client outputs (R237). -/
def defectFollow (d : Defect) (b : Bool) (t : Lts) (s : State) : State :=
  match d with
  | .los => if b then alsStart s else alsStop s
  | .oof => refreshTribs { s with tf := { s.tf with lof := if s.tf.lof.raw = b then s.tf.lof else
      { s.tf.lof with raw := b, since := t, run := 0 } } }
  | .lof => if b then refreshTribs (clearHeld t s) else s
  | .plm _ => refreshTribs s
  | _ => s

/-- R22, R26: the engine that integrates defects runs: the framing task's, or for dREF that of references; a halted one integrates
nothing until its tasks restart. -/
def integrates (d : Defect) (s : State) : Bool :=
  !s.dbg.frozen && defectExists d s && !taskHeld (match d with | .ref _ => .references | _ => .framing) s

/-- DEFECT_SET: the raw condition has held for its set integration time. -/
def execDefectSet (d : Defect) (s : State) : Out :=
  .next (if integrates d s then
    match setsAt d s with
    | some t => defectFollow d true t (moveDefect d true t s)
    | none => s
  else s)

/-- DEFECT_CLEAR: the clear integration has ended. -/
def execDefectClear (d : Defect) (s : State) : Out :=
  .next (if integrates d s then
    match clearsAt d s with
    | some t => defectFollow d false t (moveDefect d false t s)
    | none => s
  else s)

/-- R236: through SLEEP and DEEP every integration restarts from the state found. -/
def restartIntegs (s : State) : State :=
  let t := s.time.lts
  let g (i : Integ) : Integ := { i with since := t, run := 0 }
  let f := s.tf
  refreshRaws { s with
    tf := { f with los := g f.los, loa := g f.loa, losf := g f.losf, oof := g f.oof, lof := g f.lof, deg := g f.deg,
                   unc := g f.unc, bdi := g f.bdi },
    tribs := s.tribs.map fun x => { x with csf := g x.csf, plm := g x.plm, auth := g x.auth, key := g x.key } }

/-! ### Commands (R248) -/

/-- The lowest unused entry (R240). -/
def freeEntry (s : State) : Option Nat :=
  (List.range 24).find? fun e => s.tribs.all fun t => decide (t.entry ≠ e)

/-- R238: a slot overlaps a defined tributary. -/
def slotTaken (lo n : Nat) (s : State) : Bool :=
  s.tribs.any fun t =>
    decide (lo < t.tid.toNat + (clientSlots t.client).getD 0) && decide (t.tid.toNat < lo + n)

/-- The checks of TRIB.DEFINE (R3 on the variant CN) in a mode of `slots` slots; `native` says that the mode is one with slots. -/
def tribDefineCheck (native : Bool) (slots : Nat) (tid client : Byte) (port : Half) (cipher : Byte) (s : State) :
    List (Bool × St) :=
  let n := (clientSlots client.toNat).getD 0
  [((clientSlots client.toNat).isNone || decide (2 < cipher.toNat) || decide (119 < tid.toNat), .badArg),
   (decide (cipher ≠ 0) && decide (s.ident.variant = .cn), .notAvailable), (!native, .badState),
   (decide (slots < tid.toNat + n) || !portExists s.hl.osier client.toNat port.toNat, .badArg),
   (slotTaken tid.toNat n s || portTaken client.toNat port.toNat s || (freeEntry s).isNone
      || portRefused client.toNat port.toNat s, .refused)]

/-- A tributary as TRIB.DEFINE makes it: blocked by nothing, without keys, its client not yet up (R247, R256). -/
def newTrib (tid client : Byte) (port : Half) (cipher : Byte) (entry : Nat) (now : Lts) : Trib :=
  { tid := tid, entry := entry, client := client.toNat, port := port.toNat, cipher := cipher.toNat, from_ := now }

/-- The effect of TRIB.DEFINE. -/
def tribDefineApply (tid client : Byte) (port : Half) (cipher : Byte) (s : State) : State :=
  let s1 := { s with
    tribs := s.tribs ++ [newTrib tid client port cipher ((freeEntry s).getD 0) s.time.lts],
    hl := { s.hl with ports := insertPort { num := port.toNat, client := client.toNat } s.hl.ports } }
  refreshTribs (readmit s1)

/-- TRIB.DEFINE. -/
def execTribDefine (h : Hdr) (tid client : Byte) (port : Half) (cipher : Byte) (s : State) : Out :=
  command 0x0701 h s
    (guarded 0x0701 h (tribDefineCheck (slotModeNow s) (slotsNow s) tid client port cipher s) fun s =>
      reply 0x0701 h
        [fld 16 1 ((freeEntry s).getD 0), fld 17 1 ((clientSlots client.toNat).getD 0)]
        (tribDefineApply tid client port cipher s))

def tribRemoveCheck (tid : Byte) (s : State) : List (Bool × St) := [((tribAt tid s).isNone, .badArg)]

/-- The effect of TRIB.REMOVE: the key references are released (R256), the port is free, admission is re-evaluated. -/
def tribRemoveApply (tid : Byte) (s : State) : State :=
  match tribAt tid s with
  | none => s
  | some t =>
    let s1 := releaseRefs t s
    readmit { s1 with
      tribs := s1.tribs.filter fun x => decide (x.tid ≠ tid),
      hl := { s1.hl with ports := s1.hl.ports.filter fun p => decide (p.num ≠ t.port) } }

/-- TRIB.REMOVE. -/
def execTribRemove (h : Hdr) (tid : Byte) (s : State) : Out :=
  command 0x0702 h s
    (guarded 0x0702 h (tribRemoveCheck tid s) fun s => done 0x0702 h (tribRemoveApply tid s))

/-- R242, R248: the client's offset from the slot rate in ppb: what the JOs' deviation from half of the frames sent moves
the data rate by, against the nominal 1,285/1,296 of the slots' blocks. -/
def clientOffset (t : Trib) (s : State) : Int :=
  let n := t.joRecent.length
  let ones := (t.joRecent.filter id).length
  let blocks := 4080 * (clientSlots t.client).getD 0 * 1285
  if n = 0 ∨ slotsNow s = 0 ∨ blocks = 0 then 0
  else ((2 * (ones : Int) - n) * slotsNow s * 1296 * 1000000000) / (2 * (n : Int) * blocks)

/-- TRIB.STATUS. -/
def execTribStatus (h : Hdr) (tid flags : Byte) (s : State) : Out :=
  command 0x0703 h s
    (match tribAt tid s with
    | none => refuse 0x0703 h .badArg
    | some t =>
      guarded 0x0703 h [(!reservedClear flags 1, .badArg)] fun s =>
        let defects := boolBit t.csf.set 0 + boolBit t.plm.set 1 + boolBit t.auth.set 2 + boolBit t.key.set 3
        reply 0x0703 h
          [fld 16 1 t.entry, fld 17 1 t.client, fld 18 1 defects, fld 19 1 t.rxPt, fld 20 4 t.joData.toNat,
           fld 24 4 t.joStuff.toNat, fld 28 4 t.mismatches.toNat, fld 32 4 t.retakes.toNat,
           fld 36 4 t.errBlocks.toNat, fldI 40 4 (clientOffset t s)]
          (if bitOf flags 0 then
            modTrib tid (fun t => { t with joData := 0, joStuff := 0, mismatches := 0, retakes := 0, errBlocks := 0 }) s
          else s))

/-- The line defects as TF.STATUS reports them. -/
def lineDefects (s : State) : Nat :=
  let f := s.tf
  boolBit f.los.set 0 + boolBit f.loa.set 1 + boolBit f.losf.set 2 + boolBit f.oof.set 3 + boolBit f.lof.set 4
    + boolBit f.deg.set 5 + boolBit f.unc.set 6 + boolBit f.bdi.set 7

/-- TF.STATUS. -/
def execTfStatus (h : Hdr) (s : State) : Out :=
  let f := s.tf
  query 0x0704 h s
    [fld 16 1 f.st, fld 17 1 (lineDefects s), fld 18 1 f.cands.length, fld 19 1 f.rxMode.toNat, fld 20 4 f.rxTfn.toNat,
     fld 24 6 f.rxSfc.toNat, fld 30 6 f.rxDiff.toNat, fld 36 4 f.bad.toNat, fld 40 4 f.hunts.toNat,
     fld 44 4 f.disagree.toNat, fld 48 4 f.sfohFails.toNat, fld 52 4 f.txLast.toNat]

end Sys2Proof.Machine
end

