-- ==== Sys2Proof/Machine/References.lean ====
section
/-! DEFINITION. Clock references (chapter 12): qualification, the drift guard, holdover memory, selection, the slew of the
system clock, pulses, time of day, and the REF commands. -/
namespace Sys2Proof.Machine

open Sys2Proof

/-! ### Inputs (R308 to R311) -/

/-- R308: the numbers that name an input. -/
def inputExists (k : Nat) : Bool := decide (k ≤ 4) || (decide (16 ≤ k) && decide (k ≤ 31))

def modRef (k : Nat) (f : RefIn → RefIn) (s : State) : State :=
  { s with ref := { s.ref with inputs := s.ref.inputs.map fun r => if r.num = k then f r else r } }

/-- R309, R327: the input has its source. -/
def sourcePresent (k : Nat) (s : State) : Bool :=
  if k ≤ 3 then true
  else if 4 ≤ s.aon.coppice then false
  else if k = 4 then decide (s.eq.st = 8) && !inWatch s
  else if standardsNow s then s.hl.ports.any fun p => decide (p.num + 16 = k) && p.failed.isNone
  else decide (k = 16) && decide (s.hl.link = .up)

/-- R314: holdover memory is valid: it has covered 900 s, and the oven has been stable for 300 s since its restart. -/
def memOk (s : State) : Bool :=
  s.ref.memValid &&
    match s.ref.ovenFrom with
    | none => true
    | some t => decide (t + 300000000000 ≤ s.time.resNs)

/-- R27, R327: coppicing C3 suspends the drift guard and memory learning. -/
def guardSuspended (s : State) : Bool := decide (3 ≤ s.pwr.shed)

/-- R313: the drift check fails. -/
def driftFails (r : RefIn) (m : RefMeas) (s : State) : Bool :=
  !guardSuspended s && m.driftCovered && decide (r.driftLim * 1000 < m.drift.natAbs)

/-- R313: the offset from holdover memory is beyond OFF_LIM. -/
def offsetOver (r : RefIn) (m : RefMeas) (s : State) : Bool :=
  memOk s && decide (r.offLim * 10000 < (m.offset - s.ref.mem).natAbs)

/-- R313: the offset soak after an evaluation: its start, none when no soak runs; suspended checks stand. -/
def offsetSoak (r : RefIn) (m : RefMeas) (s : State) : Option Nat :=
  if guardSuspended s then r.overFrom
  else if memOk s = false then none
  else if offsetOver r m s then (match r.overFrom with | some a => some a | none => some (refNs s))
  else none

/-- R313: the soak has run 10 s of resonator time. -/
def offsetFails (soak : Option Nat) (s : State) : Bool :=
  !guardSuspended s && match soak with | some a => lasted a 10 s | none => false

/-- R310: the cause for which an input fails at an evaluation, 0 for none; `share` scales TOL (R311), in tenths. -/
def failCause (r : RefIn) (m : RefMeas) (share : Nat) (s : State) : Nat :=
  if !sourcePresent r.num s then 5
  else if r.inactive || decide (m.condition = 1) then 1
  else if r.badForm || decide (m.condition = 6) then 6
  else if r.tol * 10000 * share < m.offset.natAbs then 2
  else if driftFails r m s then 3
  else if offsetFails (offsetSoak r m s) s then 4
  else 0

/-- The measurement of an input, none when the evaluation brings none. -/
def measOf (k : Nat) (ms : List RefMeas) : Option RefMeas := ms.find? fun m => decide (m.input.toNat = k)

/-- What an input is judged by when an evaluation brings no measurement of it: the last one, with no drift covered (DESIGN
CHOICE, log entry 25). -/
def lastMeas (r : RefIn) : RefMeas := ⟨BitVec.ofNat 8 r.num, 0, r.offset, r.drift, false⟩

/-- dREF sets or clears with its notification (R234, R249). -/
def drefMove (k : Nat) (b : Bool) (s : State) : State :=
  moveDefect (.ref (BitVec.ofNat 8 k)) b s.time.lts s

/-- R310, R311: an input fails. -/
def refFail (k cause : Nat) (s : State) : State :=
  let was := (refIn k s).map fun r => r.dref
  let s1 := modRef k (fun r => { r with
      st := .failed, cause := cause, soakFrom := none, failures := r.failures + 1, first := false }) s
  if was = some true then s1 else drefMove k true s1

/-- What an evaluation measures is kept with the input. -/
def refMeasured (m : RefMeas) (s : State) (r : RefIn) : RefIn :=
  { r with offset := m.offset, drift := m.drift, overFrom := offsetSoak r m s, inactive := false, badForm := false }

/-- R318, second: failures. -/
def failStep (ms : List RefMeas) (s : State) (k : Nat) : State :=
  match refIn k s with
  | some r =>
    if r.st = .disabled then s
    else
      let m := (measOf k ms).getD (lastMeas r)
      let c := failCause r m 10 s
      let s1 := modRef k (refMeasured m s) s
      match r.st with
      | .failed =>
        if failCause r m 9 s = 0 then modRef k (fun r => { r with st := .soaking, soakFrom := some s.time.lts.sf }) s1
        else s1
      | _ =>
        if c ≠ 0 then refFail k c s1
        else
          modRef k (fun r => { r with
            first := false,
            soakFrom := if r.st = .soaking ∧ r.soakFrom.isNone then some s.time.lts.sf else r.soakFrom }) s1
  | none => s

/-- R318, third: completed soaks; dREF clears at that instant (R311). -/
def soakStep (s : State) (k : Nat) : State :=
  match refIn k s with
  | none => s
  | some r =>
    match r.soakFrom with
    | none => s
    | some a =>
      if r.st = .soaking ∧ 163840 ≤ sfSince a s then
        let s1 := modRef k (fun r => { r with st := .qualified }) s
        if r.dref then drefMove k false s1 else s1
      else s

/-! ### Holdover memory (R314) -/

/-- The newest entries that cover so many nanoseconds. -/
def histKeep : Nat → List (Nat × Int) → List (Nat × Int)
  | _, [] => []
  | n, e :: t => if n = 0 then [] else if e.1 < n then e :: histKeep (n - e.1) t else [(n, e.2)]

/-- What is left once the newest nanoseconds are discarded. -/
def histDrop : Nat → List (Nat × Int) → List (Nat × Int)
  | _, [] => []
  | n, e :: t => if n = 0 then e :: t else if e.1 ≤ n then histDrop (n - e.1) t else (e.1 - n, e.2) :: t

def histTime (l : List (Nat × Int)) : Nat := l.foldl (fun a e => a + e.1) 0

def histMean (l : List (Nat × Int)) : Int := (l.foldl (fun a e => a + (e.1 : Int) * e.2) (0 : Int)) / (histTime l : Int)

/-- The memory after its history changed; an empty history leaves the value that stood. -/
def memSet (l : List (Nat × Int)) (s : State) : State :=
  { s with ref := { s.ref with
      memHist := l, mem := if l.isEmpty then s.ref.mem else histMean l,
      memValid := s.ref.memValid || decide (900000000000 ≤ histTime l) } }

/-- R314: the resonator time since the evaluation before. -/
def evalNs (s : State) : Nat := refNs s - s.ref.evalAt

/-- R314: the memory learns the clock's frequency while LOCKED, unless the selected input is under suspicion. -/
def learn (ms : List RefMeas) (s : State) : State :=
  match s.ref.clk, s.ref.sel with
  | .locked, some k =>
    match refIn k s, measOf k ms with
    | some r, some m =>
      if guardSuspended s || r.overFrom.isSome || driftFails r m s then s
      else memSet (histKeep 3600000000000 ((evalNs s, s.ref.off) :: s.ref.memHist)) s
    | _, _ => s
  | _, _ => s

/-- R377: the offset of REFA or REFB, while selected and LOCKED, is gathered for the resonator's daily calibration. -/
def calGather (s : State) : State :=
  match s.ref.clk, s.ref.sel with
  | .locked, some k =>
    match refIn k s with
    | some r =>
      if k ≤ 1 then { s with ref := { s.ref with
        calSum := s.ref.calSum + (evalNs s : Int) * r.offset, calTime := s.ref.calTime + evalNs s } }
      else s
    | none => s
  | _, _ => s

/-- R314: at a disqualification of the selected input the last 60 s go. -/
def forget (s : State) : State := memSet (histDrop 60000000000 s.ref.memHist) s

/-! ### Selection and the slew (R315 to R319) -/

/-- R316: the qualified inputs of the highest priority present, other than an excluded one. -/
def candidates (skip : Option Nat) (s : State) : List RefIn :=
  let q := s.ref.inputs.filter fun r => decide (r.st = .qualified) && decide (some r.num ≠ skip)
  q.filter fun r => q.all fun x => decide (r.prio ≤ x.prio)

/-- R316: the candidate nearest the holdover memory, ties to the lower number. -/
def nearestTo (f : Int) : List RefIn → Option RefIn
  | [] => none
  | r :: t =>
    match nearestTo f t with
    | none => some r
    | some b => if (r.offset - f).natAbs ≤ (b.offset - f).natAbs then some r else some b

def qualified (k : Nat) (s : State) : Bool := match refIn k s with | some r => decide (r.st = .qualified) | none => false

/-- R316: AUTO. -/
def autoSel (skip : Option Nat) (s : State) : Option Nat :=
  let cs := candidates skip s
  let keep := match s.ref.sel with
    | some k => decide (some k ≠ skip) && qualified k s && (!s.ref.revertive || cs.any fun r => decide (r.num = k))
    | none => false
  if keep then s.ref.sel
  else (nearestTo (if memOk s then s.ref.mem else 0) cs).map fun r => r.num

/-- R315: the input the mode selects. -/
def wantedSel (s : State) : Option Nat :=
  match s.ref.mode with
  | 0 => autoSel none s
  | 1 => if qualified s.ref.manual s then some s.ref.manual else autoSel (some s.ref.manual) s
  | _ => none

/-- R315, R316: the clock state without an input. -/
def idleClk (s : State) : ClkSt :=
  if s.ref.mode = 3 then .freerun else if memOk s then .holdover else .freerun

def clkCode : ClkSt → Nat
  | .freerun => 0 | .locking => 1 | .locked => 2 | .holdover => 3

/-- R319: how far the slew has run, in ppt: 7.5 ppb in each second of the resonator. -/
def slewRun (s : State) : Nat := (refNs s - s.ref.slewFrom) * 3 / 400000

/-- R319: the clock's offset now, at most 7.5 ppb per second from where the slew started. -/
def offNow (s : State) : Int :=
  if s.ref.clk = .locking then
    let run := slewRun s
    let d := s.ref.target - s.ref.off
    if d.natAbs ≤ run then s.ref.target else if 0 ≤ d then s.ref.off + run else s.ref.off - run
  else s.ref.off

/-- REF_SWITCH (R329). -/
def switchNote (new old : Option Nat) (now was : ClkSt) (cause : Nat) (slew : Int) (s : State) : State :=
  let b (k : Option Nat) : Nat := k.getD 0xFF
  notify 0x0A01 (match new with | some k => BitVec.ofNat 16 k | none => noInstance) none
    (ev [fld 20 1 (b new), fld 21 1 (b old), fld 22 1 (clkCode now), fld 23 1 (clkCode was), fld 24 1 cause,
      fldI 28 4 slew]) s

/-- R319: a change of selected input or an entry to or exit from HOLDOVER or FREERUN: a slew from the present frequency
towards the new target. -/
def clockTo (sel : Option Nat) (goal : ClkSt) (cause : Nat) (s : State) : State :=
  let target := match sel with
    | some k => (match refIn k s with | some r => r.offset | none => 0)
    | none => if goal = .holdover then s.ref.mem else 0
  let off := offNow s
  let clk := if off = target then goal else .locking
  let s1 := { s with ref := { s.ref with
      sel := sel, clk := clk, toState := goal, off := off, target := target, frozenWord := false,
      lastSwitch := s.time.lts.sf, slewFrom := refNs s, lockedFrom := s.time.wardenNs, calSum := 0, calTime := 0 } }
  switchNote sel s.ref.sel clk s.ref.clk cause (target - off) s1

/-- The state the clock has or is slewing to. -/
def clkGoal (s : State) : ClkSt := if s.ref.clk = .locking then s.ref.toState else s.ref.clk

/-- R319: the target of a slew moves: the slew goes on from the frequency it has reached. -/
def retarget (t : Int) (s : State) : State :=
  if s.ref.target = t then s
  else
    let run := slewRun s
    let ended := decide ((s.ref.target - s.ref.off).natAbs ≤ run)
    { s with ref := { s.ref with
        off := offNow s, target := t, slewFrom := if ended then refNs s else s.ref.slewFrom + (run * 400000 + 2) / 3 } }

/-- R312, R319: between switches the loop follows the selected input: LOCKED, the clock has its frequency; LOCKING, it slews to
it. A frozen control word holds. -/
def followStep (s : State) : State :=
  match s.ref.sel with
  | none => s
  | some k =>
    match refIn k s with
    | none => s
    | some r =>
      if s.ref.frozenWord then s
      else if s.ref.clk = .locked then { s with ref := { s.ref with off := r.offset, target := r.offset } }
      else if s.ref.clk = .locking then retarget r.offset s
      else s

/-- R329: why the selection changed. -/
def switchCause (new : Option Nat) (s : State) : Nat :=
  if s.ref.hostSel then 0
  else
    match new, s.ref.sel with
    | none, _ => 4
    | some n, some o =>
      if !qualified o s then 1 else if s.ref.mode = 1 ∧ n = s.ref.manual then 3 else 2
    | some n, none => if s.ref.mode = 1 ∧ n = s.ref.manual then 3 else 2

/-- R318, fourth: selection. -/
def selectStep (s : State) : State :=
  let new := wantedSel s
  let goal : ClkSt := if new.isSome then .locked else idleClk s
  let lost := match s.ref.sel with | some o => !qualified o s | none => false
  let s1 := if lost then forget s else s
  let s2 := if new = s.ref.sel ∧ goal = clkGoal s then s1 else clockTo new goal (switchCause new s) s1
  { s2 with ref := { s2.ref with hostSel := false } }

/-! ### Disagreement (R317) -/

/-- REF_DISAGREE. -/
def disagreeNote (a b : RefIn) (set : Bool) (s : State) : State :=
  notify 0x0A02 (BitVec.ofNat 16 a.num) (some set) (ev [fld 20 1 b.num, fldI 24 4 (b.offset - a.offset)]) s

/-- A pair of qualified inputs of equal priority at one evaluation: 16 evaluations against its standing turn it. -/
def pairStep (a b : RefIn) (s : State) : State :=
  let r := s.ref
  let p := (a.num, b.num)
  let standing := r.disagree.contains p
  let differ := decide (2000000 < (a.offset - b.offset).natAbs)
  let n := match r.runs.find? fun x => decide ((x.1, x.2.1) = p) with | some x => x.2.2 | none => 0
  let rest := r.runs.filter fun x => decide ((x.1, x.2.1) ≠ p)
  if differ = standing then { s with ref := { r with runs := rest } }
  else if n + 1 < 16 then { s with ref := { r with runs := (a.num, b.num, n + 1) :: rest } }
  else
    disagreeNote a b differ { s with ref := { r with
      runs := rest, disagree := if differ then p :: r.disagree else r.disagree.filter fun q => decide (q ≠ p) } }

/-- The pairs of qualified inputs of equal priority, the lower number first. -/
def refPairs (s : State) : List (RefIn × RefIn) :=
  s.ref.inputs.flatMap fun a => (s.ref.inputs.filter fun b =>
    decide (a.num < b.num) && decide (a.st = .qualified) && decide (b.st = .qualified) && decide (a.prio = b.prio)).map
      fun b => (a, b)

/-- R317: every pair at one evaluation; the run of a pair that is no longer comparable is broken. -/
def disagreeStep (s : State) : State :=
  let ps := refPairs s
  let live (x : Nat × Nat × Nat) : Bool := ps.any fun p => decide (p.1.num = x.1) && decide (p.2.num = x.2.1)
  ps.foldl (fun s p => pairStep p.1 p.2 s) { s with ref := { s.ref with runs := s.ref.runs.filter live } }

/-- REF_EVALUATION (R318): failures, completed soaks, selection; then disagreement and learning. -/
def refEvaluate (ms : List RefMeas) (s : State) : State :=
  let ks := s.ref.inputs.map fun r => r.num
  let s1 := ks.foldl (failStep ms) s
  let s2 := ks.foldl soakStep s1
  let s3 := calGather (learn ms (disagreeStep (followStep (selectStep s2))))
  { s3 with ref := { s3.ref with evalAt := refNs s } }

/-- R318, R319: the superframe boundary of an evaluation. -/
def atEvaluation (s : State) : Bool :=
  atBoundary s && match taskAt .references s with | some x => decide (x.start = s.time.lts.sf) | none => false

/-- CLOCK_SLEW_COMPLETE: the slew has reached its target (R319). It takes effect at an evaluation, whose stamp REF_SWITCH
carries (R329). -/
def execClockSlewComplete (s : State) : Out :=
  .next (if s.ref.clk = .locking ∧ atEvaluation s ∧ offNow s = s.ref.target then
    switchNote s.ref.sel s.ref.sel s.ref.toState .locking 6 0
      { s with ref := { s.ref with clk := s.ref.toState, off := s.ref.target, lockedFrom := s.time.wardenNs, calSum := 0, calTime := 0 } }
  else s)

/-- REF_ACTIVITY_LOSS: hardware freezes the loop's control word when the selected input is the one; the next evaluation
disqualifies it (R312). -/
def execRefActivityLoss (input : Byte) (s : State) : Out :=
  if inputExists input.toNat then
    .next (match refIn input.toNat s with
    | none => s
    | some r =>
      if r.st = .disabled then s
      else
        let s1 := modRef input.toNat (fun r => { r with inactive := true }) s
        if s.ref.sel = some input.toNat then { s1 with ref := { s1.ref with frozenWord := true } } else s1)
  else .fault .noSuchPart

/-- R327, R433: on wake every enabled input restarts in SOAKING without dREF, and the clock, which stood, starts in HOLDOVER or
FREERUN at its frequency; an old disagreement is forgotten. -/
def refWake (s : State) : State :=
  let s1 := { s with ref := { s.ref with
      inputs := s.ref.inputs.map fun r =>
        if r.st = .disabled then r
        else { r with st := .soaking, dref := false, soakFrom := none, overFrom := none, first := true },
      runs := [], disagree := [], evalAt := refNs s,
      off := if memOk s then s.ref.mem else 0, slewFrom := refNs s, target := if memOk s then s.ref.mem else 0 } }
  clockTo none (if memOk s then .holdover else .freerun) 5 s1

/-! ### Time of day (R98, R323) -/

/-- The anchor from which time of day is projected. -/
def anchorNow (s : State) : Anchor := s.ref.proj.getD ⟨0, 0, Lts.zero⟩

/-- R98: nanoseconds of the host's epoch at a stamp, projected at the nominal symbol rate. -/
def todAt (t : Lts) (s : State) : Int :=
  let a := anchorNow s
  (a.secs.toNat * 1000000000 + a.ns : Int) + ((t.toNat : Int) - a.lts.toNat) * 1000000 / s.time.rate

/-- R98: seconds of day, time of day being the seconds count modulo 86,400 (R323). -/
def secondsOfDay (s : State) : Nat := (todAt (nowLts s) s / 1000000000 % 86400).toNat

/-- The projection is carried to a change of symbol rate. -/
def carryTod (s : State) : State :=
  let n := (todAt s.time.lts s).toNat
  { s with ref := { s.ref with
      proj := some ⟨BitVec.ofNat 48 (n / 1000000000), n % 1000000000, s.time.lts⟩ } }

/-- R98: the number of the interval of so many seconds that contains a stamp. -/
def intervalOf (secs : Nat) (t : Lts) (s : State) : Int := todAt t s / ((secs : Int) * 1000000000)

/-- R98: the first superframe start at or after an instant of time of day, in seconds, as a superframe count. -/
def startAt (secs : Int) (s : State) : Int :=
  let a := anchorNow s
  let ns := (a.secs.toNat * 1000000000 + a.ns : Int) - secs * 1000000000
  let back := (ns * s.time.rate - (a.lts.toNat : Int) * 1000000) / (1000000 * 2 ^ 24)
  0 - back

/-- R99: a boundary of the interval that runs now lies elsewhere under another anchor. -/
def boundaryMoves (secs : Nat) (before after : State) : Bool :=
  let now := Lts.boundary before.time.lts.sf
  let k (s : State) : Int := intervalOf secs now s
  decide (startAt (k before * secs) before ≠ startAt (k after * secs) after)
    || decide (startAt ((k before + 1) * secs) before ≠ startAt ((k after + 1) * secs) after)

/-- R340: the projected millisecond now. -/
def msNow (s : State) : Int := todAt s.time.lts s / 1000000

/-- R324: the whole second of time of day, less OFFSET, in which PPSOUT stands in mode 1. -/
def ppsSecond (s : State) : Int := (todAt s.time.lts s - s.ref.ppsOffset) / 1000000000

/-- R99, R323, R325, R342: a new anchor marks a running interval incomplete when it moves one of its boundaries, moves PPSOUT's
next edge in mode 1, and is noted in the history record, which goes on in the millisecond that the anchor projects. -/
def newAnchor (a : Anchor) (s : State) : State :=
  let s1 := { s with
    ref := { s.ref with anchor := some a, proj := some a, ppsAnchor := decide (s.ref.ppsMode = 1) },
    hs := { s.hs with senseNew := true, acc := { s.hs.acc with todStep := true } } }
  let cause (secs n : Nat) : Nat := if boundaryMoves secs s s1 then n ||| 1 else n
  let moved := boundaryMoves 900 s s1 || boundaryMoves 86400 s s1
  { s1 with
    hs := { s1.hs with acc := { s1.hs.acc with ms := msNow s1, partial_ := s1.hs.acc.partial_ || moved } },
    ref := { s1.ref with ppsSec := ppsSecond s1 },
    health := { s1.health with cause15 := cause 900 s1.health.cause15, cause24 := cause 86400 s1.health.cause24 } }

def todReply (h : Hdr) (t : Lts) (s : State) : State :=
  reply 0x0A07 h [fld 16 6 t.sf.toNat, fld 22 3 t.sym.toNat] s

/-- REF.TOD_SET. -/
def execRefTodSet (h : Hdr) (secs : Sf) (ns : Word) (anchor : Byte) (sf : Sf) (sym : Sym) (s : State) : Out :=
  command 0x0A07 h s
    (guarded 0x0A07 h
      [(decide (1000000000 ≤ ns.toNat), .badArg), (decide (anchor ≠ 0 ∧ anchor ≠ 2 ∧ anchor ≠ 3), .badArg)]
      fun s =>
        if anchor = 0 then todReply h ⟨sf, sym⟩ (newAnchor ⟨secs, ns.toNat, ⟨sf, sym⟩⟩ s)
        else { s with ref := { s.ref with
          todWait := s.ref.todWait ++ [(h, anchor.toNat, secs, ns.toNat, s.time.wardenNs, decide (s.q.acting = some true))] } })

/-- R17, R323: an anchor has waited 2 s of the warden's clock for its edge. -/
def anchorLate (w : Hdr × Nat × Sf × Nat × Nat × Bool) (s : State) : Bool := wardenPassed w.2.2.2.2.1 2 s

/-- TOD_ANCHOR_TIMEOUT: no edge within 2 s; the previous anchor stays. -/
def execTodAnchorTimeout (s : State) : Out :=
  .next ((s.ref.todWait.filter fun w => anchorLate w s).foldl (fun s w => refuse 0x0A07 w.1 .timeout s)
    { s with ref := { s.ref with todWait := s.ref.todWait.filter fun w => !anchorLate w s } })

/-- PPS_EDGE: an edge `offset` symbols into the symbol frame is stamped whether or not the input is enabled (R322); its form is
judged (R310), and anchors that have not waited too long for it take effect at its stamp (R323). -/
def execPpsEdge (input : Byte) (offset : BitVec 16) (widthNs sinceLastNs : Nat) (s : State) : Out :=
  if input = 2 ∨ input = 3 then
    .next (if s.time.running then
      let t := if s.dbg.frozen then s.time.lts else Lts.ofNat (s.time.lts.toNat + offset.toNat)
      let bad := decide (widthNs < 100) || decide (500000000 < widthNs) || decide (sinceLastNs < 999000000)
      let s1 := { s with ref := { s.ref with
          stampA := if input = 2 then t else s.ref.stampA, stampB := if input = 3 then t else s.ref.stampB } }
      let s2 := if bad then modRef input.toNat (fun r => { r with badForm := true }) s1 else s1
      let mine (w : Hdr × Nat × Sf × Nat × Nat × Bool) : Bool := decide (w.2.1 = input.toNat) && !anchorLate w s
      (s.ref.todWait.filter mine).foldl (fun s w => answerLate w.2.2.2.2.2 (todReply w.1 t) (newAnchor ⟨w.2.2.1, w.2.2.2.1, t⟩ s))
        { s2 with ref := { s2.ref with todWait := s2.ref.todWait.filter fun w => !mine w } }
    else s)
  else .fault .noSuchPart

/-! ### PPSOUT and the recovered clocks (R324 to R326) -/

/-- PPS_STEP (R329). -/
def ppsStep (kind : Nat) (ns : Int) (s : State) : State :=
  notify 0x0A03 noInstance none (ev [fld 20 1 kind, fldI 24 4 ns]) s

/-- R324: a rising edge is due: in mode 1 in the symbol frame in which the projection, less OFFSET, has crossed a whole second; in
mode 2 the input's pulses, or the system clock, time it. -/
def ppsDue (s : State) : Bool :=
  ticking s && (decide (s.ref.ppsMode = 2) || decide (s.ref.ppsMode = 1) && decide (ppsSecond s ≠ s.ref.ppsSec))

/-- PPSOUT_EDGE: a rising edge, `errorNs` from the course PPSOUT was on to its target. -/
def execPpsoutEdge (errorNs : Int) (s : State) : Out :=
  let r := s.ref
  .next (if ppsDue s = false then s
  else
    let s1 := { s with ref := { r with ppsEdges := r.ppsEdges + 1, ppsSec := ppsSecond s } }
    if r.ppsMode = 1 then
      if r.ppsAnchor then ppsStep 2 errorNs { s1 with ref := { s1.ref with ppsAnchor := false, ppsFirst := false } }
      else { s1 with ref := { s1.ref with ppsFirst := false } }
    else if qualified r.ppsInput s then
      if r.ppsFirst then
        ppsStep 0 errorNs { s1 with ref := { s1.ref with ppsFirst := false, ppsErrRun := 0 } }
      else
        let n := if 1000 < errorNs.natAbs then r.ppsErrRun + 1 else 0
        if 16 ≤ n then ppsStep 1 errorNs { s1 with ref := { s1.ref with ppsErrRun := 0 } }
        else { s1 with ref := { s1.ref with ppsErrRun := n } }
    else s1)

/-- R326: the number of an output's source as an input. -/
def outInput (o : ClkOut) : Nat := if o.source = 2 then 4 else 16 + o.lane

/-- R325: PPSOUT follows an input that is not QUALIFIED: it goes on one second apart on the system clock. -/
def ppsNoInput (s : State) : Bool := decide (s.ref.ppsMode = 2) && !qualified s.ref.ppsInput s

/-- R326: a recovered-clock output is held low: off, for 1 μs after a configuration, with a source that is unfit or absent. -/
def clkOutLow (o : ClkOut) (s : State) : Bool :=
  if o.source = 0 ∨ s.time.running = false ∨ s.time.resNs < o.lowTo then true
  else if o.source = 1 then o.squelch && (decide (s.ref.clk = .freerun) || decide (s.ref.clk = .holdover))
  else if o.squelch then !qualified (outInput o) s else !sourcePresent (outInput o) s

/-! ### Commands (R328) -/

/-- REF.INPUT_CONFIG. -/
def execRefInputConfig (h : Hdr) (input prio freq : Byte) (tol drift off : Half) (s : State) : Out :=
  let k := input.toNat
  command 0x0A01 h s
    (guarded 0x0A01 h
      [(!inputExists k, .badArg), (decide (7 < prio.toNat) && decide (prio ≠ 0xFF), .badArg),
       (decide (k ≤ 1) && decide (4 < freq.toNat), .badArg), (decide (200 < tol.toNat), .badArg),
       (decide (drift ≠ 0) && (decide (drift.toNat < 5) || decide (5000 < drift.toNat)), .badArg),
       (decide (460 < off.toNat), .badArg)]
      fun s =>
        let s1 := modRef k (fun r =>
          let r1 := { r with
            prio := prio.toNat, freq := if k ≤ 1 then freq.toNat else r.freq,
            tol := if tol = 0 then 46 else tol.toNat, driftLim := if drift = 0 then 100 else drift.toNat,
            offLim := if off = 0 then 50 else off.toNat }
          if prio = 0xFF then { r1 with st := .disabled, dref := false, soakFrom := none, overFrom := none }
          else if r.st = .disabled then
            { r1 with st := .soaking, soakFrom := none, overFrom := none, first := true, failures := 0,
                      inactive := false, badForm := false }
          else r1) s
        reply 0x0A01 h [fld 16 1 (match refIn k s1 with | some r => refCode r.st | none => 0)] s1)

def selByte (s : State) : Nat := s.ref.sel.getD 0xFF

/-- REF.SELECT: the selection is made at the next evaluation (R318). -/
def execRefSelect (h : Hdr) (mode input flags : Byte) (s : State) : Out :=
  let enabled := match refIn input.toNat s with | some r => decide (r.st ≠ .disabled) | none => false
  command 0x0A02 h s
    (guarded 0x0A02 h
      [(decide (3 < mode.toNat) || !reservedClear flags 1, .badArg), (decide (mode = 1) && !enabled, .badArg),
       (decide (mode = 2) && !memOk s, .badState)]
      fun s =>
        let s1 := { s with ref := { s.ref with
            mode := mode.toNat, manual := if mode = 1 then input.toNat else s.ref.manual, revertive := bitOf flags 0,
            hostSel := true } }
        reply 0x0A02 h [fld 16 1 (clkCode s1.ref.clk), fld 17 1 (selByte s1)] s1)

/-- The bit of an input in the maps of REF.STATUS. -/
def refBit (k : Nat) : Nat := if k ≤ 4 then 2 ^ k else 2 ^ (5 + (k - 16))

def refMap (f : RefIn → Bool) (s : State) : Nat :=
  s.ref.inputs.foldl (fun a r => a + (if f r then refBit r.num else 0)) 0

/-- REF.STATUS. -/
def execRefStatus (h : Hdr) (s : State) : Out :=
  let r := s.ref
  let flags := boolBit (memOk s) 0 + boolBit r.revertive 1 + boolBit (ppsNoInput s) 2
  query 0x0A03 h s
    [fld 16 1 (clkCode r.clk), fld 17 1 (selByte s), fld 18 1 r.mode, fld 19 1 flags,
     fld 20 4 (refMap (fun r => decide (r.st = .qualified)) s), fld 24 4 (refMap (fun r => r.dref) s),
     fld 28 4 (refMap (fun x => r.disagree.any fun p => decide (p.1 = x.num) || decide (p.2 = x.num)) s),
     fldI 32 4 r.mem, fldI 36 4 (offNow s), fldI 40 4 (if r.clk = .locking then r.target - offNow s else 0),
     fld 44 6 r.lastSwitch.toNat]

/-- REF.INPUT_STATUS. -/
def execRefInputStatus (h : Hdr) (input : Byte) (s : State) : Out :=
  command 0x0A04 h s
    (match (if inputExists input.toNat then refIn input.toNat s else none) with
    | none => refuse 0x0A04 h .badArg
    | some r =>
      let soak := match r.soakFrom with | some a => if r.st = .soaking then sfSince a s else 0 | none => 0
      reply 0x0A04 h
        [fld 16 1 (refCode r.st), fld 17 1 r.prio, fld 18 1 r.cause, fldI 20 4 r.offset,
         fldI 24 4 (r.offset - s.ref.mem), fldI 28 4 r.drift, fld 32 4 soak, fld 36 4 r.failures.toNat])

/-- REF.OUTPUT_CONFIG. -/
def execRefOutputConfig (h : Hdr) (output source lane freq flags : Byte) (s : State) : Out :=
  command 0x0A05 h s
    (guarded 0x0A05 h
      [(decide (1 < output.toNat) || decide (3 < source.toNat) || decide (4 < freq.toNat), .badArg),
       (decide (source = 3) && decide (15 < lane.toNat), .badArg), (!reservedClear flags 1, .badArg)]
      fun s =>
        let o : ClkOut := ⟨source.toNat, lane.toNat, freq.toNat, bitOf flags 0, s.time.resNs + 1000⟩
        done 0x0A05 h { s with ref :=
          if output = 0 then { s.ref with out0 := o } else { s.ref with out1 := o } })

/-- REF.PPS_CONFIG. -/
def execRefPpsConfig (h : Hdr) (mode input : Byte) (offset width : Word) (s : State) : Out :=
  command 0x0A06 h s
    (guarded 0x0A06 h
      [(decide (2 < mode.toNat), .badArg), (decide (mode = 2) && decide (input ≠ 2 ∧ input ≠ 3), .badArg),
       (decide (500000000 < (s32 offset).natAbs), .badArg),
       (decide (width.toNat < 1) || decide (500000 < width.toNat), .badArg)]
      fun s =>
        done 0x0A06 h { s with ref := { s.ref with
          ppsMode := mode.toNat, ppsInput := input.toNat, ppsOffset := s32 offset, ppsWidthUs := width.toNat,
          ppsFirst := true, ppsErrRun := 0, ppsAnchor := false,
          ppsSec := (todAt s.time.lts s - s32 offset) / 1000000000 } })

/-- REF.TOD_GET. -/
def execRefTodGet (h : Hdr) (s : State) : Out :=
  let a := s.ref.anchor.getD ⟨0, 0, Lts.zero⟩
  query 0x0A08 h s
    [fld 16 6 a.secs.toNat, fld 24 4 a.ns, fld 28 6 a.lts.sf.toNat, fld 34 3 a.lts.sym.toNat,
     fld 40 6 s.ref.stampA.sf.toNat, fld 46 3 s.ref.stampA.sym.toNat, fld 50 6 s.ref.stampB.sf.toNat,
     fld 56 3 s.ref.stampB.sym.toNat, fld 60 4 (secondsOfDay s)]

end Sys2Proof.Machine
end

