-- ==== Sys2Proof/Machine/History.lean ====
section
/-! DEFINITION. The history record, the sensing chain, polarisation triggers, raw captures, the cruiser and the HS
commands (chapter 13). -/
namespace Sys2Proof.Machine

open Sys2Proof

/-- R342, R345: recording and sensing are possible: RUN or IDLE, above no coppicing level, from step 7 of R33. -/
def storeActive (s : State) : Bool :=
  s.hs.started && decide (s.pwr.shed = 0) && inTraffic s && ticking s && s.pwr.powered.getLsbD 6

/-- R342: recording is on. -/
def recording (s : State) : Bool := s.hs.wanted && storeActive s

/-- R343, R345: sensing is on. -/
def sensing (s : State) : Bool := decide (s.hs.rate ≠ 0) && storeActive s

/-! ### The sensing chain (R343 to R345) -/

/-- R343: f_out in Hz by its code. -/
def senseHz (code : Nat) : Nat :=
  match code with
  | 1 => 1000 | 2 => 2000 | 3 => 5000 | 4 => 10000 | 5 => 20000 | _ => 0

/-- R343: half-band stages: the largest number, up to 8, with B/65,536/2^k at least twice f_out. -/
def senseStages (rate hz : Nat) : Nat :=
  if hz = 0 then 0
  else ((List.range 9).filter fun k => decide (2 * hz * 2 ^ k * 65536 ≤ rate * 1000)).foldl max 0

/-- R344: the span of the table in sensing inputs. -/
def senseSpan (k : Nat) : Nat := 15 * (2 ^ k - 1)

/-- R344: invalid outputs after a reset: 16 + ceil(span f_out / input rate). -/
def senseInvalidTotal (rate hz : Nat) : Nat :=
  16 + (senseSpan (senseStages rate hz) * hz * 65536 + rate * 1000 - 1) / (rate * 1000)

/-- An input's effect on the record in progress (R340, R341). -/
def accInput (i : SenseIn) (valid : Bool) (rot : Nat) (t : Lts) (a : HistAcc) : HistAcc :=
  let b := { a with first := some (a.first.getD t), nin := a.nin + 1 }
  if valid then
    { b with
      nvalid := a.nvalid + 1, s1 := a.s1 + i.s1, s2 := a.s2 + i.s2, s3 := a.s3 + i.s3,
      sops := (i.s1, i.s2, i.s3) :: a.sops, rot := max a.rot rot, phase := a.phase + i.phase,
      phMin := if a.nvalid = 0 then i.phase else min a.phMin i.phase,
      phMax := if a.nvalid = 0 then i.phase else max a.phMax i.phase, dgd := a.dgd + i.dgd,
      dgdPeak := max a.dgdPeak i.dgd }
  else b

/-! ### Captures (R347) -/

/-- The slot a capture takes: the lowest EMPTY one, or the oldest COMPLETE one when overwriting is allowed. -/
def capChoice (s : State) : Option Nat :=
  match (List.range 256).find? fun k => decide (s.hs.slots.getD k 0 = 0) with
  | some k => some k
  | none => if s.hs.overwrite then s.hs.capOrder.head? else none

/-- A capture starts in a slot: the buffer fills. -/
def capStart (slot cause : Nat) (trig : Lts) (s : State) : State :=
  { s with hs := { s.hs with
      capSt := 1, capSlot := slot, capCause := cause, capAt := s.time.lts, capTrig := trig, capFlags := 0, capOver := [],
      capGains := (s.fe.xGain, s.fe.yGain), slots := setAt s.hs.slots slot 1,
      capOrder := s.hs.capOrder.filter fun k => decide (k ≠ slot), acc := { s.hs.acc with captured := true } } }

/-- HS_CAPTURE (R351). -/
def capNote (slot state cause : Nat) (t : Lts) (s : State) : State :=
  notifyAt 0x0B02 (BitVec.ofNat 16 slot) none (ev [fld 20 1 state, fld 21 1 cause]) t s

/-- R346, R347: a trigger asks for a capture. -/
def capTrigger (cause : Nat) (t : Lts) (s : State) : State :=
  if s.hs.trigAction = 0 ∨ s.hs.capArmed = false then s
  else if s.hs.capSt ≠ 0 then { s with hs := { s.hs with missed := s.hs.missed + 1 } }
  else
    match capChoice s with
    | none => s
    | some k =>
      let s1 := capStart k cause t s
      if s.hs.trigAction = 1 then { s1 with hs := { s1.hs with capArmed := false } } else s1

/-- The buffer is free again; its slot takes a state. -/
def capEnd (state : Nat) (s : State) : State :=
  { s with hs := { s.hs with capSt := 0, capBuf := [], slots := setAt s.hs.slots s.hs.capSlot state } }

/-- R138, R348: the over-range flag of a channel in a DSP clock of the capture, 256 samples a clock. -/
def capFlagged (s : State) (ch clock : Nat) : Bool :=
  s.hs.capOver.any fun b =>
    let o : Int := ((b.2.1.toNat : Int) - s.hs.capAt.toNat) * 320000000 / rateNow s
    decide (b.1.toNat = ch) && decide (o < ((clock + 1) * 256 : Nat)) && decide (((clock * 256 : Nat) : Int) < o + b.2.2)

/-- R348: the flags of two clocks. -/
def capFlagByte (s : State) (i : Nat) : Byte :=
  BitVec.ofNat 8 (((List.range 8).map fun k => boolBit (capFlagged s (k % 4) (2 * i + k / 4)) k).foldl (· + ·) 0)

/-- R348: a slot's header. -/
def capHeader (s : State) : List Byte :=
  let h := s.hs
  let m := s.line.cur
  let maps := s.fe.adc.toList.flatMap fun c => padTo 68 (sliceBytes c)
  let body := padTo 4092
    (leBytes 6 h.capAt.sf.toNat ++ leBytes 3 h.capAt.sym.toNat ++ leBytes 1 h.capCause
      ++ leBytes 1 (match m with | some x => x.code.toNat | none => 0) ++ leBytes 1 h.capFlags
      ++ leBytes 4 (nearest (rateNow s) 1000) ++ leBytes 6 h.capTrig.sf.toNat ++ leBytes 3 h.capTrig.sym.toNat
      ++ leBytes 1 h.capGains.1 ++ leBytes 1 h.capGains.2 ++ List.replicate 5 0 ++ maps
      ++ (List.range 2048).map (capFlagByte s))
  body ++ leBytes 4 (check0 body)

/-- The header of the capture's slot is written to META. -/
def capHeaderKept (s : State) : State :=
  { s with hs := { s.hs with
    headers := (s.hs.capSlot, capHeader s) :: s.hs.headers.filter fun x => decide (x.1 ≠ s.hs.capSlot) } }

/-- R349: a capture that cannot go on: its slot is INCOMPLETE, or, for a filling one that is discarded, EMPTY. -/
def capAbort (discardFill : Bool) (s : State) : State :=
  if s.hs.capSt = 0 then s
  else if s.hs.capSt = 1 ∧ discardFill then capEnd 0 s
  else
    let s1 := { s with hs := { s.hs with capFlags := s.hs.capFlags ||| 4 } }
    capNote s.hs.capSlot 4 s.hs.capCause s.hs.capAt (capEnd 4 (capHeaderKept s1))

/-- R349: a mode change ends a filling capture. -/
def capModeChange (s : State) : State := if s.hs.capSt = 1 then capAbort false s else s

/-! ### Triggers (R346) -/

/-- HS_TRIGGER, at most once per 1,024 superframes per trigger, with the triggers suppressed since the last. -/
def trigNote (exc : Bool) (t : Lts) (s : State) : State :=
  let h := s.hs
  let last := if exc then h.excNoted else h.rateNoted
  let heldN := if exc then h.excHeld else h.rateHeld
  let due := match last with | none => true | some a => decide (1024 ≤ (t.sf - a).toNat)
  if due then
    let s1 := notifyAt 0x0B01 (if exc then 1 else 0) none (ev [fld 20 2 heldN, fld 24 4 h.rotPeak]) t s
    { s1 with hs :=
      if exc then { s1.hs with excNoted := some t.sf, excHeld := 0 }
      else { s1.hs with rateNoted := some t.sf, rateHeld := 0 } }
  else
    { s with hs := if exc then { h with excHeld := heldN + 1 } else { h with rateHeld := heldN + 1 } }

/-- POL_TRIGGER_FIRE: stamped at the first input of its run. -/
def trigFire (exc : Bool) (t : Lts) (s : State) : State :=
  let s1 := { s with hs := { s.hs with
      senseTrig := true, acc := { s.hs.acc with triggers := s.hs.acc.triggers + 1 } } }
  capTrigger (if exc then 2 else 1) t (trigNote exc t (freezeTrip .polTrigger s1))

/-- One trigger at one input: M consecutive valid inputs with the condition fire it, and M without re-arm it. -/
def trigStep (exc : Bool) (valid present : Bool) (t : Lts) (s : State) : State :=
  let h := s.hs
  let fired := if exc then h.excFired else h.rateFired
  let counts := valid && decide (present ≠ fired)
  let n := if counts then (if exc then h.excRun else h.rateRun) + 1 else 0
  let first := if n = 1 then t else if exc then h.excFirst else h.rateFirst
  let turn := decide (h.trigM ≤ n)
  let put (h : Hs) : Hs :=
    if exc then { h with excRun := if turn then 0 else n, excFired := if turn then !fired else fired, excFirst := first }
    else { h with rateRun := if turn then 0 else n, rateFired := if turn then !fired else fired, rateFirst := first }
  let s1 := { s with hs := put h }
  if turn && !fired then trigFire exc first s1 else s1

/-- R346: the angle between a state of polarisation and that of 16 inputs earlier, in mrad; none when there is none. -/
def turned (p : Int × Int × Int) (h : Hs) : Nat :=
  match h.sops[15]? with | some q => Config.angleMrad p q | none => 0

/-- R341, R346: a rotation rate in krad/s: an angle in mrad over 16 input intervals of 65,536 symbols, at a rate in kBd. -/
def krad (angle rate : Nat) : Nat := angle * rate / 1048576000

/-- R346: the RATE condition, exactly. -/
def turnsFast (angle rate : Nat) (h : Hs) : Bool := decide (h.rateThr * 1048576000 < angle * rate)

/-- R346: the EXCURSION condition. -/
def strays (p : Int × Int × Int) (h : Hs) : Bool :=
  match h.lastMean with | some m => decide (h.excThr < Config.angleMrad p m) | none => false

/-- What the sensing chain does with an input: the record gathers it, the chain's span counts it, and the triggers judge it. An
input that is not valid holds the last state of polarisation. -/
def senseTake (i : SenseIn) (valid : Bool) (t : Lts) (s : State) : State :=
  let h := s.hs
  let p := if valid then (i.s1, i.s2, i.s3) else h.sops.headD (i.s1, i.s2, i.s3)
  let angle := turned p h
  let rot := krad angle s.time.rate
  let s1 := { s with hs := { h with
      acc := accInput i valid rot t h.acc, lastGood := if valid then h.lastGood + 1 else 0, sops := (p :: h.sops).take 16,
      rotPeak := if valid then max (if h.rateRun = 0 ∧ h.excRun = 0 then 0 else h.rotPeak) rot else 0 } }
  let s2 := if h.trigRate then trigStep false valid (turnsFast angle s.time.rate h) t s1 else s1
  if h.trigExc then trigStep true valid (strays p h) t s2 else s2

/-- SENSE_INPUT: once per symbol frame. The training word counts for symbol-frame lock (R164, R170); the input is VALID only in TRACK
and with no disturbed or excluded symbol in the word (R173). -/
def execSenseInput (i : SenseIn) (rx : RxAt) (s : State) : Out :=
  let word := some (frameStart rx s)
  .next (if ticking s && decide (s.eq.lastWord ≠ word) then
    let s1 := trainWord i rx { s with eq := { s.eq with lastWord := word } }
    if storeActive s && !s.eq.rawLosf then
      senseTake i (wordUsable rx s && decide (s.eq.st = 8)) (rxStamp rx s) s1
    else { s1 with hs := { s1.hs with lastGood := 0, sops := [] } }
  else s)

/-- R345: where a sample lies in the ring. -/
def sampleAddr (n : Nat) : Nat := 0x340000000 + 16 * (n % 67108864)

/-- R345: the 16 bytes of a sample. -/
def sampleBytes (n : Nat) (s1 s2 s3 phaseRate : Int) (dgd flags : Nat) : List Byte :=
  leBytes 4 n ++ intBytes 2 s1 ++ intBytes 2 s2 ++ intBytes 2 s3 ++ intBytes 2 phaseRate ++ leBytes 2 dgd
    ++ [BitVec.ofNat 8 flags, 0]

/-- R343: the place of an output now, in multiples of 1/f_out of projected time of day. -/
def senseIdxNow (s : State) : Int := todAt s.time.lts s * senseHz s.hs.rate / 1000000000

/-- SENSE_SAMPLE_WRITE: an output of the chain, one at each multiple of 1/f_out of projected time of day, goes to the ring; one
that comes while sensing is stopped is a gap. -/
def execSenseSampleWrite (s1 s2 s3 phaseRate : Int) (dgd : Nat) (s : State) : Out :=
  .next (if sensing s then
    if senseIdxNow s = s.hs.senseIdx then s
    else
    let h := s.hs
    let spanned := decide (senseSpan h.stages ≤ h.lastGood)
    let valid := spanned && decide (h.senseInvalid = 0) && decide (s.eq.st = 8)
    let flags := boolBit valid 0 + boolBit h.senseTrig 1 + boolBit h.senseGap 2
    let hz := senseHz h.rate
    let seg : SenseSeg := ⟨h.sampleN, todAt s.time.lts s * hz / 1000000000 * 1000000000 / hz, s.time.lts, hz, s.time.rate⟩
    let a := storeWrite (sampleAddr h.sampleN) (sampleBytes h.sampleN s1 s2 s3 phaseRate dgd flags) s
    { a with hs := { a.hs with
        sampleN := h.sampleN + 1, senseIdx := senseIdxNow s, senseTrig := false, senseGap := false, senseNew := false,
        senseSegs := if h.senseNew then seg :: h.senseSegs else h.senseSegs,
        senseInvalid := if spanned then h.senseInvalid - 1 else h.senseInvalid } }
  else if ticking s then { s with hs := { s.hs with senseGap := true, senseNew := true } }
  else s)

/-! ### The history record (R340 to R342) -/

/-- R341 bytes 90 to 91. -/
def recordDefects (s : State) : Nat :=
  lineDefects s + boolBit (s.tribs.any fun t => t.auth.set) 8 + boolBit (s.tribs.any fun t => t.key.set) 9
    + boolBit (s.tribs.any fun t => t.csf.set) 10 + boolBit (s.tribs.any fun t => t.plm.set) 11
    + boolBit (match s.ref.sel with
        | some k => (match refIn k s with | some r => r.dref | none => false)
        | none => false) 12

/-- R341 byte 17. -/
def recordFlags (a : HistAcc) (gap valid : Bool) : Nat :=
  boolBit valid 0 + boolBit gap 1 + boolBit a.todStep 2 + boolBit (decide (0 < a.triggers)) 3
    + boolBit (decide (0 < a.disturbed)) 4 + boolBit a.partial_ 5 + boolBit a.captured 6

/-- R341: the mean state of polarisation of the inputs gathered. -/
def accMean (a : HistAcc) : Int × Int × Int :=
  let n : Int := if a.nvalid = 0 then 1 else a.nvalid
  (a.s1 / n, a.s2 / n, a.s3 / n)

/-- R341: the 128 bytes of the record that closes now; fields of the equaliser and the decoder hold zero while the record
is not VALID; the measured power and laser error are free values. -/
def recordBytes (s : State) : List Byte :=
  let a := s.hs.acc
  let valid := a.track && decide (s.eq.st = 8)
  let n := if a.nvalid = 0 then 1 else a.nvalid
  let v (x : Nat) : Nat := if valid then x else 0
  let vi (x : Int) : Int := if valid then x else 0
  let mean := accMean a
  let exc := a.sops.foldl (fun m x => max m (Config.angleMrad x mean)) 0
  let ms := a.ms.toNat
  let e := s.eq.est
  let first := a.first.getD s.time.lts
  let body :=
    leBytes 8 s.hs.seq ++ leBytes 6 first.sf.toNat ++ leBytes 3 first.sym.toNat
      ++ leBytes 1 (recordFlags a s.hs.gap valid) ++ leBytes 6 (ms / 1000) ++ leBytes 4 (ms % 1000 * 1000000)
      ++ leBytes 2 a.nin ++ leBytes 2 a.nvalid ++ intBytes 2 (vi mean.1) ++ intBytes 2 (vi mean.2.1)
      ++ intBytes 2 (vi mean.2.2) ++ leBytes 2 (v exc) ++ leBytes 2 (v (a.rot / 10)) ++ intBytes 4 (vi a.phase)
      ++ leBytes 2 (v ((a.phMax - a.phMin).toNat * 1000 / 4096)) ++ leBytes 2 (v (a.dgd / n)) ++ leBytes 2 (v a.dgdPeak)
      ++ intBytes 4 (vi e.cd) ++ leBytes 2 (v e.snrX) ++ leBytes 2 (v e.snrY) ++ leBytes 2 (powerField s.fe.power)
      ++ intBytes 2 (vi (e.cfoKhz / 1000)) ++ leBytes 4 (v s.fec.estimate) ++ leBytes 4 a.cw ++ leBytes 4 a.unc
      ++ leBytes 2 (min 65535 a.slipX) ++ leBytes 2 (min 65535 a.slipY) ++ leBytes 2 (free 0 s) ++ leBytes 2 (free 1 s)
      ++ intBytes 2 s.pins.caseTemp ++ intBytes 2 (vi e.nlcGain) ++ leBytes 1 s.eq.st ++ leBytes 1 (optCode s.tx.st)
      ++ leBytes 2 (recordDefects s) ++ leBytes 1 (clkCode s.ref.clk) ++ leBytes 1 (selByte s) ++ leBytes 1 s.aon.coppice
      ++ leBytes 1 (min 255 a.triggers) ++ leBytes 4 a.disturbed ++ leBytes 1 s.fe.xGain ++ leBytes 1 s.fe.yGain
      ++ leBytes 1 (match s.line.cur with | some m => m.code.toNat | none => 0) ++ [0] ++ leBytes 2 (v e.osnr)
      ++ intBytes 2 (vi (fecMargin s.fec.estOf.1 s.fec.estOf.2 (berThreshold ((ovhNow s).getD 3)))) ++ List.replicate 16 0
  body ++ leBytes 4 (check0 body)

/-- R340: where a record lies. -/
def recordAddr (seq : Nat) : Nat := 128 * (seq % 100663296)

/-- The accumulator of a new record. -/
def freshAcc (s : State) : HistAcc := { track := decide (s.eq.st = 8), ms := msNow s }

/-- R340: whole projected milliseconds that have passed since the record in progress began. -/
def msPassed (s : State) : Nat := (msNow s - s.hs.acc.ms).toNat

/-- HISTORY_RECORD_CLOSE: at a whole millisecond of projected time of day. SEQ advances with every projected millisecond; a record
is written while recording is on, and the first after a millisecond without one carries GAP_BEFORE. -/
def execHistoryRecordClose (s : State) : Out :=
  let n := msPassed s
  .next (if n = 0 ∨ ticking s = false then s
  else if recording s then
    let s1 := drawMany 2 (storeWrite (recordAddr s.hs.seq) (recordBytes s) s)
    { s1 with hs := { s1.hs with
        seq := s.hs.seq + n, gap := decide (1 < n), acc := freshAcc s,
        lastMean := if s.hs.acc.nvalid = 0 then none else some (accMean s.hs.acc) } }
  else { s with hs := { s.hs with seq := s.hs.seq + n, gap := true, acc := freshAcc s } })

/-! ### Capture completion (R347, R348) -/

/-- R347: 4,096 DSP clocks of 1.25 GHz have passed since the capture began, within the present symbol frame. -/
def capFull (s : State) : Bool := decide (s.hs.capAt.toNat + 4096 * s.time.rate / 1250000 < s.time.lts.toNat + 65536)

/-- CAPTURE_FILL_DONE: the buffer is full and is copied to its slot. -/
def execCaptureFillDone (codes : List Byte) (s : State) : Out :=
  .next (if s.hs.capSt = 1 ∧ ticking s ∧ capFull s then
    { s with hs := { s.hs with capSt := 2, capBuf := padTo 4194304 codes, slots := setAt s.hs.slots s.hs.capSlot 2 } }
  else s)

/-- CAPTURE_COPY_DONE: the slot is COMPLETE. -/
def execCaptureCopyDone (s : State) : Out :=
  .next (if s.hs.capSt = 2 ∧ ticking s then
    let k := s.hs.capSlot
    let s1 := storeWrite (4096 * slotPage k) s.hs.capBuf s
    let s2 := capHeaderKept { s1 with hs := { s1.hs with capOrder := s1.hs.capOrder ++ [k] } }
    capNote k 3 s.hs.capCause s.hs.capAt (capEnd 3 s2)
  else s)

/-! ### The cruiser (R336 to R338) -/

/-- R337: the cruiser stops in freeze, at C2 and in SLEEP, and while STORE is off. -/
def cruiserPaused (s : State) : Bool :=
  !ticking s || decide (2 ≤ s.pwr.shed) || !inRun s || !s.pwr.powered.getLsbD 6

/-- R337: the window of 1,024 superframes that holds now; windows that passed whole were paused (R338). -/
def rollWindow (s : State) : State :=
  let k := sfSince s.hs.winFrom s / 1024
  if k = 0 then s
  else
    { s with hs := { s.hs with
        winFrom := s.hs.winFrom + BitVec.ofNat 48 (1024 * k), winChecked := 0, boosted := false,
        lap := { s.hs.lap with paused := s.hs.lap.paused + (k - 1) } } }

/-- R338: the end of a lap: its report, HS_LAP, and the next lap from page 0. -/
def lapEnd (s : State) : State :=
  let l := { s.hs.lap with end_ := s.time.lts.sf }
  let s1 := { s with hs := { s.hs with
      lastLap := l, lap := { num := l.num + 1, start := s.time.lts.sf }, cruisePage := 0 } }
  if s.hs.notifyLap then
    notify 0x0B04 noInstance none
      (ev [fld 20 4 l.num, fld 24 4 l.checked, fld 28 4 l.corrections, fld 32 4 l.repairs, fld 36 4 l.poisoned,
        fld 40 2 l.boosts]) s1
  else s1

/-- CRUISER_PAGE_CHECK: the next page is read, corrected and checked, repaired or poisoned. -/
def execCruiserPageCheck (corrected : Nat) (syndromeZero decodable : Bool) (s : State) : Out :=
  .next (if cruiserPaused s then s
  else
    let s1 := rollWindow s
    let p := s1.hs.cruisePage
    let s2 :=
      if pageHeld p s1 then
        let l := s1.hs.lap
        let l1 := { l with checked := l.checked + 1, corrections := l.corrections + corrected,
                           repairs := if !syndromeZero && decodable then l.repairs + 1 else l.repairs }
        let s' := { s1 with hs := { s1.hs with lap := l1, winChecked := s1.hs.winChecked + 1 } }
        if !syndromeZero && !decodable then poisonPage p 0 s' else s'
      else { s1 with hs := { s1.hs with lap := { s1.hs.lap with skipped := s1.hs.lap.skipped + 1 } } }
    if storePages ≤ p + 1 then lapEnd s2 else { s2 with hs := { s2.hs with cruisePage := p + 1 } })

/-- CRUISER_BOOST: with 896 superframes of a window gone and fewer than MIN_RATE pages checked, the cruiser takes rank 3. -/
def execCruiserBoost (s : State) : Out :=
  .next (if cruiserPaused s then s
  else
    let s1 := rollWindow s
    if s1.hs.boosted = false ∧ 896 ≤ sfSince s1.hs.winFrom s1 ∧ s1.hs.winChecked < s1.hs.minRate then
      { s1 with hs := { s1.hs with boosted := true, lap := { s1.hs.lap with boosts := s1.hs.lap.boosts + 1 } } }
    else s1)

/-! ### Regions (R332, R342) -/

/-- A region starts empty: every earlier record, capture and sample is gone. -/
def regionEmpty (r : Nat) (s : State) : State :=
  let s1 := regionClear r s
  if r = 0 then { s1 with hs := { s1.hs with firstSeq := s1.hs.seq, gap := true } }
  else if r = 1 then
    { s1 with hs := { s1.hs with
        slots := List.replicate 256 0, capOrder := [], headers := [], firstSample := s1.hs.sampleN } }
  else s1

/-- REGION_INIT_DONE: the regions being initialised are empty, and the commands that asked are answered. -/
def execRegionInitDone (s : State) : Out :=
  .next (if s.pwr.powered.getLsbD 6 then
    let s1 := s.hs.initing.foldl (fun s r => regionEmpty r.1 s) { s with hs := { s.hs with initing := [] } }
    s.hs.initing.foldl (fun s r =>
      match r.2 with
      | some c => answerLate c.2 (done 0x0B0A c.1) s
      | none => s) s1
  else s)

/-- R337, R342: STORE powers up after DEEP or OFF: contents and poison list are gone, every region is initialised, the
sample number and the lap restart. -/
def storePowerUp (s : State) : State :=
  { s with hs := { s.hs with
      mem := [], valid := [], poison := [], poisonFull := false, merge := [], slots := List.replicate 256 0, capOrder := [],
      headers := [], capSt := 0, capBuf := [], sampleN := 0, firstSample := 0, senseSegs := [], senseNew := true,
      firstSeq := s.hs.seq, cruisePage := 0, lap := {}, lastLap := {}, winFrom := s.time.lts.sf, winChecked := 0,
      initing := [(0, none), (1, none), (2, none), (3, none), (4, none)] } }

/-! ### Commands (R350) -/

/-- HS.HISTORY. -/
def execHsHistory (h : Hdr) (start : Byte) (s : State) : Out :=
  command 0x0B01 h s
    (guarded 0x0B01 h [(decide (1 < start.toNat), .badArg), (decide (0 < s.aon.coppice), .badState)] fun s =>
      reply 0x0B01 h [fld 16 8 s.hs.seq] { s with hs := { s.hs with wanted := decide (start = 1) } })

/-- R340, R350: the oldest record the region can hold. -/
def oldestSeq (s : State) : Nat := max s.hs.firstSeq (s.hs.seq - 100663296)

/-- A record's 128 bytes as the region holds them. -/
def recordAt (seq : Nat) (s : State) : List Byte :=
  (List.range 16).flatMap fun k => wordBytes (recordAddr seq / 8 + k) s

/-- A record is unavailable: its page is poisoned, or it was not written. -/
def recordMissing (seq : Nat) (s : State) : Bool :=
  pagePoisoned (recordAddr seq / 4096) s || !wordValid (recordAddr seq / 8) s
    || decide (fieldAt (recordAt seq s) 0 8 ≠ seq)

/-- HS.HISTORY_READ. -/
def execHsHistoryRead (h : Hdr) (first : Dword) (count : Byte) (s : State) : Out :=
  command 0x0B02 h s
    (guarded 0x0B02 h
      [(decide (count.toNat < 1) || decide (32 < count.toNat) || !h.buf, .badArg),
       (decide (s.hs.seq ≤ first.toNat), .badArg)]
      fun s =>
        let a := max first.toNat (oldestSeq s)
        let n := min count.toNat (s.hs.seq - a)
        let missing := (List.range n).foldl (fun m i => m + (if recordMissing (a + i) s then 2 ^ i else 0)) 0
        respond 0x0B02 h .ok
          (result [fld 16 8 a, fld 24 1 n, fld 25 1 (decide (first.toNat < oldestSeq s)).toNat, fld 28 4 missing])
          (some ((List.range n).flatMap fun i => recordAt (a + i) s)) s)

/-- HS.SENSE_CONFIG: every start, stop or change of f_out resets the chain (R344). -/
def execHsSenseConfig (h : Hdr) (rate : Byte) (s : State) : Out :=
  command 0x0B03 h s
    (guarded 0x0B03 h [(decide (5 < rate.toNat), .badArg), (decide (0 < s.aon.coppice), .badState)] fun s =>
      let hz := senseHz rate.toNat
      let k := senseStages (rateNow s) hz
      let same := decide (rate.toNat = s.hs.rate)
      let s1 := if same then s
        else senseReset { s with hs := { s.hs with rate := rate.toNat, stages := k, senseGap := true } }
      reply 0x0B03 h [fld 16 1 k, fld 17 2 (if rate = 0 then 0 else senseInvalidTotal (rateNow s) hz)] s1)

/-- R350: LTS and projected time of day of a sample, from the run it belongs to. -/
def sampleTime (n : Nat) (s : State) : Lts × Int :=
  match s.hs.senseSegs.find? fun g => decide (g.n ≤ n) with
  | some g =>
    (Lts.ofNat (g.lts.toNat + nearest ((n - g.n) * g.rate * 1000) g.hz), g.tod + (n - g.n : Nat) * 1000000000 / g.hz)
  | none => (Lts.zero, 0)

/-- HS.SENSE_READ. -/
def execHsSenseRead (h : Hdr) (first : Dword) (count : Half) (s : State) : Out :=
  command 0x0B04 h s
    (guarded 0x0B04 h
      [(decide (count.toNat < 1) || decide (256 < count.toNat) || !h.buf, .badArg),
       (decide (s.hs.sampleN ≤ first.toNat), .badArg)]
      fun s =>
        let old := max s.hs.firstSample (s.hs.sampleN - 67108864)
        let a := max first.toNat old
        let n := min count.toNat (s.hs.sampleN - a)
        let t := sampleTime a s
        let ns := t.2.toNat
        respond 0x0B04 h .ok
          (result [fld 16 8 a, fld 24 2 n, fld 26 1 (decide (first.toNat < old)).toNat, fld 28 6 t.1.sf.toNat,
            fld 34 3 t.1.sym.toNat, fld 40 6 (ns / 1000000000), fld 48 4 (ns % 1000000000)])
          (some ((List.range n).flatMap fun i =>
            wordBytes (sampleAddr (a + i) / 8) s ++ wordBytes (sampleAddr (a + i) / 8 + 1) s)) s)

/-- HS.TRIGGER_CONFIG. -/
def execHsTriggerConfig (h : Hdr) (enables m action : Byte) (rateThr : Word) (excThr : Half) (s : State) : Out :=
  command 0x0B05 h s
    (guarded 0x0B05 h
      [(!reservedClear enables 3 || decide (2 < action.toNat), .badArg),
       (decide (rateThr ≠ 0) && (decide (rateThr.toNat < 50) || decide (20000 < rateThr.toNat)), .badArg),
       (decide (excThr ≠ 0) && (decide (excThr.toNat < 50) || decide (3141 < excThr.toNat)), .badArg)]
      fun s =>
        done 0x0B05 h { s with hs := { s.hs with
          trigRate := bitOf enables 0, trigExc := bitOf enables 1, trigM := if m = 0 then 8 else m.toNat,
          trigAction := action.toNat, rateThr := if rateThr = 0 then 500 else rateThr.toNat,
          excThr := if excThr = 0 then 500 else excThr.toNat, rateRun := 0, excRun := 0, rateFired := false,
          excFired := false, capArmed := decide (action ≠ 0) } })

/-- HS.CAPTURE. -/
def execHsCaptureCmd (h : Hdr) (action flags : Byte) (s : State) : Out :=
  command 0x0B06 h s
    (guarded 0x0B06 h
      [(decide (1 < action.toNat) || !reservedClear flags 1, .badArg)]
      fun s =>
        if action = 1 then
          reply 0x0B06 h [fld 16 1 0xFF, fld 17 1 0]
            { s with hs := { s.hs with capArmed := false, overwrite := bitOf flags 0 } }
        else
          let s0 := { s with hs := { s.hs with overwrite := bitOf flags 0 } }
          guarded 0x0B06 h
            [(s.line.cur.isNone, .badState), (decide (s.hs.capSt ≠ 0), .busy),
             ((capChoice s0).isNone || decide (0 < s.aon.coppice), .noResource)]
            (fun _ =>
              let k := (capChoice s0).getD 0
              reply 0x0B06 h [fld 16 1 k, fld 17 1 1] (capStart k 0 Lts.zero s0))
            (if s.hs.capSt ≠ 0 then { s with hs := { s.hs with missed := s.hs.missed + 1 } } else s))

/-- HS.CAPTURE_READ. -/
def execHsCaptureRead (h : Hdr) (slot flags : Byte) (offset : Dword) (s : State) : Out :=
  let st := s.hs.slots.getD slot.toNat 0
  let header := bitOf flags 0
  let page := slotPage slot.toNat + offset.toNat / 4096
  command 0x0B07 h s
    (guarded 0x0B07 h
      [(!h.buf || !reservedClear flags 1, .badArg),
       (!header && (decide (offset.toNat % 4096 ≠ 0) || decide (4194304 ≤ offset.toNat)), .badArg),
       (decide (st ≤ 2), .badState)]
      fun s =>
        let bs := if header then
            padTo 4096 (match s.hs.headers.find? fun x => decide (x.1 = slot.toNat) with | some x => x.2 | none => [])
          else (List.range 512).flatMap fun k => wordBytes (512 * page + k) s
        respond 0x0B07 h .ok
          (result [fld 16 1 st, fld 17 1 (!header && pagePoisoned page s).toNat, fld 18 2 4096]) (some bs) s)

/-- HS.CRUISER. -/
def execHsCruiser (h : Hdr) (rate : Half) (flags : Byte) (s : State) : Out :=
  command 0x0B08 h s
    (guarded 0x0B08 h
      [(decide (rate ≠ 0) && (decide (rate.toNat < 16) || decide (4096 < rate.toNat)), .badArg),
       (!reservedClear flags 1, .badArg)]
      fun s => done 0x0B08 h { s with hs := { s.hs with
        minRate := if rate = 0 then 128 else rate.toNat, notifyLap := bitOf flags 0 } })

/-- HS.STORE_STATUS: the counters are those of the last completed lap. -/
def execHsStoreStatus (h : Hdr) (s : State) : Out :=
  let l := s.hs.lastLap
  let flags := boolBit (cruiserPaused s) 0 + boolBit s.hs.poisonFull 1 + boolBit (recording s) 2
  query 0x0B09 h s
    [fld 16 4 l.num, fld 20 6 l.start.toNat, fld 26 6 l.end_.toNat, fld 32 4 l.checked, fld 36 4 l.corrections,
     fld 40 4 l.repairs, fld 44 4 l.poisoned, fld 48 4 l.skipped, fld 52 2 l.boosts, fld 54 2 l.paused,
     fld 56 2 s.hs.poison.length, fld 58 1 flags,
     fld 59 1 (s.hs.slots.filter fun x => decide (x = 3)).length, fld 60 4 s.hs.missed.toNat]

/-- HS.REGION_INIT: answered when the initialisation is done. -/
def execHsRegionInit (h : Hdr) (region : Byte) (s : State) : Out :=
  command 0x0B0A h s
    (guarded 0x0B0A h [(decide (1 < region.toNat), .badArg), (decide (s.hs.capSt ≠ 0), .busy)] fun s =>
      { s with hs := { s.hs with
          initing := s.hs.initing ++ [(region.toNat, some (h, decide (s.q.acting = some true)))] } })

end Sys2Proof.Machine
end

