-- ==== Sys2Proof/Machine/Health.lean ====
section
/-! DEFINITION. Calibration, the monitor converter, tallies, blazes and the ageing monitor, with the CAL, MON, TALLY, BLAZE
and AGE commands (chapter 15). -/
namespace Sys2Proof.Machine

open Sys2Proof

/-! ### Slice calibration (R379 to R381) -/

/-- The slice of a state calibrated longest ago, ties to the lower number, with its index. -/
def oldestIn (st : SliceSt) (c : Chan) : Option Nat :=
  let xs := (List.range c.slices.length).filter fun i =>
    match c.slices[i]? with | some x => decide (x.st = st) | none => false
  let age (i : Nat) : Nat := match c.slices[i]? with | some x => x.last.toNat | none => 0
  xs.find? fun i => xs.all fun j => decide (age i ≤ age j)

/-- An active slice found failed. -/
def failedIn (c : Chan) : Option Nat :=
  (List.range c.slices.length).find? fun i =>
    match c.slices[i]? with | some x => x.failed && decide (x.st = .active) | none => false

def rotOf (conv : Conv) (s : State) : BitVec 2 := match conv with | .adc => s.cal.adcRot | .dac => s.cal.dacRot

def advanceRot (conv : Conv) (s : State) : State :=
  match conv with
  | .adc => { s with cal := { s.cal with adcRot := s.cal.adcRot + 1 } }
  | .dac => { s with cal := { s.cal with dacRot := s.cal.dacRot + 1 } }

def swapOf (conv : Conv) (s : State) : Option Swap := match conv with | .adc => s.cal.adcSwap | .dac => s.cal.dacSwap

def putSwap (conv : Conv) (w : Option Swap) (s : State) : State :=
  match conv with
  | .adc => { s with cal := { s.cal with adcSwap := w } }
  | .dac => { s with cal := { s.cal with dacSwap := w } }

def inCal (conv : Conv) (s : State) : Option (BitVec 2 × Nat × Sf) :=
  match conv with | .adc => s.cal.adcCal | .dac => s.cal.dacCal

def putCal (conv : Conv) (c : Option (BitVec 2 × Nat × Sf)) (s : State) : State :=
  match conv with
  | .adc => { s with cal := { s.cal with adcCal := c } }
  | .dac => { s with cal := { s.cal with dacCal := c } }

def redoOf (conv : Conv) (s : State) : Bool := match conv with | .adc => s.cal.adcRedo | .dac => s.cal.dacRedo

def putRedo (conv : Conv) (b : Bool) (s : State) : State :=
  match conv with
  | .adc => { s with cal := { s.cal with adcRedo := b } }
  | .dac => { s with cal := { s.cal with dacRedo := b } }

/-- The slice the host has asked for on a channel (R402). -/
def askedFor (conv : Conv) (ch : BitVec 2) (s : State) : Option Nat :=
  (s.cal.asked.find? fun a => decide (a.1 = conv) && decide (a.2.1 = ch)).map fun a => a.2.2

def dropAsked (conv : Conv) (ch : BitVec 2) (i : Nat) (s : State) : State :=
  { s with cal := { s.cal with asked := s.cal.asked.filter fun a => decide (a ≠ (conv, ch, i)) } }

/-- The swap of a channel's slot: a failed slice first, then one the host asked for, then the ACTIVE slice calibrated
longest ago; a SPARE one the host asked for is calibrated without a swap. -/
def chooseSwap (conv : Conv) (ch : BitVec 2) (s : State) : Option Swap :=
  let c := chanOf conv ch s
  match oldestIn .spare c with
  | none => none
  | some sp =>
    let slot := s.time.lts.sf
    match failedIn c with
    | some i => some ⟨ch, i, some sp, slot⟩
    | none =>
      match askedFor conv ch s with
      | some i =>
        match c.slices[i]? with
        | some x =>
          if x.st = .active then some ⟨ch, i, some sp, slot⟩
          else if x.st = .spare then some ⟨ch, i, none, slot⟩
          else (oldestIn .active c).map fun i => ⟨ch, i, some sp, slot⟩
        | none => (oldestIn .active c).map fun i => ⟨ch, i, some sp, slot⟩
      | none => (oldestIn .active c).map fun i => ⟨ch, i, some sp, slot⟩

/-- R379, R381: one converter's part of a slot. -/
def openSlot (conv : Conv) (s : State) : State :=
  let ch := rotOf conv s
  match inCal conv s with
  | some (c, i, _) =>
    if redoOf conv s ∧ c = ch then
      advanceRot conv (putRedo conv false (putCal conv (some (c, i, s.time.lts.sf)) s))
    else
      match chooseSwap conv ch s with
      | some w => if redoOf conv s then advanceRot conv s else putSwap conv (some w) s
      | none => advanceRot conv s
  | none =>
    match chooseSwap conv ch s with
    | some w => putSwap conv (some w) s
    | none => advanceRot conv s

/-- R380: a swap that its slot did not bring is skipped: the tally counts, and the rotation stands. -/
def skipSlot (conv : Conv) (s : State) : State :=
  let s1 := putSwap conv none s
  match conv with
  | .adc => { s1 with cal := { s1.cal with adcSkipped := s1.cal.adcSkipped + 1 } }
  | .dac => { s1 with cal := { s1.cal with dacSkipped := s1.cal.dacSkipped + 1 } }

/-- R379, R380: one converter's part of a new slot, after a swap that still waits from the slot before. -/
def nextSlot (conv : Conv) (s : State) : State :=
  openSlot conv (if (swapOf conv s).isSome then skipSlot conv s else s)

/-- CAL_SLOT_OPEN: at each superframe boundary whose count is a multiple of 1,024, above no coppicing level from C2 on. -/
def execCalSlotOpen (s : State) : Out :=
  let sf := s.time.lts.sf
  .next (if ticking s && !taskHeld .calibration s && inRun s && decide (s.pwr.shed < 2) && decide (sf.toNat % 1024 = 0) &&
      decide (s.cal.lastSlot ≠ sf) then
    nextSlot .dac (nextSlot .adc { s with cal := { s.cal with lastSlot := sf } })
  else s)

/-- R28, R186: a swap is deferred. -/
def swapDeferred (conv : Conv) (s : State) : Bool :=
  decide (s.hs.capSt = 1) || (decide (1 ≤ s.eq.st) && decide (s.eq.st ≤ 7)) || stepMarks s.time.lts.sf s
    || match conv with
      | .adc => false
      | .dac => !s.line.txChain || s.tx.restart.isSome || decide (s.tx.st ≠ .lit)

/-- A channel after a swap: the incoming slice takes the target's position, the target enters CALIB (R136). -/
def swapSlices (w : Swap) (sf : Sf) (c : Chan) : Chan :=
  let pos := match c.slices[w.target]? with | some x => x.pos | none => 0
  let failed := match c.slices[w.target]? with | some x => x.failed | none => false
  let c1 := match w.incoming with
    | some i => { c with slices := modAt c.slices i fun x => { x with st := .active, pos := pos } }
    | none => c
  { c1 with slices := modAt c1.slices w.target fun x => { x with st := .calib },
            lastSwap := if w.incoming.isSome then sf else c.lastSwap,
            substituted := if failed then false else c.substituted }

/-- SLICE_SWAP: at a superframe boundary of the slot's first half at which nothing defers it. -/
def execSliceSwap (conv : Conv) (s : State) : Out :=
  .next (match swapOf conv s with
  | none => s
  | some w =>
    if ticking s && decide (s.time.lts.sym = 0) && decide (sfSince w.slot s ≤ 511) && !swapDeferred conv s &&
        decide (s.pwr.shed < 2) then
      let sf := s.time.lts.sf
      let s1 := setChan conv w.ch (swapSlices w sf (chanOf conv w.ch s)) s
      let s2 := putCal conv (some (w.ch, w.target, sf)) (putSwap conv none (dropAsked conv w.ch w.target s1))
      let s3 := advanceRot conv s2
      { s3 with health := { s3.health with swaps := s3.health.swaps + (if w.incoming.isSome then 1 else 0) } }
    else s)

/-- SWAP_SLOT_SKIP: a swap that has not taken place by boundary S + 511 (R380). -/
def execSwapSlotSkip (conv : Conv) (s : State) : Out :=
  .next (match swapOf conv s with
  | none => s
  | some w =>
    if ticking s && decide (511 < sfSince w.slot s) then skipSlot conv s else s)

/-- CAL_STALE (R404). -/
def staleNote (dom item : Nat) (set : Bool) (s : State) : State :=
  if s.cal.notify.getD dom false then
    notify 0x0C01 (BitVec.ofNat 16 dom) (some set) (ev [fld 20 2 item]) s
  else s

def convDom (conv : Conv) : Nat := match conv with | .adc => 0 | .dac => 1

def convSlices (conv : Conv) : Nat := match conv with | .adc => 68 | .dac => 34

/-- What a calibration finds of a slice (R135): offset in 1/64 LSB, gain in ppm, skew in units of 10 fs, noise in 0.01 dB. -/
structure SliceFound where
  offset : Int
  gain : Int
  skew : Int
  noise : Int
  deriving DecidableEq, Repr

/-- R135: the ranges of the corrections: ±8 LSB, ±6 %, ±1.5 ps. -/
def inRange (v : SliceFound) : Bool :=
  decide (v.offset.natAbs ≤ 512) && decide (v.gain.natAbs ≤ 60000) && decide (v.skew.natAbs ≤ 150)

/-- R135: the median of the noise of a channel's slices that are not retired, the lower of two middle ones (DESIGN CHOICE, log
entry 40). -/
def medianNoise (c : Chan) : Int :=
  let l := (c.slices.filter fun x => decide (x.st ≠ .retired)).map (·.noise)
  (l.mergeSort (fun a b => decide (a ≤ b))).getD ((l.length - 1) / 2) 0

/-- R135: a slice after a calibration: its corrections, held within their ranges; retired after three in a row with a correction out of
range, or with noise more than 3 dB above the channel median. -/
def sliceCalibrated (v : SliceFound) (median : Int) (sf : Sf) (x : Slice) : Slice :=
  let r := if inRange v then 0 else x.rangeRun + 1
  let n := if median + 300 < v.noise then x.noiseRun + 1 else 0
  { x with st := if 3 ≤ r ∨ 3 ≤ n then .retired else .spare, count := x.count + 1, last := sf, stale := false,
           rangeRun := r, noiseRun := n, failed := false, offset := clampInt (-512) 512 v.offset,
           gain := clampInt (-60000) 60000 v.gain, skew := clampInt (-150) 150 v.skew, noise := v.noise }

/-- R136: the corrections in effect on a logical position of a channel. -/
def positionCorrection (c : Chan) (pos : Nat) : Option (Int × Int × Int) :=
  (c.slices.find? fun x => decide (x.st = .active) && decide (x.pos = pos)).map fun x => (x.offset, x.gain, x.skew)

/-- SLICE_CAL_DONE: after 256 superframes in CALIB (R379). -/
def execSliceCalDone (conv : Conv) (offset gain skew noise : Int) (s : State) : Out :=
  .next (match inCal conv s with
  | none => s
  | some (ch, i, from_) =>
    if ticking s && !taskHeld .calibration s && !redoOf conv s && decide (s.pwr.shed < 2) && decide (256 ≤ sfSince from_ s) then
      let c := chanOf conv ch s
      let was := match c.slices[i]? with | some x => x.stale | none => false
      let c1 := { c with slices := modAt c.slices i (sliceCalibrated ⟨offset, gain, skew, noise⟩ (medianNoise c) s.time.lts.sf) }
      let s1 := putCal conv none (setChan conv ch c1 s)
      let s2 := if was then staleNote (convDom conv) (ch.toNat * convSlices conv + i) false s1 else s1
      match c1.slices[i]? with
      | some x =>
        if x.st = .retired then
          sliceEvent conv ch i (sparesOf c1) c1.substituted
            (logEntry 8 (BitVec.ofNat 16 (0x0C00 + convDom conv)) none [BitVec.ofNat 8 ch.toNat, BitVec.ofNat 8 i] s2)
        else s2
      | none => s2
    else s)

/-- R370, R381: at C2 swaps stop at once; a slice in CALIB is calibrated again once the level clears. -/
def stopSwaps (s : State) : State :=
  { s with cal := { s.cal with
      adcSwap := none, dacSwap := none, adcRedo := s.cal.adcRedo || s.cal.adcCal.isSome,
      dacRedo := s.cal.dacRedo || s.cal.dacCal.isSome } }

/-! ### Items of the other domains (R377, R378) -/

/-- R377: items of a domain. -/
def domItems (dom : Nat) : Nat :=
  match dom with
  | 0 => 272 | 1 => 136 | 2 => 2 | 3 => 4 | 4 => 32 | 5 => 1 | _ => 0

/-- R377: a domain's cycle in superframes, of domains 0 to 4. -/
def domCycle (dom : Nat) : Nat :=
  match dom with
  | 0 => 278528 | 1 => 139264 | 2 => 16384 | 3 => 16384 | _ => 1024

/-- An item's count, last calibration and stale flag. -/
def itemOf (dom item : Nat) (s : State) : CalItem :=
  if dom ≤ 1 then
    let conv : Conv := if dom = 0 then .adc else .dac
    let n := convSlices conv
    match (chanOf conv (BitVec.ofNat 2 (item / n)) s).slices[item % n]? with
    | some x => ⟨x.count, x.last, x.stale⟩
    | none => {}
  else (s.cal.items.getD (dom - 2) []).getD item {}

def modItem (dom item : Nat) (f : CalItem → CalItem) (s : State) : State :=
  if dom ≤ 1 then
    let conv : Conv := if dom = 0 then .adc else .dac
    let n := convSlices conv
    let ch := BitVec.ofNat 2 (item / n)
    let c := chanOf conv ch s
    setChan conv ch { c with slices := modAt c.slices (item % n) fun x =>
      let y := f ⟨x.count, x.last, x.stale⟩
      { x with count := y.count, last := y.last, stale := y.stale } } s
  else { s with cal := { s.cal with items := modAt s.cal.items (dom - 2) fun l => modAt l item f } }

/-- R378: an item's last calibration is older than `n` cycles of its domain; the cycle of domain 5 is 24 h of the warden's clock. -/
def itemOlder (dom item n : Nat) (s : State) : Bool :=
  if dom = 5 then decide (s.ref.calAt + n * 86400000000000 < s.time.wardenNs)
  else decide (n * domCycle dom < sfSince (itemOf dom item s).last s)

/-- An item's calibration completes: it counts, and a stale flag clears (R378). -/
def itemDone (dom item : Nat) (s : State) : State :=
  let was := (itemOf dom item s).stale
  let s0 := if dom = 5 then { s with ref := { s.ref with calAt := s.time.wardenNs, calSum := 0, calTime := 0 } } else s
  let s1 := modItem dom item (fun x => ⟨x.count + 1, s.time.lts.sf, false⟩) s0
  if was then staleNote dom item false s1 else s1

/-- CALIBRATION_STALE: an item's last calibration is older than STALE cycles. -/
def execCalibrationStale (dom : Byte) (item : Half) (s : State) : Out :=
  if domItems dom.toNat ≤ item.toNat then .fault .noSuchPart
  else
    let d := dom.toNat
    let i := item.toNat
    let x := itemOf d i s
    let n := s.cal.stale.getD d 0
    .next (if ticking s && decide (n ≠ 0) && !x.stale && itemOlder d i n s then
      staleNote d i true (modItem d i (fun x => { x with stale := true }) s)
    else s)

/-- R378: a first calibration pass counts as a completed calibration of every item. -/
def allCalibrated (s : State) : State :=
  (List.range 6).foldl (fun s d => (List.range (domItems d)).foldl (fun s i => itemDone d i s) s) s

/-- R377, domain 4: a channel's offset and gain as its calibration finds them, within the ranges of R384; the values are
free. -/
def monTrim (ch : Nat) (s : State) : State :=
  { s with mon := { s.mon with chans := modAt s.mon.chans ch fun c =>
      if c.override then c
      else { c with offset := (free (2 * ch) s % 1024 : Nat) - (512 : Int), gain := 16384 + free (2 * ch + 1) s % 32769 } } }

/-- R182, R377, domain 3: the transmitter's analogue corrections as its calibration finds them, within their ranges; the values are
free. -/
def txTrim (s : State) : State :=
  let within (n k : Nat) : Int := (free k s % (2 * n + 1) : Nat) - (n : Int)
  drawMany 140 { s with tx := { s.tx with
    fir := (List.range 4).map fun c => (List.range 33).map fun i => (BitVec.ofNat 16 (free (33 * c + i) s)).toInt,
    skew := (List.range 4).map fun c => within 1000 (132 + c),
    iqGain := [within 100 136, within 100 137], iqPhase := [within 500 138, within 500 139] } }

/-- R377: the in-service calibrations that complete when their task runs: the monitor converter every cycle, the receiver
in TRACK and the transmitter in LIT every 16,384 superframes. -/
def inServiceCal (s : State) : State :=
  let due (d : Nat) (s : State) : Bool := decide (domCycle d ≤ sfSince (itemOf d 0 s).last s)
  let whole (d : Nat) (s : State) : State := (List.range (domItems d)).foldl (fun s i => itemDone d i s) s
  let s1 := if due 4 s then drawMany 64 ((List.range 32).foldl (fun s i => monTrim i s) (whole 4 s)) else s
  let s2 := if s.eq.st = 8 && due 2 s1 then whole 2 s1 else s1
  if s.tx.st = .lit && due 3 s2 then txTrim (whole 3 s2) else s2

/-- R377: the mean offset of the selected input, in ppt, since it was LOCKED or the last update. -/
def calMean (s : State) : Int := s.ref.calSum / (s.ref.calTime : Int)

/-- RESONATOR_CAL_UPDATE: after a day with REFA or REFB selected and LOCKED, the calibrated frequency moves towards the
input's mean offset, by at most 0.1 ppm (R377). -/
def execResonatorCalUpdate (input : Byte) (s : State) : Out :=
  if 2 ≤ input.toNat then .fault .noSuchPart
  else
    .next (if ticking s && decide (s.ref.sel = some input.toNat) && decide (s.ref.clk = .locked) &&
        wardenPassed s.ref.lockedFrom 86400 s && wardenPassed s.ref.calAt 86400 s && !taskHeld .calibration s then
      itemDone 5 0 { s with ref := { s.ref with calFreq := s.ref.calFreq + clampInt (-100000) 100000 (calMean s) } }
    else s)

/-! ### The monitor converter (R382 to R386) -/

/-- R384: the corrected code of a raw one. -/
def monCode (c : MonCh) (raw : Nat) (over_ : Bool) : Nat :=
  if over_ then 0xFFF
  else
    let x := ((raw : Int) - c.offset) * c.gain
    (max 0 (min 0xFFF ((x + 16384) / 32768))).toNat

/-- R386: the 16 bytes of a result. -/
def monResult (ch : Nat) (c : MonCh) (code : Nat) (over_ settle : Bool) (s : State) : List Byte :=
  let t := nowLts s
  leBytes 4 (boolBit over_ 31 + boolBit settle 30 + c.ref * 2 ^ 28 + c.range * 2 ^ 26 + ch * 2 ^ 21 + code)
    ++ leBytes 6 t.sf.toNat ++ leBytes 3 t.sym.toNat ++ [0, 0, 0]

/-- R385: the next channel of a mask after the one converted last; none of an empty mask. -/
def nextMasked (mask : Word) (pos : Nat) : Option Nat :=
  ((List.range 32).map fun k => (pos + 1 + k) % 32).find? fun k => mask.getLsbD k

/-- R385: the channel of the host's next conversion with the scan's new position; none when the host's turn lapses. -/
def hostNext (m : Mon) : Option Nat × Mon :=
  if m.legacy then
    if 0 < m.tableWait then (none, { m with tableWait := m.tableWait - 2 })
    else
      match m.table[m.tablePos]? with
      | none => (none, m)
      | some e =>
        if m.tableRep + 1 < e.2.1 then (some e.1, { m with tableRep := m.tableRep + 1 })
        else (some e.1, { m with tableRep := 0, tableWait := e.2.2, tablePos := (m.tablePos + 1) % m.table.length })
  else
    match nextMasked m.mask m.hostPos with
    | some k => (some k, { m with hostPos := k })
    | none => (none, m)

/-- R382, R395: a valid reading of the core delay monitor: the least of the day, and the last. -/
def slackRead (code : Nat) (h : Health) : Health :=
  let x : Int := (code : Int) - 2048
  { h with slack := some (match h.slack with | some y => min x y | none => x), slackNow := some x }

/-- The code of a channel's latest result (R386). -/
def monLatest (ch : Nat) (s : State) : Nat := fieldAt (s.mon.latest.getD ch []) 0 4 % 4096

/-- A conversion of a channel: its result is the channel's latest, and the host's go to the FIFO (R383 to R385). -/
def monConvert (ch raw : Nat) (over_ host : Bool) (s : State) : State :=
  let m := s.mon
  let c := m.chans.getD ch {}
  let wait := if c.ref = m.lastRef then m.refWait else 500
  let settle := m.settleNext || decide (0 < wait) || decide (0 < c.settle)
  let r := monResult ch c (monCode c raw over_) over_ settle s
  let full := decide (1024 ≤ m.fifo.length)
  let h := if ch = 29 ∧ over_ = false ∧ settle = false then slackRead (monCode c raw over_) s.health else s.health
  { s with
    mon := { m with
      chans := modAt m.chans ch fun c => { c with settle := c.settle - 1 }, latest := setAt m.latest ch r,
      lastRef := c.ref, refWait := wait - 1, settleNext := over_,
      fifo := if host && !full then m.fifo ++ [r] else m.fifo, overflow := m.overflow || (host && full) },
    health := h }

/-- MON_CONVERSION: even conversions serve the system scan, odd ones the host (R385). -/
def execMonConversion (raw : Nat) (overRange : Bool) (s : State) : Out :=
  .next (if s.dbg.frozen || !s.pwr.powered.getLsbD 1 then s
  else
    let turn := s.mon.hostTurn
    let s1 := { s with mon := { s.mon with hostTurn := !turn } }
    if turn then
      let r := hostNext s1.mon
      match r.1 with
      | some ch => monConvert ch raw overRange true { s1 with mon := r.2 }
      | none => { s1 with mon := r.2 }
    else
      let ch := s.mon.sysPos
      monConvert ch raw overRange false { s1 with mon := { s1.mon with sysPos := (ch + 1) % 32 } })

/-! ### Tallies (R387 to R390) -/

inductive TallyKind where
  | count | seconds | gauge
  deriving DecidableEq, Repr

/-- R388. -/
def tallyKind (id : Nat) : TallyKind :=
  if id = 0x0402 ∨ id = 0x0403 ∨ id = 0x0501 ∨ id = 0x0604 ∨ id = 0x0C01 then .gauge
  else if (0x0710 ≤ id ∧ id ≤ 0x0717) ∨ id = 0x0A01 then .seconds
  else .count

/-- Skipped periods of the tasks of an engine (R107, R380), saturating (R108). -/
def skippedOf (e : Nat) (s : State) : Nat :=
  let t := (s.sedge.tasks.filter fun t => taskServed e t.task).foldl (fun a t => a + t.skipped.toNat) 0
  let c := if 20 ≤ e ∧ e ≤ 27 then s.cal.adcSkipped else if 28 ≤ e ∧ e ≤ 31 then s.cal.dacSkipped else 0
  sat32 (t + c)

/-- The block counter behind a COUNT tally. -/
def blockCount (id : Nat) (s : State) : Nat :=
  if id = 0x0401 then s.eq.slipTotal
  else if id = 0x0601 then s.fec.totCw
  else if id = 0x0602 then s.fec.totCorr
  else if id = 0x0603 then s.fec.totUnc
  else if id = 0x0C02 then s.health.swaps
  else if 0x0C40 ≤ id then skippedOf (id - 0x0C40) s
  else if 0x0900 ≤ id then
    (match s.hl.ports.find? fun p => decide (p.num + 0x0900 = id) with | some p => p.errTotal | none => 0)
  else
    (match s.tribs.find? fun t => decide (t.tid.toNat + 0x0800 = id) with | some t => t.failTotal | none => 0)

/-- Whether the condition of a SECONDS tally holds. -/
def secondsHold (id : Nat) (s : State) : Bool :=
  if id = 0x0A01 then decide (s.ref.clk = .freerun) || decide (s.ref.clk = .holdover)
  else (lineDefects s).testBit (id - 0x0710)

/-- The sample of a GAUGE tally, none when there is none. The laser current is that of MC15, whose code counts in 0.1 mA (R382). -/
def gaugeSample (id : Nat) (s : State) : Option Int :=
  if id = 0x0402 then (if s.eq.st = 8 then some (min s.eq.est.snrX s.eq.est.snrY : Nat) else none)
  else if id = 0x0403 then some s.fe.power
  else if id = 0x0501 then (if s.tx.st = .lit then some (monLatest 15 s : Nat) else none)
  else if id = 0x0604 then
    (if s.fec.estValid then some (fecMargin s.fec.estOf.1 s.fec.estOf.2 (berThreshold ((ovhNow s).getD 3))) else none)
  else some s.pins.caseTemp

/-- A COUNT or SECONDS bin takes an amount, saturating at 32 bits. -/
def binAdd (n : Nat) (b : Bin) : Bin := { b with value := sat32 (b.value + n) }

/-- A GAUGE bin takes a sample. -/
def binSample (x : Int) (b : Bin) : Bin :=
  { b with sum := b.sum + x, min := if b.samples = 0 then x else min b.min x,
           max := if b.samples = 0 then x else max b.max x, samples := sat32 (b.samples + 1) }

/-- One tally at the end of a superframe (R387). -/
def tallyGather (s : State) (t : Tally) : Tally :=
  match tallyKind t.id with
  | .count =>
    let now := blockCount t.id s
    let d := if t.seen ≤ now then now - t.seen else now
    let c := t.cum + d
    { t with cum := if 0x0C40 ≤ t.id then sat32 c else c % 2 ^ 64, seen := now, cur15 := binAdd d t.cur15,
             cur24 := binAdd d t.cur24 }
  | .seconds =>
    if secondsHold t.id s then { t with cur15 := binAdd 1 t.cur15, cur24 := binAdd 1 t.cur24 } else t
  | .gauge =>
    match gaugeSample t.id s with
    | some x => { t with cur15 := binSample x t.cur15, cur24 := binSample x t.cur24 }
    | none => t

/-- TALLY_GATHER: once at each superframe boundary, for the superframe just ended (R97, R387), but not at level C2 or deeper (R29,
R389) nor while the engines that gather are halted (R26). -/
def gatherTallies (s : State) : State :=
  if decide (2 ≤ s.pwr.shed) || taskHeld .tallies s || decide (s.health.gathered = some s.time.lts.sf) then s
  else { s with health := { s.health with
    tallies := s.health.tallies.map (tallyGather s), gathered := some s.time.lts.sf } }

/-- The causes that hold across a boundary: gathering stopped (R99). -/
def standingCauses (s : State) : Nat := if 2 ≤ s.pwr.shed then 16 else 0

/-- A tally's 15-minute bin closes. -/
def close15 (cause : Nat) (sf : Sf) (t : Tally) : Tally :=
  { t with prev15 := ({ t.cur15 with incomplete := cause } :: t.prev15).take 96, cur15 := { start := sf } }

def close24 (cause : Nat) (sf : Sf) (t : Tally) : Tally :=
  { t with prev24 := ({ t.cur24 with incomplete := cause } :: t.prev24).take 7, cur24 := { start := sf } }

/-- TALLY_INTERVAL (R404). -/
def intervalNote (day : Bool) (invalid : Bool) (cause : Nat) (start : Sf) (s : State) : State :=
  notify 0x0C03 (if day then 1 else 0) none
    (ev [fld 20 1 (boolBit invalid 0 + boolBit (decide (cause ≠ 0)) 1), fld 24 6 start.toNat]) s

/-- A bin's superframe and the present one lie in different intervals (R98). -/
def intervalOver (secs : Nat) (start : Sf) (s : State) : Bool :=
  atBoundary s && decide (intervalOf secs (Lts.boundary start) s ≠ intervalOf secs s.time.lts s)

/-- The 15-minute bins close and new ones start at superframe `sf`. -/
def closeQuarter (sf : Sf) (s : State) : State :=
  let h := s.health
  intervalNote false (h.tallies.any fun t => t.cur15.invalid) h.cause15 h.start15 { s with health := { h with
    tallies := h.tallies.map (close15 h.cause15 sf), cause15 := standingCauses s, start15 := sf } }

/-- The 24-hour bins close and new ones start; the ageing monitor has a day to record (R394). -/
def closeDay (sf : Sf) (s : State) : State :=
  let h := s.health
  intervalNote true (h.tallies.any fun t => t.cur24.invalid) h.cause24 h.start24 { s with health := { h with
    tallies := h.tallies.map (close24 h.cause24 sf), lastCause24 := h.cause24, cause24 := standingCauses s,
    start24 := sf, dayDue := true } }

/-- INTERVAL_BOUNDARY: at the first superframe start at or after a boundary of time of day, after the superframe that ended there
has been gathered (R97, R98, R389). -/
def execIntervalBoundary (day : Bool) (s : State) : Out :=
  let sf := s.time.lts.sf
  .next (if day then (if intervalOver 86400 s.health.start24 s then closeDay sf (gatherTallies s) else s)
  else if intervalOver 900 s.health.start15 s then closeQuarter sf (gatherTallies s)
  else s)

/-! ### Blazes (R392) -/

/-- A record goes to the ring of 4,096. -/
def blazePut (bs : List Byte) (s : State) : State :=
  let n := s.health.blazeNext
  { s with health := { s.health with
      blazes := ((n, padTo 64 bs) :: s.health.blazes).take 4096, blazeNext := n + 1 } }

/-- R392: the sampling period that runs now, counted from 1. -/
def blazePeriodNow (s : State) : Nat := s.time.lts.sf.toNat / s.health.blazePeriod + 1

/-- R392: a codeword pick, at most one in a period and only while aligned; a mismatch is a codeword delivered as corrected whose inner
syndrome is not zero. -/
def blazeCodeword (bs : List Byte) (mismatch : Bool) (s : State) : State :=
  if s.health.blazeKinds.testBit 0 ∧ s.fec.st = 2 ∧ s.health.blazeCw ≠ blazePeriodNow s then
    let n := s.health.blazeNext
    let s1 := blazePut bs { s with health := { s.health with blazeCw := blazePeriodNow s } }
    if mismatch then notify 0x0C04 noInstance none (ev [fld 20 4 n]) (freezeTrip .blazeMismatch s1) else s1
  else s

/-- R392: an instruction pick, at most one in a period. -/
def blazeInstr (bs : List Byte) (s : State) : State :=
  if s.health.blazeKinds.testBit 1 ∧ s.health.blazeIns ≠ blazePeriodNow s then
    blazePut bs { s with health := { s.health with blazeIns := blazePeriodNow s } }
  else s

/-- BLAZE_SAMPLE: a codeword pick and an instruction pick (R392). -/
def execBlazeSample (cw : Option (List Byte × Bool)) (ins : Option (List Byte)) (s : State) : Out :=
  .next (if ticking s && decide (s.health.blazePeriod ≠ 0) && decide (s.pwr.shed < 3) && inRun s then
    let s1 := match cw with | some x => blazeCodeword x.1 x.2 s | none => s
    match ins with | some bs => blazeInstr bs s1 | none => s1
  else s)

/-! ### The ageing monitor (R393 to R396) -/

/-- R393: the monitor can run. -/
def ageRuns (s : State) : Bool := inRun s && !s.dbg.frozen && decide (s.pwr.shed < 3)

/-- R393: AON_TIMER ticks since the monitor last counted, or since it paused. -/
def ageTicks (s : State) : Nat := (extTimer s + 2 ^ 48 - s.aon.ageTimer) % 2 ^ 48

/-- R393: equivalent age of AON_TIMER ticks at a temperature, in 2^-32 s. -/
def ageOver (ticks : Nat) (temp : Int) : Nat := ticks * Config.ageFactor temp / 32768

/-- R393: a pause counts the part of a second that has run, and notes AON_TIMER and the last case temperature. -/
def agePause (scan : Bool) (s : State) : State :=
  if s.health.agePaused then { s with health := { s.health with ageScan := s.health.ageScan && scan } }
  else
    { s with
      health := { s.health with
        agePaused := true, ageScan := scan, age := s.health.age + ageOver (ageTicks s) s.pins.caseTemp },
      aon := { s.aon with ageTimer := extTimer s, ageTemp := s.pins.caseTemp } }

/-- AGE_ACCRUE: the whole seconds of wall time since the last count, at a mean case temperature; after a pause the whole paused
interval, at the mean of the interval where the system scan ran throughout it, else at the last temperature before it. -/
def execAgeAccrue (temp : Int) (s : State) : Out :=
  .next (if ageRuns s then
    if s.health.agePaused then
      { s with
        health := { s.health with
          age := s.health.age + ageOver (ageTicks s) (if s.health.ageScan then temp else s.aon.ageTemp),
          agePaused := false, ageScan := false },
        aon := { s.aon with ageTimer := extTimer s } }
    else
      let n := ageTicks s / 32768
      { s with
        health := { s.health with age := s.health.age + n * Config.ageFactor temp },
        aon := { s.aon with ageTimer := (s.aon.ageTimer + n * 32768) % 2 ^ 48 } }
  else agePause (decide (s.pwr.phase = .steady .sleep) || (inRun s && !s.dbg.frozen)) s)

/-- The last 365 complete points of a metric as (equivalent seconds, value). -/
def fitPoints (k : Nat) (s : State) : List (Int × Int) :=
  ((s.health.points.filter fun p => p.2.2).take 365).map fun p => (((p.1 / 2 ^ 32 : Nat) : Int), p.2.1.getD k 0)

/-- R394: the sums of a least-squares line: n, Σx, Σy, Σxx, Σxy. -/
def fitSums (l : List (Int × Int)) : Int × Int × Int × Int × Int :=
  l.foldl (fun a p => (a.1 + 1, a.2.1 + p.1, a.2.2.1 + p.2, a.2.2.2.1 + p.1 * p.1, a.2.2.2.2 + p.1 * p.2)) (0, 0, 0, 0, 0)

/-- The line's value at `x`, and the `x` at which it reaches a limit, none without enough points or slope. -/
def fitAt (k : Nat) (x : Int) (s : State) : Option Int :=
  let l := fitPoints k s
  let a := fitSums l
  let den := a.1 * a.2.2.2.1 - a.2.1 * a.2.1
  let num := a.1 * a.2.2.2.2 - a.2.1 * a.2.2.1
  if l.length < 30 ∨ den = 0 then none else some ((a.2.2.1 * den + num * (a.1 * x - a.2.1)) / (a.1 * den))

def fitReach (k : Nat) (limit : Int) (s : State) : Option Int :=
  let l := fitPoints k s
  let a := fitSums l
  let den := a.1 * a.2.2.2.1 - a.2.1 * a.2.1
  let num := a.1 * a.2.2.2.2 - a.2.1 * a.2.2.1
  if l.length < 30 ∨ den = 0 ∨ num = 0 then none
  else some ((a.2.1 * num + (a.1 * limit - a.2.2.1) * den) / (a.1 * num))

/-- R394: the mean of a GAUGE tally over the last 24-hour interval, none without samples. -/
def dayMean (id : Nat) (s : State) : Option Int :=
  match s.health.tallies.find? fun t => decide (t.id = id) with
  | none => none
  | some t =>
    match t.prev24 with
    | b :: _ => if b.samples = 0 then none else some (b.sum / (b.samples : Int))
    | [] => none

/-- R137, R187, R394: the spares of a channel; one less than none where the loss of a slice is made up by substitution. -/
def spareMargin (c : Chan) : Int := if c.substituted then -1 else (sparesOf c : Nat)

/-- R394: the least spare margin of the converters' channels. -/
def leastMargin (s : State) : Int :=
  ((List.range 8).map fun i => spareMargin (chanOf (if i < 4 then .adc else .dac) (BitVec.ofNat 2 i) s)).foldl min 68

/-- R394: the value of a metric, none when the day gives none: 0.01 dB, 0.1 mA, the code of MC14, the largest distance of MC19 to MC24
from the middle of their range in codes, spares, ps, ppb, blocks (DESIGN CHOICE, log entry 29). -/
def metricNow (k : Nat) (s : State) : Option Int :=
  match k with
  | 0 => dayMean 0x0604 s
  | 1 => dayMean 0x0501 s
  | 2 => some (monLatest 14 s : Nat)
  | 3 => some (((List.range 6).map fun i => ((monLatest (19 + i) s : Int) - 2048).natAbs).foldl max 0 : Nat)
  | 4 => some (leastMargin s)
  | 5 => s.health.slack.map fun x => x / 2
  | 6 => some (s.ref.calFreq.natAbs / 1000 : Nat)
  | _ => some (s.flash.spare : Nat)

/-- R394: the day's point of a metric; where the day gives no value, the one before stands (DESIGN CHOICE, log entry 29). -/
def metricPoint (s : State) (k : Nat) : Int :=
  (metricNow k s).getD (match s.health.points with | p :: _ => p.2.1.getD k 0 | [] => 0)

/-- R394: the limit of a metric, in the unit of its value: EOL_MARGIN, 130 % of the first value, 90 % of full scale, 80 % of full scale,
no spare, no slack, 15 ppm, the last count below 64. -/
def metricLimit (k : Nat) (s : State) : Int :=
  match k with
  | 0 => s.health.eolMargin
  | 1 => (match s.health.points.getLast? with | some p => p.2.1.getD 1 0 * 130 / 100 | none => 0)
  | 2 => 3686
  | 3 => 1638
  | 4 => 0
  | 5 => 0
  | 6 => 15000
  | _ => 63

/-- R394: a metric that falls towards its limit. -/
def metricFalls (k : Nat) : Bool := decide (k = 0) || decide (k = 4) || decide (k = 5) || decide (k = 7)

/-- R394: the mean AF of the last 30 intervals, in 2^-32; one when there is none. -/
def meanAf (s : State) : Nat :=
  let l := s.health.dayAf.take 30
  if l.isEmpty then 2 ^ 32 else max 1 (l.foldl (· + ·) 0 / l.length)

def ageSeconds (s : State) : Nat := s.health.age / 2 ^ 32

/-- R394: the fitted line has reached the limit of a metric, none without a line. -/
def metricReached (k : Nat) (s : State) : Option Bool :=
  (fitAt k (ageSeconds s) s).map fun v =>
    if metricFalls k then decide (v ≤ metricLimit k s) else decide (metricLimit k s ≤ v)

/-- R394: days from now until a metric reaches its limit, none without a prediction or when the line leads away from it. -/
def daysAhead (k : Nat) (s : State) : Option Nat :=
  match metricReached k s, fitReach k (metricLimit k s) s with
  | some true, _ => some 0
  | some false, some x =>
    if x < ageSeconds s then none else some ((x - ageSeconds s).toNat * 2 ^ 32 / (meanAf s * 86400))
  | _, _ => none

/-- Seconds of the 40-year and the 36-year equivalent age. -/
def ratedSeconds : Nat := 14610 * 86400
def warnSeconds : Nat := 13149 * 86400

/-- AGE_WARN (R404). -/
def ageWarn (metric days : Nat) (s : State) : State :=
  if s.health.ageNotify then
    notify 0x0C02 noInstance none (ev [fld 20 1 metric, fld 24 4 days]) s
  else s

/-- R396: a metric's warning, again with each further year nearer. -/
def warnStep (s : State) (k : Nat) : State :=
  match daysAhead k s with
  | none => s
  | some d =>
    let last := s.health.warned.getD k none
    let due := decide (d * 4 < 5 * 1461) && match last with | none => true | some w => decide (d * 4 + 1461 ≤ w * 4)
    if due then
      ageWarn k d { s with health := { s.health with warned := setAt s.health.warned k (some d) } }
    else s

/-- R395: the offset of the core rail now, in mV: 1 mV per superframe from where it stood towards its step. -/
def coreRail (s : State) : Nat :=
  let goal := 5 * s.health.coreOffset
  let d := sfSince s.health.coreAt s
  if s.health.coreMv ≤ goal then min goal (s.health.coreMv + d) else max goal (s.health.coreMv - d)

/-- R395: the core offset takes another step. -/
def coreStep (n : Nat) (s : State) : State :=
  { s with health := { s.health with coreOffset := n, coreMv := coreRail s, coreAt := s.time.lts.sf } }

/-- R395: the day's guardband step, on the least slack of the day in units of 0.5 ps; without a reading none. -/
def guardband (s : State) : State :=
  match s.health.slack with
  | none => s
  | some x =>
    if x < 80 then
      if s.health.coreOffset < 12 then coreStep (s.health.coreOffset + 1) s
      else { s with health := { s.health with clockMhz := max 800 (s.health.clockMhz - 50) } }
    else if 160 < x ∧ 0 < s.health.coreOffset then coreStep (s.health.coreOffset - 1) s
    else s

/-- R75, R394: a day's points go to AGEING; with fewer than 16 spare blocks the region no longer grows and the oldest goes (log entry
43). -/
def agePoints (s : State) : State :=
  let h := s.health
  let prev := match h.points with | p :: _ => p.1 | [] => 0
  let l := (h.age, (List.range 8).map (metricPoint s), decide (h.lastCause24 = 0)) :: h.points
  { s with
    health := { h with
      points := if s.flash.spare < 16 then l.take (max 1 h.points.length) else l,
      dayAf := (((h.age - prev) / 86400) :: h.dayAf).take 30 },
    flash := dated (flashFirst 6) (extTimer s) s.flash }

/-- AGEING_DAILY: after a 24-hour boundary, the day's points, the predictions and warnings, and the guardband. -/
def execAgeingDaily (s : State) : Out :=
  .next (if ageRuns s && ticking s && s.health.dayDue then
    let s0 := guardband (agePoints s)
    let s1 := { s0 with health := { s0.health with slack := none, emergency := false, dayDue := false } }
    let s2 := (List.range 8).foldl warnStep s1
    if warnSeconds < ageSeconds s2 ∧ s2.health.warned36 = false then
      ageWarn 0xFF ((ratedSeconds - ageSeconds s2) * 2 ^ 32 / (meanAf s2 * 86400))
        { s2 with health := { s2.health with warned36 := true } }
    else s2
  else s)

/-- CORE_SLACK_EMERGENCY: at a superframe boundary, a reading of slack below 10 ps raises the offset, and is logged (R395). -/
def execCoreSlackEmergency (s : State) : Out :=
  .next (match s.health.slackNow with
  | none => s
  | some x =>
    if ageRuns s && atBoundary s && decide (x < 20) && decide (s.health.coreOffset < 12) then
      let n := s.health.coreOffset + 1
      let s1 := coreStep n s
      logEntry 9 0x0C05 none (intBytes 2 (x / 2) ++ [BitVec.ofNat 8 n])
        { s1 with health := { s1.health with slackNow := none, emergency := true } }
    else s)

/-! ### Commands (R402) -/

/-- CAL.STATUS. -/
def execCalStatus (h : Hdr) (dom : Byte) (item : Half) (s : State) : Out :=
  let d := dom.toNat
  let i := item.toNat
  let conv : Conv := if d = 0 then .adc else .dac
  let c := chanOf conv (BitVec.ofNat 2 (i / convSlices conv)) s
  let st := (c.slices[i % convSlices conv]?).map fun x => x.st
  command 0x0C01 h s
    (guarded 0x0C01 h [(decide (domItems d ≤ i), .badArg)] fun s =>
      let x := itemOf d i s
      let flags := boolBit x.stale 0 + boolBit (decide (d ≤ 1) && decide (st = some .calib)) 1
        + boolBit (decide (d ≤ 1) && decide (st = some .retired)) 2
      reply 0x0C01 h
        [fld 16 1 flags, fld 20 4 x.count.toNat, fld 24 6 x.last.toNat, fld 30 1 (s.cal.stale.getD d 0),
         fld 31 1 (if d ≤ 1 then sparesOf c else 0)] s)

/-- CAL.CONFIG. -/
def execCalConfig (h : Hdr) (dom flags stale : Byte) (s : State) : Out :=
  command 0x0C02 h s
    (guarded 0x0C02 h [(decide (5 < dom.toNat) || !reservedClear flags 1, .badArg)] fun s =>
      let n := if stale = 0 then (if dom = 5 then 0 else 4) else stale.toNat
      done 0x0C02 h { s with cal := { s.cal with
        stale := setAt s.cal.stale dom.toNat n, notify := setAt s.cal.notify dom.toNat (bitOf flags 0) } })

/-- R379: the superframe count of the slot that serves a slice of a channel: the channel's next, after those of the slices asked for
before. -/
def nextSlotOf (conv : Conv) (ch : BitVec 2) (s : State) : Nat :=
  let rot := rotOf conv s + (if (swapOf conv s).isSome then 1 else 0)
  let before := (s.cal.asked.filter fun a => decide (a.1 = conv) && decide (a.2.1 = ch)).length
  (s.time.lts.sf.toNat / 1024 + 1 + (ch - rot).toNat + 4 * before) * 1024

/-- CAL.RUN. -/
def execCalRun (h : Hdr) (dom : Byte) (slice_ : Half) (s : State) : Out :=
  let conv : Conv := if dom = 0 then .adc else .dac
  let n := convSlices conv
  let ch := BitVec.ofNat 2 (slice_.toNat / n)
  let c := chanOf conv ch s
  let retired := match c.slices[slice_.toNat % n]? with | some x => decide (x.st = .retired) | none => true
  command 0x0C03 h s
    (guarded 0x0C03 h
      [(decide (1 < dom.toNat) || decide (4 * n ≤ slice_.toNat) || retired, .badArg),
       (decide (2 ≤ s.aon.coppice), .badState), (decide (sparesOf c = 0), .refused)]
      fun s =>
        reply 0x0C03 h [fld 16 6 (nextSlotOf conv ch s)]
          { s with cal := { s.cal with asked := s.cal.asked ++ [(conv, ch, slice_.toNat % n)] } })

/-- MON.CONFIG. -/
def execMonConfig (h : Hdr) (mode : Byte) (mask : Word) (s : State) : Out :=
  command 0x0C10 h s
    (guarded 0x0C10 h [(decide (1 < mode.toNat), .badArg)] fun s =>
      done 0x0C10 h { s with mon := { s.mon with
        legacy := decide (mode = 1), mask := mask, hostPos := 31, tablePos := 0, tableRep := 0, tableWait := 0 } })

/-- MON.CHANNEL. -/
def execMonChannel (h : Hdr) (ch ref range flags : Byte) (offset gain : Half) (s : State) : Out :=
  let over_ := bitOf flags 0
  command 0x0C11 h s
    (guarded 0x0C11 h
      [(decide (31 < ch.toNat) || decide (2 < ref.toNat) || decide (3 < range.toNat) || !reservedClear flags 1, .badArg),
       (decide (range ≠ 0) && decide (ch ≠ 17) && decide (ch ≠ 18), .badArg),
       (over_ && (decide (s16 offset < -512) || decide (511 < s16 offset) || decide (gain.toNat < 16384)
          || decide (49152 < gain.toNat)), .badArg)]
      fun s =>
        done 0x0C11 h { s with mon := { s.mon with
          chans := modAt s.mon.chans ch.toNat fun c =>
            { c with
              ref := ref.toNat, range := range.toNat, override := over_,
              offset := if over_ then s16 offset else c.offset, gain := if over_ then gain.toNat else c.gain,
              settle := if range.toNat = c.range then c.settle else 2 } } })

/-- The entries of the sequence table. -/
def monEntries : Nat → List Byte → List (Nat × Nat × Nat)
  | 0, _ => []
  | n + 1, bs => ((byteAt bs 0).toNat, (byteAt bs 1).toNat + 1, fieldAt bs 2 2) :: monEntries n (bs.drop 4)

/-- MON.TABLE. -/
def execMonTable (h : Hdr) (entries : Byte) (s : State) : Out :=
  let es := monEntries entries.toNat (bufData h s)
  command 0x0C12 h s
    (guarded 0x0C12 h
      [(decide (entries.toNat < 1) || decide (16 < entries.toNat) || !h.buf || decide (h.length.toNat ≠ 4 * entries.toNat)
          || es.any (fun e => decide (31 < e.1)), .badArg)]
      fun s => done 0x0C12 h { s with mon := { s.mon with table := es, tablePos := 0, tableRep := 0, tableWait := 0 } })

/-- MON.READ: one count byte reaches 256 only as 0 (log entry 30). -/
def execMonRead (h : Hdr) (src count : Byte) (s : State) : Out :=
  let n := if count = 0 then 256 else count.toNat
  command 0x0C13 h s
    (guarded 0x0C13 h [(decide (1 < src.toNat) || !h.buf, .badArg)] fun s =>
      if src = 0 then
        respond 0x0C13 h .ok (result [fld 16 1 32, fld 17 1 s.mon.overflow.toNat]) (some (s.mon.latest.flatMap id)) s
      else
        let rs := s.mon.fifo.take n
        respond 0x0C13 h .ok (result [fld 16 1 rs.length, fld 17 1 s.mon.overflow.toNat]) (some (rs.flatMap id))
          { s with mon := { s.mon with fifo := s.mon.fifo.drop n, overflow := false } })

/-- R395, R402: the least slack of the day in ps; on a day without a valid reading so far it is a free value (log entry 8). -/
def slackReport (s : State) : Int := match s.health.slack with | some x => x / 2 | none => (free 0 s : Nat)

/-- AGE.REPORT. -/
def execAgeReport (h : Hdr) (metric : Byte) (s : State) : Out :=
  let k := metric.toNat
  command 0x0C20 h s
    (guarded 0x0C20 h [(decide (7 < k) && decide (metric ≠ 0xFF), .badArg)] fun s =>
      let now := match s.health.points with | p :: _ => p.2.1.getD k 0 | [] => 0
      let at40 := if k ≤ 7 then fitAt k ratedSeconds s else none
      let days := if k ≤ 7 then daysAhead k s else none
      let date := match days with | some d => if 36525 < d then 0xFFFFFFFF else d | none => 0xFFFFFFFF
      reply 0x0C20 h
        [fld 16 4 (ageSeconds s / 86400), fld 20 4 ((ratedSeconds - ageSeconds s) / 86400), fldI 24 2 now,
         fldI 26 2 (at40.getD 0), fld 28 4 date, fld 32 1 at40.isSome.toNat, fld 33 1 s.health.coreOffset,
         fld 34 2 s.health.clockMhz, fldI 36 2 (slackReport s)]
        (if s.health.slack.isNone then nextDraw s else s))

/-- AGE.CONFIG. -/
def execAgeConfig (h : Hdr) (margin : Half) (flags : Byte) (s : State) : Out :=
  command 0x0C21 h s
    (guarded 0x0C21 h [(decide (500 < margin.toNat) || !reservedClear flags 1, .badArg)] fun s =>
      done 0x0C21 h { s with health := { s.health with eolMargin := margin.toNat, ageNotify := bitOf flags 0 } })

def tallyOf (id : Nat) (s : State) : Option Tally := s.health.tallies.find? fun t => decide (t.id = id)

/-- The bin that TALLY.READ names, none when there is none. -/
def binOf (t : Tally) (bin : Nat) : Option Bin :=
  if bin = 0 then some t.cur15
  else if bin ≤ 96 then t.prev15[bin - 1]?
  else if bin = 97 then some t.cur24
  else t.prev24[bin - 98]?

/-- The causes of a bin: those gathered so far for a running one. -/
def binCauses (bin : Nat) (b : Bin) (s : State) : Nat :=
  if bin = 0 then s.health.cause15 else if bin = 97 then s.health.cause24 else b.incomplete

/-- TALLY.READ. -/
def execTallyRead (h : Hdr) (id : Half) (bin : Byte) (s : State) : Out :=
  command 0x0C30 h s
    (match tallyOf id.toNat s with
    | none => refuse 0x0C30 h .badArg
    | some t =>
      if bin = 0xFF then
        if tallyKind t.id = .count then
          reply 0x0C30 h [fld 16 8 t.cum, fld 32 1 t.cumInvalid.toNat]
        else refuse 0x0C30 h .badArg
      else
        match (if bin.toNat ≤ 104 then binOf t bin.toNat else none) with
        | none => refuse 0x0C30 h .badArg
        | some b =>
          let cause := binCauses bin.toNat b s
          let value := if tallyKind t.id = .gauge then fldI 16 8 b.sum else fld 16 8 b.value
          reply 0x0C30 h
            [value, fldI 24 2 b.min, fldI 26 2 b.max, fld 28 4 b.samples,
             fld 32 1 (boolBit b.invalid 0 + boolBit (decide (cause ≠ 0)) 1), fld 33 1 cause, fld 34 6 b.start.toNat])

/-- TALLY.CLEAR: the cumulative count restarts at zero and is valid again (R390). -/
def execTallyClear (h : Hdr) (id : Half) (s : State) : Out :=
  command 0x0C31 h s
    (guarded 0x0C31 h [(decide (id ≠ 0xFFFF) && (tallyOf id.toNat s).isNone, .badArg)] fun s =>
      done 0x0C31 h { s with health := { s.health with
        tallies := s.health.tallies.map fun t =>
          if id = 0xFFFF ∨ t.id = id.toNat then { t with cum := 0, cumInvalid := false } else t } })

/-- BLAZE.CONFIG. -/
def execBlazeConfig (h : Hdr) (period : Half) (flags : Byte) (s : State) : Out :=
  command 0x0C40 h s
    (guarded 0x0C40 h [(!reservedClear flags 3, .badArg)] fun s =>
      done 0x0C40 h { s with health := { s.health with blazePeriod := period.toNat, blazeKinds := flags.toNat, blazeCw := 0, blazeIns := 0 } })

/-- BLAZE.READ; INTEGRITY once after records of the ring have been lost with a page of WORK (R339). -/
def execBlazeRead (h : Hdr) (first : Word) (count : Byte) (s : State) : Out :=
  command 0x0C41 h s
    (guarded 0x0C41 h
      [(decide (count.toNat < 1) || decide (64 < count.toNat) || !h.buf, .badArg),
       (decide (s.health.blazeNext ≤ first.toNat), .badArg)]
      fun s =>
        if s.health.blazeDamaged then
          refuse 0x0C41 h .integrity { s with health := { s.health with blazeDamaged := false } }
        else
        let old := s.health.blazeNext - 4096
        let a := max first.toNat old
        let n := min count.toNat (s.health.blazeNext - a)
        let rec_ (k : Nat) : List Byte :=
          match s.health.blazes.find? fun b => decide (b.1 = k) with
          | some b => b.2
          | none => List.replicate 64 0
        respond 0x0C41 h .ok
          (result [fld 16 4 a, fld 20 1 n, fld 21 1 (decide (first.toNat < old)).toNat])
          (some ((List.range n).flatMap fun i => rec_ (a + i))) s)

end Sys2Proof.Machine
end

