-- ==== Sys2Proof/Machine/Requests.lean ====
section
/-! DEFINITION. Power-state requests (chapter 14): what a PWR.STATE_SET, a wake event or a mode command that enters or leaves
WATCH asks for, how it is held while a transition runs, and how it is answered (R353, R367, R375, R440). -/
namespace Sys2Proof.Machine

open Sys2Proof

/-- R64: STATE_CHANGE. -/
def stateEvent (old new : Nat) (s : State) : State :=
  notify 0x0102 (Config.freeSource 0x0102) none (ev [fld 20 1 old, fld 21 1 new]) s

/-- A steady state is reached from the state of code `old`. -/
def reached (old : Nat) (st : PState) (s : State) : State :=
  let s1 := setPhase (.steady st) s
  stateEvent old (stateCode st) { s1 with pwr := { s1.pwr with lastChange := (nowLts s1).sf } }

/-- R375, R440: the response of a completed PWR.STATE_SET. -/
def pwrReply (r : PwrReq) (code : Nat) (named : Bool) (s : State) : State :=
  match r.hdr with
  | none => s
  | some h => answerLate r.late (reply 0x0201 h [fld 16 1 code, fld 17 1 (boolBit r.wasHeld 0 + boolBit named 1)]) s

/-- A request that is not served completes with a status. -/
def pwrRefuse (r : PwrReq) (st : St) (s : State) : State :=
  match r.hdr with
  | none => s
  | some h => refuse 0x0201 h st s

/-- R367: a transition runs, a mode change included, so that a request is held. -/
def inTransition (s : State) : Bool :=
  (steadyState s).isNone || s.pwr.req.isSome || s.line.change.isSome

/-- R119: a change or a power transition stands in the way of another. -/
def setBlocked (s : State) : Bool := inTransition s

/-- R104: what stands in the way of a mode change whose time had passed at the wake: it runs once line time has resumed, still in
the exit. -/
def wakeBlocked (s : State) : Bool :=
  match s.pwr.phase with
  | .exit _ k => decide (k < 5) || s.line.change.isSome
  | _ => setBlocked s

/-- R367: a request arrives during a transition and replaces the one held. -/
def holdRequest (r : PwrReq) (s : State) : State :=
  let s1 := match s.pwr.heldReq with
    | some old => pwrRefuse old .refused s
    | none => s
  { s1 with pwr := { s1.pwr with heldReq := some { r with wasHeld := true } } }

/-- R358: the boundary at which a request acts: the next superframe boundary, or at once while line time stands. -/
def actsAt (s : State) : Lts := if s.time.running then Lts.boundary (boundaryNow s) else nowLts s

/-- R114, R368: the change of B by which the line enters WATCH. -/
def watchChange (hdr : Option Hdr) (late : Bool) (s : State) : Change :=
  { hdr := hdr, late := late, c := boundaryNow s, new := none, watch := true, sameB := false,
    fresh := s.line.cur.isNone, bundle := [], applied := 0, phase := 0 }

/-- R365, R371: a mode is restored as a mode set from mode 0x00. -/
def restoreChange (m : LMode) (s : State) : Change :=
  { hdr := none, late := false, c := boundaryNow s, new := some m, watch := false, sameB := false, fresh := true,
    bundle := [], applied := 0, phase := 0 }

/-- R353: a request is started from a steady state. -/
def startRequest (r : PwrReq) (s : State) : State :=
  let take (r : PwrReq) (s : State) : State := { s with pwr := { s.pwr with req := some { r with due := actsAt s } } }
  match steadyState s with
  | none => s
  | some st =>
    if st = r.target then pwrReply r (stateCode st) true s
    else
      match st, r.target with
      | .run, .idle => pwrReply r 3 false (reached 4 .idle s)
      | .idle, .run => pwrReply r 4 false (reached 3 .run s)
      | .run, .watch =>
        if 4 ≤ s.aon.coppice then pwrRefuse r .badState s
        else take r { s with line := { s.line with change := some (watchChange none false s) } }
      | .idle, .watch =>
        if 4 ≤ s.aon.coppice then pwrRefuse r .badState s
        else take r { s with line := { s.line with change := some (watchChange none false s) } }
      | .sleep, .idle =>
        take { r with target := .run, hdr := none } { s with pwr := { s.pwr with then_ := some r } }
      | .sleep, .watch =>
        take { r with target := .run, hdr := none } { s with pwr := { s.pwr with then_ := some r } }
      | _, _ => take r s

/-- R353, R367: a power-state request arrives. -/
def powerRequest (r : PwrReq) (s : State) : State :=
  if inTransition s then holdRequest r s else startRequest r s

/-- R119: a deferred mode change is due, which starts before any held request. -/
def deferredSet (s : State) : Bool :=
  s.q.pend.any fun p =>
    match p.cmd with
    | .lineModeSet _ _ _ _ => p.late && p.due.le s.time.lts
    | _ => false

/-- R367: a transition has completed; the held request is evaluated. -/
def serveHeld (s : State) : State :=
  if inTransition s || deferredSet s then s
  else
    match s.pwr.heldReq with
    | none => s
    | some r => startRequest r { s with pwr := { s.pwr with heldReq := none } }

end Sys2Proof.Machine
end

