-- ==== Sys2Proof/Machine/LineModes.lean ====
section
/-! DEFINITION. Line-mode commands, bundled commands and the sequence of a mode change (chapter 4, R114 to R121, R434,
R435), with the chain restarts of R149 and R183. -/
namespace Sys2Proof.Machine

open Sys2Proof

/-! ### Bundled commands (R120) -/

/-- The meaning of a command that LINE.MODE_SET may bundle; none for any other. -/
def bundleExec (i : Instr) (s : State) : Option Out :=
  match i with
  | .txLaser h a b c d => some (execTxLaser h a b c d s)
  | .txEnable h a => some (execTxEnable h a s)
  | .txShaping h a b c d e f => some (execTxShaping h a b c d e f s)
  | .txStatus h => some (execTxStatus h s)
  | .txSafety h a b c => some (execTxSafety h a b c s)
  | .txSlices h a => some (execTxSlices h a s)
  | .tribDefine h a b c d => some (execTribDefine h a b c d s)
  | .tribRemove h a => some (execTribRemove h a s)
  | .tribStatus h a b => some (execTribStatus h a b s)
  | .tfStatus h => some (execTfStatus h s)
  | .keyAssign h a b c => some (execKeyAssign h a b c s)
  | .keyActivate h a => some (execKeyActivate h a s)
  | .ciphTribMode h a b => some (execCiphTribMode h a b s)
  | .hlConfig h a b c d e f g => some (execHlConfig h a b c d e f g s)
  | .hlStatus h => some (execHlStatus h s)
  | .hlLaneStatus h a => some (execHlLaneStatus h a s)
  | .hlPort h a b => some (execHlPort h a b s)
  | .hlPower h a => some (execHlPower h a s)
  | .hlLoopback h a b => some (execHlLoopback h a b s)
  | .hlRetrain h a => some (execHlRetrain h a s)
  | _ => none

/-- A command whose response is not written: its status, and the state it leaves. Responses of other commands that it
completes are written. -/
def unanswered (f : State → Option Out) (s : State) : Nat × State :=
  let s0 := { s with
    q := { s.q with rspWait := [], acting := some false }, hif := { s.hif with rqHead := s.hif.rqTail + 128 } }
  match f s0 with
  | some (.next t) =>
    let own := match t.q.rspWait.getLast? with
      | some r => (byteAt r.2 4).toNat
      | none => 0
    let u := { t with
      q := { t.q with
        rspWait := s.q.rspWait ++ t.q.rspWait.dropLast, acting := s.q.acting,
        pend := t.q.pend.map fun p => if s.q.ord ≤ p.ord then { p with bundled := true } else p },
      hif := { t.hif with rqHead := s.hif.rqHead },
      hl := { t.hl with lp :=
        if s.hl.lp.isSome then t.hl.lp else t.hl.lp.map fun x => (x.1, x.2.1, x.2.2.1, none) } }
    (own, drainResponses 256 u)
  | _ => (0, s)

/-- The 64-byte entries of a bundle. -/
def bundleEntries : Nat → List Byte → List (List Byte)
  | 0, _ => []
  | n + 1, bs => bs.take 64 :: bundleEntries n (bs.drop 64)

/-- R120: a bundled descriptor as a command, none when it may not be bundled. Its tag is ignored, so it answers nothing of its
own and closes no record, QUIET or not. -/
def bundleEntry (q : BitVec 2) (bs : List Byte) (s : State) : Option Instr :=
  let h := { descHdr q bs with quiet := false }
  match decodeDescriptor h bs with
  | .command i => if !h.sched && (bundleExec i s).isSome then some i else none
  | _ => none

/-- R120: every entry is validated in order on the state the entries before it leave: the commands and that state, or the
index and the status of the first that fails. -/
def bundleCheck (q : BitVec 2) : Nat → List (List Byte) → State → Except (Nat × Nat) (List Instr × State)
  | _, [], s => .ok ([], s)
  | k, b :: t, s =>
    match bundleEntry q b s with
    | none => .error (k, (stCode .badArg).toNat)
    | some i =>
      let r := unanswered (bundleExec i) s
      if r.1 ≠ 0 then .error (k, r.1)
      else
        match bundleCheck q (k + 1) t r.2 with
        | .ok x => .ok (i :: x.1, x.2)
        | .error e => .error e

/-- R120: the entries are applied in buffer order. -/
def bundleApply (is : List Instr) (s : State) : State := is.foldl (fun s i => (unanswered (bundleExec i) s).2) s

/-! ### Boundary C (R116, R117, R434) -/

/-- A mode change that stops the chains itself is due or in progress. -/
def ownStop (s : State) : Bool :=
  match s.line.change with
  | some c => !c.sameB && (decide (1 ≤ c.phase) || decide (c.c.toNat ≤ s.time.lts.sf.toNat))
  | none => false

/-- R144, R182, R183: the chain restarts that fall due, unless a mode change of the same boundary does them itself. -/
def finishRestarts (s : State) : State :=
  let due (r : Restart) : Bool := decide (r.c.toNat + 1 ≤ s.time.lts.sf.toNat)
  let s1 := match s.fe.restart with
    | some r =>
      if due r then
        let s0 := { s with fe := { s.fe with restart := none } }
        answerLate r.late (reply 0x0443 r.hdr [fld 16 1 (stagesNow s0)])
          (if s.line.cur.isSome && !s.line.rxChain && !ownStop s then startRx (rateNow s0) 3 s0 else s0)
      else s
    | none => s
  match s1.tx.restart with
  | some r =>
    if due r then
      let s2 := { s1 with tx := { s1.tx with restart := none } }
      answerLate r.late (done 0x0503 r.hdr)
        (if s1.line.cur.isSome && !s1.line.txChain && !ownStop s then txAdvance 9 (txStream (startTx (boundaryNow s2) s2)) else s2)
    else s1
  | none => s1

/-- R116, R209, R223: a change that keeps B: decoder, framer and mapper reset and clients are replaced; the equaliser stays locked and
adapts on pilots only; codewords carry fill to the end of superframe C, and the first frame of the new mode starts at C + 2. -/
def changeSame (ch : Change) (s : State) : State := framesFrom (ch.c + 2) (replaceAll (fecDrop 0 3 s))

/-- R117, R198, R434: every other change stops both chains; the modulator is held at null, blanked where no mode follows, and
the transmitter is dark in WATCH. -/
def changeStop (ch : Change) (s : State) : State :=
  let s1 := stopTx (stopRx 3 s)
  if ch.watch then txDark 1 s1 else if ch.new.isNone then txBlank 1 false s1 else txNull 1 s1

/-- R119: a scheduled change that falls due while a change runs waits for the first boundary after it, and is late. -/
def deferDue (ch : Change) (p : Pend) : Pend :=
  let e := Lts.boundary (ch.c + (if ch.sameB then 2 else 1))
  match p.cmd with
  | .lineModeSet _ _ _ _ =>
    if (Lts.boundary ch.c).le p.due && p.due.lt e && !p.bundled then { p with due := e, late := true } else p
  | _ => p

/-- What happens at C before the bundled commands: R99, R342, R349 note the change, WATCH is left or entered (R114, R362), the
chains stop, and the new mode is in effect; a mode that a restore would start is recorded only in WATCH (R435). -/
def changeBegin (ch : Change) (s : State) : State :=
  let s0 := if inWatch s && !ch.watch then reached 5 .run s else s
  let s1 := incomplete 1 (histPartial (capModeChange { s0 with
    line := { s0.line with lastC := ch.c, change := some { ch with phase := 1 } },
    q := { s0.q with pend := s0.q.pend.map (deferDue ch) } }))
  let s2 := if ch.sameB then changeSame ch s1 else changeStop ch s1
  let s3 := txStream { s2 with
    line := { s2.line with cur := ch.new, recorded := if ch.watch then s.line.cur else none },
    pwr := { s2.pwr with c4Change := false } }
  if ch.watch then
    setPhase (.entry .watch ((steadyState s).getD .run)) { s3 with pwr := { s3.pwr with
        watchNext := ch.c, watchOpen := false, watchRun := 0, watchCmp := none, lightActive := false, lightSaid := false } }
  else s3

/-- R285: an Osier link is held in L2 for as long as ZR400 lasts, and the 400GE client takes the port of its group. -/
def changeLanes (was : Bool) (s : State) : State :=
  if zrNow s then zrPorts (if was then s else linkHold .l2 0 s)
  else if was then linkReturn 0 { s with hl := { s.hl with ports := [] } }
  else s

/-- MODE_CHANGE_START: boundary C. -/
def execModeChangeStart (s : State) : Out :=
  .next (match s.line.change with
  | none => s
  | some ch =>
    if ticking s && decide (ch.phase = 0) && decide (ch.c.toNat ≤ s.time.lts.sf.toNat) then
      changeLanes (zrNow s) (bundleApply ch.bundle (changeBegin ch (finishRestarts s)))
    else s)

/-! ### Boundary C + 1 (R86, R116, R117, R141, R344) -/

/-- R86, R98: line time counts at another symbol rate; time of day is carried on, and the sensing chain is reset (R344). -/
def rateTo (rate : Nat) (s : State) : State :=
  if s.time.rate = rate then s
  else
    let s1 := carryTod s
    senseReset { s1 with
      time := { s1.time with rate := rate }, hs := { s1.hs with stages := senseStages rate (senseHz s1.hs.rate) } }

/-- The new code, or the new rate and both chains (R171: a change that keeps B leaves the equaliser in TRACK). Without a new mode
the transmitter goes on to BLANK where a frequency is set (R434). -/
def changeLoad (ch : Change) (s : State) : State :=
  let s1 := { s with line := { s.line with change := some { ch with phase := 2 } } }
  if ch.sameB then
    txStream { s1 with fec := { s1.fec with st := 1, cause := 3, l := s1.fec.lSet, searchFrom := (boundaryStamp s1).sf,
                                            chainFrom := if s1.line.txChain then some (boundaryStamp s1).sf else none } }
  else
    match ch.new with
    | none => txAdvance 1 (rateTo nominalRate s1)
    | some m => txAdvance 1 (txStream (startTx (ch.c + 2) (startRx m.rate (if ch.fresh then 0 else 3) (rateTo m.rate s1))))

/-- MODE_CHANGE_LOAD: at C + 1 the new code, overhead or coefficients are loaded and the chains restart; so do the chains
that FE.COEF_SET and TX.SHAPING stopped. -/
def execModeChangeLoad (s : State) : Out :=
  .next (if ticking s then
    finishRestarts (match s.line.change with
    | none => s
    | some ch =>
      if ch.phase = 1 ∧ ch.c.toNat + 1 ≤ s.time.lts.sf.toNat then changeLoad ch s else s)
  else s)

/-! ### The end of a change (R119, R435) -/

/-- The response of LINE.MODE_SET (R121). -/
def modeReply (h : Hdr) (ch : Change) (s : State) : State :=
  let of (f : LMode → Nat) : Nat := match ch.new with | some m => f m | none => 0
  reply 0x0301 h
    [fld 16 1 (if ch.watch then 8 else of fun m => m.code.toNat), fld 17 1 (of fun m => m.slots),
     fld 18 1 (of fun m => stagesOf m.rate), fld 19 1 ch.applied, fld 20 2 0xFFFF, fld 24 6 ch.c.toNat,
     fld 32 4 (of netMbps), fld 36 4 (of transMbps)] s

/-- A change is answered and gone. -/
def changeAnswer (ch : Change) (s : State) : State :=
  let s1 := { s with line := { s.line with change := none } }
  match ch.hdr with
  | some h => answerLate ch.late (modeReply h ch) s1
  | none => s1

/-- MODE_CHANGE_COMPLETE: C + 2 for a change that keeps B, C + 1 for any other; the response is written, and a held
power-state request is evaluated (R367). -/
def execModeChangeComplete (s : State) : Out :=
  .next (match s.line.change with
  | none => s
  | some ch =>
    if ticking s && decide (ch.phase = 2) && decide (ch.c.toNat + (if ch.sameB then 2 else 1) ≤ s.time.lts.sf.toNat) then
      serveHeld (changeAnswer ch { s with eq := { s.eq with base := match ch.new with | some m => m.base | none => s.eq.base } })
    else s)

/-- R119: C4 or C5 ends a change at once: the new mode stays recorded and is not restored; a change that has not begun is
refused. -/
def changeInterrupt (s : State) : State :=
  match s.line.change with
  | none => s
  | some ch =>
    if ch.phase = 0 then
      let s1 := { s with line := { s.line with change := none } }
      let s2 := match ch.hdr with
        | some h => refuse 0x0301 h .badState s1
        | none => s1
      if ch.watch then
        match s2.pwr.req with
        | some r => pwrRefuse r .badState { s2 with pwr := { s2.pwr with req := none } }
        | none => s2
      else s2
    else
      let s1 := changeAnswer ch s
      if ch.new.isSome then
        { s1 with line := { s1.line with recorded := ch.new, cur := none }, pwr := { s1.pwr with c4Change := true } }
      else s1

/-! ### Commands (R121) -/

/-- The new mode of a request: none when a field is out of range, none within for mode 0x00 and for WATCH. -/
def modeOf (code : Byte) (p : FlexReq) : Option (Option LMode) :=
  if code = 0x07 then (flexMode p).map some
  else if !flexZero p then none
  else if code = 0x00 ∨ code = 0x08 then some none
  else (fixedMode code).map some

/-- R115: every defined tributary lies below a slot count. -/
def tribsFit (slots : Nat) (s : State) : Bool :=
  s.tribs.all fun t => decide (t.tid.toNat + (clientSlots t.client).getD 0 ≤ slots)

/-- R115: a change is refused, judged on the state that the bundled commands leave. -/
def modeRefused (was : Bool) (m : Option LMode) (s : State) : Bool :=
  match m with
  | none => false
  | some m =>
    if isZr m then !s.tribs.isEmpty || s.hl.group.isNone
    else !tribsFit m.slots s || (was && s.hl.group.isSome)


/-- The boundary after the change in progress. -/
def afterChange (s : State) : Lts :=
  match s.line.change with
  | some ch => Lts.boundary (ch.c + (if ch.sameB then 2 else 1))
  | none => actsAt s

/-- R119: a scheduled change that falls due during another waits for the first boundary after it and is late. -/
def deferSet (i : Instr) (s : State) : State :=
  { s with q := { s.q with
      pend := s.q.pend ++ [{ ord := s.q.ord, cmd := i, due := afterChange s, late := true }],
      ord := s.q.ord + 1 } }

/-- R112, R120, R121: the fields of LINE.MODE_SET that are refused whatever the module's state. -/
def setArgs (h : Hdr) (code flags : Byte) (p : FlexReq) : Bool :=
  (modeOf code p).isNone || !reservedClear flags 1 || decide (bitOf flags 0 ≠ h.buf)
    || (h.buf && (decide (h.length.toNat % 64 ≠ 0) || decide (1024 < h.length.toNat)))

/-- The change that LINE.MODE_SET asks for, with C at the present or next boundary. -/
def setChange (h : Hdr) (code : Byte) (p : FlexReq) (s : State) : Change :=
  let new := (modeOf code p).getD none
  { hdr := some h, late := s.q.acting = some true, c := boundaryNow s, new := new, watch := decide (code = 0x08),
    sameB := match s.line.cur, new with
      | some a, some b => decide (a.rate = b.rate)
      | _, _ => false,
    fresh := s.line.cur.isNone, bundle := [], applied := 0, phase := 0 }

/-- R120: the verdict on the bundled entries, on the state in which they are applied. -/
def bundleVerdict (h : Hdr) (ch : Change) (s : State) : Except (Nat × Nat) (List Instr × State) :=
  bundleCheck h.queue 0 (bundleEntries (h.length.toNat / 64) (bufData h s)) (changeBegin ch s)

/-- R120, R121: the response to a command of which entry `k` fails with status `st`. -/
def bundleFails (h : Hdr) (code : Byte) (k st : Nat) (s : State) : State :=
  rspWrite h.tag (layout 0 64
    [(0, leBytes 2 0x0301), (2, leBytes 2 h.tag.toNat), (4, leBytes 1 st), (8, leBytes 6 (nowLts s).sf.toNat),
     (14, leBytes 2 ((nowLts s).sym.toNat / 256)), (16, [code]), (20, leBytes 2 k)]) s

/-- R120, R435: a scheduled LINE.MODE_SET is validated when it is taken, before C, and answered at once where it fails; what the
module's state must allow is judged again when it acts (log entry 34). -/
def setFails (h : Hdr) (code flags : Byte) (p : FlexReq) (s : State) : Option State :=
  if setArgs h code flags p then some (refuse 0x0301 h .badArg s)
  else
    match bundleVerdict h (setChange h code p s) s with
    | .error (k, st) => some (bundleFails h code k st s)
    | .ok _ => none

/-- LINE.MODE_SET: validated with its bundled commands, then accepted for boundary C (R114, R115, R119, R120). -/
def execLineModeSet (h : Hdr) (code flags : Byte) (p : FlexReq) (s : State) : Out :=
  command 0x0301 h s
    (guarded 0x0301 h
      [(setArgs h code flags p, .badArg),
       (setBlocked s && !h.sched, .busy)]
      fun s =>
        if (if s.q.acting = some true ∧ code ≠ 0x08 then wakeBlocked s else setBlocked s) then deferSet (.lineModeSet h code flags p) s
        else if decide (4 ≤ s.aon.coppice) || ((modeOf code p).getD none).isSome && (s.pwr.failed.getLsbD 2 || s.pwr.failed.getLsbD 3) then
          refuse 0x0301 h .badState s
        else
          let ch := setChange h code p s
          match bundleVerdict h ch s with
          | .error (k, st) => bundleFails h code k st s
          | .ok (is, t) =>
            if modeRefused (zrNow s) ch.new t then refuse 0x0301 h .refused s
            else if ch.watch && inWatch s then modeReply h { ch with applied := is.length } (bundleApply is s)
            else { s with line := { s.line with change := some { ch with bundle := is, applied := is.length } } })

/-- R435: the mode code in effect. -/
def codeInEffect (s : State) : Nat :=
  if inWatch s || (match s.line.change with | some ch => ch.watch && decide (1 ≤ ch.phase) | none => false) then 8
  else match s.line.cur with | some m => m.code.toNat | none => 0

/-- LINE.MODE_GET byte 17. -/
def modeState (s : State) : Nat :=
  if changing s then 2
  else if codeInEffect s = 8 then 4
  else if s.line.cur.isNone then 0
  else if s.eq.st = 8 then 1 else 3

/-- LINE.MODE_GET. -/
def execLineModeGet (h : Hdr) (s : State) : Out :=
  let m := if codeInEffect s = 0 ∨ codeInEffect s = 8 then s.line.recorded else s.line.cur
  let of (f : LMode → Nat) : Nat := match m with | some m => f m | none => 0
  query 0x0302 h s
    [fld 16 1 (codeInEffect s), fld 17 1 (modeState s), fld 18 1 (of fun m => m.base.toNat),
     fld 19 1 (of fun m => m.ovh.toNat), fld 20 4 (of fun m => nearest m.rate 1000), fld 24 2 (of fun m => m.h),
     fld 26 1 (of fun m => m.slots), fld 27 1 (of fun m => stagesOf m.rate), fld 28 6 s.line.lastC.toNat,
     fld 36 4 (of netMbps), fld 40 4 (of transMbps),
     fld 44 1 (match s.line.recorded with | some m => m.code.toNat | none => 0)]

/-- R121: net minus transport rate in Mb/s, to the nearest. -/
def spareMbps (m : LMode) : Nat :=
  nearest (netNum m * 65280 - transNum m.slots * netDen m) (netDen m * 65280 * 1000000)

/-- LINE.FLEX_CHECK: changes nothing. -/
def execLineFlexCheck (h : Hdr) (p : FlexReq) (s : State) : Out :=
  command 0x0303 h s fun s =>
    match flexMode p with
    | none => refuse 0x0303 h .badArg s
    | some m =>
      reply 0x0303 h
        [fld 16 1 m.slots, fld 17 1 (stagesOf m.rate), fld 20 4 (netMbps m), fld 24 4 (transMbps m),
         fld 28 4 (spareMbps m), fld 32 4 (cdCapacity m.rate), fld 36 4 (nearest (2 ^ 24 * 1000000) m.rate)] s

end Sys2Proof.Machine
end

