-- ==== Sys2Proof/Machine/Debug.lean ====
section
/-! DEFINITION. Freeze, the IEEE 1149.1 test access and the debug commands (chapter 15, R397 to R403, R426). -/
namespace Sys2Proof.Machine

open Sys2Proof

/-! ### Freeze (R397 to R400) -/

/-- R398: freeze is accepted in RUN, IDLE and WATCH, outside a power-state transition, below level C4. -/
def freezeAllowed (s : State) : Bool := inRun s && s.pwr.req.isNone && decide (s.aon.coppice < 4) && s.time.running

/-- R198, R202: freeze takes the output to NULL in its own DSP clock cycle. -/
def freezeNull (s : State) : State := if s.tx.st = .lit then txMoveAt s.time.lts .null 6 false s else s

/-- R397: freeze from a source (bit 1 pin, 2 command, 3 trigger); the merge buffer is written first (R334), the transmitter
goes to NULL (R198), the lanes to electrical idle (R304), a capture ends (R349). Sources that coincide are all noted. -/
def freezeBegin (source : Nat) (s : State) : State :=
  let bit : BitVec 4 := 1 <<< source
  if s.dbg.frozen then
    if s.dbg.at_ = s.time.lts ∧ s.dbg.from_ = extTimer s then { s with dbg := { s.dbg with sources := s.dbg.sources ||| bit } }
    else s
  else
    let s1 := { mergeFlushAll s with dbg := { s.dbg with
        frozen := true, sources := bit, at_ := s.time.lts, from_ := extTimer s, wasLit := decide (s.tx.st = .lit) } }
    agePause false (incomplete 2 (capAbort false (linkHold .off 5 (freezeNull (endHolds s1)))))

/-- R400: the freeze's length so far in microseconds of the always-on oscillator. -/
def freezeUs (s : State) : Nat := (extTimer s + 2 ^ 48 - s.dbg.from_) % 2 ^ 48 * 1000000 / 32768

/-- R403: the flags of DBG.STATUS. -/
def freezeFlags (s : State) : Nat := boolBit s.dbg.frozen 0 + (if s.dbg.frozen then s.dbg.sources.toNat else 0)

/-- R400: everything resumes where it stopped, what was held is delivered (R93), and DBG_FREEZE is raised with the LTS at which the counter stopped. The
modulator leaves null as its loops converge (R198); the link retrains (R304); the record is PARTIAL (R342). -/
def freezeEnd (s : State) : State :=
  let note := ev [fld 20 1 (freezeFlags s), fld 24 4 (freezeUs s)]
  let s1 := { s with
    dbg := { s.dbg with frozen := false, extest := false },
    tx := { s.tx with
      converged := if s.tx.st = .null then 0 else s.tx.converged,
      tuneFrom := if s.tx.st = .null then s.time.lts.sf else s.tx.tuneFrom } }
  let s2 := histPartial (incomplete 2 s1)
  let back := !zrNow s && (decide (s.aon.coppice < 3) || (decide (s.aon.coppice < 4) && !s.hl.ports.isEmpty))
  let s3 := releaseAll (if back then linkReturn 5 s2 else s2)
  notifyAt 0x0F01 noInstance none note s.dbg.at_ s3

/-- FREEZE_PIN: FREEZE_N low freezes the module; while RESET_N is low it has no effect (R416). -/
def execFreezePin (low : Bool) (s : State) : Out :=
  let s1 := { s with pins := { s.pins with freezeLow := low } }
  .next (if low && freezeAllowed s && !s.pins.resetLow then freezeBegin 1 s1 else s1)

/-- R398, R416: a FREEZE_N still low acts when a transition completes. -/
def freezeIfLow (s : State) : State :=
  if s.pins.freezeLow && !s.pins.resetLow && freezeAllowed s then freezeBegin 1 s else s

/-- R397: the delay of the armed trigger, in DSP clocks of 1.25 GHz, has run since its event, within the present symbol frame. -/
def tripDue (s : State) : Bool :=
  match s.dbg.trip with
  | some t => decide (t.toNat + s.dbg.delay * s.time.rate / 1250000 < s.time.lts.toNat + 65536)
  | none => false

/-- FREEZE_TRIGGER: the armed trigger fires after its delay, and disarms. -/
def execFreezeTrigger (t : FreezeTrig) (s : State) : Out :=
  .next (if decide (s.dbg.armed = some t) && tripDue s && freezeAllowed s && !s.dbg.frozen then
    freezeBegin 3 { s with dbg := { s.dbg with armed := none, trip := none } }
  else s)

/-- R397: the triggers by number. -/
def triggerOf (n : Nat) : Option FreezeTrig :=
  match n with
  | 0 => some .engineHalt
  | 1 => some .rawUncorrectable
  | 2 => some .trackExit
  | 3 => some .cycleSlip
  | 4 => some .polTrigger
  | 5 => some .blazeMismatch
  | _ => none

def triggerCode : FreezeTrig → Nat
  | .engineHalt => 0 | .rawUncorrectable => 1 | .trackExit => 2 | .cycleSlip => 3 | .polTrigger => 4 | .blazeMismatch => 5

/-- DBG.FREEZE. -/
def execDbgFreezeCmd (h : Hdr) (action trigger : Byte) (delay : Half) (s : State) : Out :=
  command 0x0F01 h s
    (guarded 0x0F01 h
      [(decide (2 < action.toNat) || (decide (action = 1) && (triggerOf trigger.toNat).isNone), .badArg),
       (!freezeAllowed s, .badState)]
      fun s =>
        if action = 0 then freezeBegin 2 (done 0x0F01 h s)
        else if action = 1 then
          done 0x0F01 h { s with dbg := { s.dbg with armed := triggerOf trigger.toNat, delay := delay.toNat, trip := none } }
        else done 0x0F01 h { s with dbg := { s.dbg with armed := none, trip := none } })

/-- DBG.RELEASE. -/
def execDbgRelease (h : Hdr) (s : State) : Out :=
  command 0x0F02 h s
    (guarded 0x0F02 h [(!s.dbg.frozen, .badState), (s.pins.freezeLow, .busy)] fun s =>
      freezeEnd (reply 0x0F02 h [fld 16 4 (freezeUs s)] s))

/-- DBG.STATUS. -/
def execDbgStatus (h : Hdr) (s : State) : Out :=
  query 0x0F03 h s
    [fld 16 1 (freezeFlags s), fld 17 1 (match s.dbg.armed with | some t => triggerCode t | none => 0xFF),
     fld 18 6 s.dbg.at_.sf.toNat, fld 24 3 s.dbg.at_.sym.toNat]

/-! ### Test access (R401, R426) -/

/-- R426: the IDCODE. -/
def idcodeValue : BitVec 32 := 0x2240074D

/-- One bit of delay: what BYPASS shifts out. -/
def bypassBits (tdi : List Bool) : List Bool := (false :: tdi).take tdi.length

/-- Bits that the spec does not give, one free value for each. -/
def freeBits (n : Nat) (s : State) : List Bool := (List.range n).map fun k => decide (free k s % 2 = 1)

/-- The test access answers while VSB33 is valid; without it the module is inert (R10). -/
def testAccess (f : State → State) (s : State) : Out := .next (if s.pins.vsbValid then f s else s)

/-- TEST_LOGIC_RESET: IDCODE is selected. -/
def execTestLogicReset (s : State) : Out :=
  testAccess (fun s => { s with dbg := { s.dbg with ir := 0x01, extest := false } }) s

/-- BYPASS. -/
def execBypass (tdi : List Bool) (s : State) : Out :=
  testAccess (fun s => { s with dbg := { s.dbg with ir := 0xFF, extest := false, tdo := bypassBits tdi } }) s

/-- IDCODE, least significant bit first; what follows the 32 bits is what enters, taken as zero. -/
def execIdcode (shifts : Nat) (s : State) : Out :=
  testAccess (fun s => { s with dbg := { s.dbg with
    ir := 0x01, extest := false, tdo := (List.range shifts).map fun i => idcodeValue.getLsbD i } }) s

/-- SAMPLE/PRELOAD: the contacts' levels leave, the boundary cells take what enters. -/
def execSamplePreload (tdi : List Bool) (s : State) : Out :=
  testAccess (fun s => drawMany tdi.length { s with dbg := { s.dbg with
    ir := 0x02, extest := false, cells := tdi, tdo := freeBits tdi.length s } }) s

/-- EXTEST while frozen drives the contacts from the cells; otherwise it acts as BYPASS. -/
def execExtest (tdi : List Bool) (s : State) : Out :=
  testAccess (fun s => if s.dbg.frozen then
    drawMany tdi.length { s with dbg := { s.dbg with ir := 0x00, extest := true, cells := tdi, tdo := freeBits tdi.length s } }
  else { s with dbg := { s.dbg with ir := 0x00, extest := false, tdo := bypassBits tdi } }) s

/-- FRZ_SEL: selects a chain; its data register shifts out the selection before. -/
def execFrzSel (chain : Byte) (s : State) : Out :=
  testAccess (fun s => { s with dbg := { s.dbg with
    ir := 0x10, extest := false, chain := chain, tdo := (List.range 8).map fun i => s.dbg.chain.getLsbD i } }) s

/-- R401: the chains that have contents. -/
def chainExists (c : Byte) : Bool := decide (c.toNat ≤ 0x4B)

/-- FRZ_DATA: while frozen, the selected chain's bits, whose layout the spec does not give (free values); a chain that does
not exist shifts one zero bit; not frozen, zeros. -/
def execFrzData (shifts : Nat) (s : State) : Out :=
  testAccess (fun s => if s.dbg.frozen && chainExists s.dbg.chain then
    drawMany shifts { s with dbg := { s.dbg with ir := 0x11, extest := false, tdo := freeBits shifts s } }
  else { s with dbg := { s.dbg with ir := 0x11, extest := false, tdo := List.replicate shifts false } }) s

end Sys2Proof.Machine
end

