-- ==== Sys2Proof/Machine/Domains.lean ====
section
/-! DEFINITION. Power domains (chapter 14): who votes for a domain, the order in which sluices close and open, and what
powering a domain up and down does (R304, R356, R357, R364). -/
namespace Sys2Proof.Machine

open Sys2Proof

/-! ### Votes (R356) -/

/-- RUN, IDLE and WATCH, its entry window included. -/
def voting (s : State) : Bool := inRun s || inWatch s

/-- SLEEP with its entry and its exit: the TEC's vote stands and STORE keeps its contents. -/
def sleeping (s : State) : Bool :=
  match s.pwr.phase with
  | .steady .sleep => true
  | .entry .sleep _ => true
  | .exit .sleep _ => true
  | _ => false

/-- The host's vote for a domain, which level C3 suspends (R370, R371). -/
def hostVote (d : Dom) (s : State) : Bool :=
  voting s && decide (s.pwr.shed < 3) && s.pwr.hostVotes.getLsbD (domCode d)

/-- R283: at least one lane is in use; in ZR400 only the lane group of HL.CONFIG and an Osier link held in L2. -/
def lanesUsed (s : State) : Bool := !zrNow s || s.hl.group.isSome || s.hl.osier

/-- A vote that powers a domain whole; the variant CN never powers CIPH (R21). Level C4 drops what the boot vote powers as it
does in RUN (R34). -/
def wantsFull (d : Dom) (s : State) : Bool :=
  let boot := s.pwr.bootVote && decide (s.pwr.shed < 4)
  let below := voting s && decide (s.pwr.shed < 4)
  match d with
  | .mgmt => domIn s.pwr.closed .mgmt
  | .store => s.pwr.bootVote || voting s || sleeping s
  | .line => boot || (below && s.line.cur.isSome) || hostVote .line s
  | .opt => boot || (voting s && decide (s.tx.st ≠ .dark) && decide (s.tx.st ≠ .shut)) || hostVote .opt s
  | .host => boot || (below && lanesUsed s && (decide (s.pwr.shed < 3) || !s.hl.ports.isEmpty)) || hostVote .host s
  | .ciph =>
    decide (s.ident.variant ≠ .cn) &&
      (boot || (below && (s.tribs.any (fun t => decide (t.cipher ≠ 0)) || s.pwr.mmVote)) || hostVote .ciph s)

/-- A vote that keeps a domain held: the line-time keeper's, and the TEC's. -/
def wantsHeld (d : Dom) (s : State) : Bool :=
  match d with
  | .line => voting s || (s.pwr.bootVote && s.time.running)
  | .opt => decide (s.pwr.shed < 4) && (voting s || sleeping s)
  | _ => false

/-- A domain has a voter. -/
def wants (d : Dom) (s : State) : Bool := wantsFull d s || wantsHeld d s

/-! ### What power brings and takes -/

/-- R272, R275: the cipher loses power: keys stay in peat memory, memory-mode contexts are idle, their jobs refused. -/
def ciphDown (s : State) : State :=
  let s1 := (List.range 16).foldl (fun s i =>
    let c := ctxAt i s
    let s1 := setCtx i (idleCtx c) s
    match c.job with
    | some j => refuse 0x0820 j.hdr .badState s1
    | none => s1) s
  refreshTribs { s1 with ciph := { s1.ciph with inPeat := true }, pwr := { s1.pwr with mmVote := false, mmVoteEnd := none } }

/-- What the loss of a domain's power does to what lies in it. -/
def domDown (d : Dom) (s : State) : State :=
  match d with
  | .ciph => ciphDown s
  | .host => if s.hl.before.isSome then s else linkOff s
  | _ => s

/-- The HOST domain powers up: after SLEEP by fast retrain, after any other boot by a full bring-up (R304). In RUN a link held
off returns, and one that is off is brought up. -/
def hostUp (s : State) : State :=
  if !s.hl.osier || zrNow s then s
  else
    match s.pwr.phase with
    | .exit .sleep _ => bringUp true 6 0 { s with hl := { s.hl with before := none } }
    | .exit _ _ => bringUp false 6 0 s
    | .boot _ => bringUp false 6 0 s
    | _ =>
      if s.hl.before.isSome then (if s.aon.coppice < 3 then linkReturn 4 s else s)
      else if s.hl.link = .off then bringUp false 0 0 s
      else s

/-- R272, R280: the cipher has power: the keys return, receive counters are unconfirmed, and the self-tests run. -/
def ciphUp (s : State) : State :=
  runSelftests { s with
    ciph := { s.ciph with inPeat := false },
    tribs := s.tribs.map fun t => { t with confirmed := false, confirmNext := none } }

/-- What a domain's power-good starts. -/
def domUp (d : Dom) (s : State) : State :=
  match d with
  | .ciph => ciphUp s
  | .host => hostUp s
  | .store => storePowerUp s
  | _ => s

/-! ### Sluices -/

/-- A domain's sluices open. -/
def openDom (d : Dom) (s : State) : State :=
  let off (w : BitVec 7) : BitVec 7 := w &&& ~~~ domBit d
  let s1 := { s with pwr := { s.pwr with
      closed := off s.pwr.closed, powered := off s.pwr.powered, held := off s.pwr.held } }
  if domIn s.pwr.powered d then domDown d s1 else s1

/-- A domain's sluices close; power-good is awaited. -/
def closeDom (d : Dom) (s : State) : State := { s with pwr := { s.pwr with closed := s.pwr.closed ||| domBit d } }

/-- A closed domain has not reported power-good. -/
def rising (d : Dom) (s : State) : Bool :=
  domIn s.pwr.closed d && !domIn s.pwr.powered d && !s.pwr.retryDue

/-- The next domain to close, in the order of R356. -/
def nextDom (s : State) : Option Dom :=
  [Dom.store, .line, .opt, .ciph, .host].find? fun d => wants d s && !domIn s.pwr.closed d && !domIn s.pwr.failed d

/-- R34: a boot or an exit holds at its step while a coppicing level is set. -/
def sequenceHeld (s : State) : Bool :=
  match s.pwr.phase with
  | .boot _ => decide (0 < s.aon.coppice)
  | .exit _ _ => decide (0 < s.aon.coppice)
  | _ => false

/-- The next sluices close once every closed domain is powered. -/
def closeNext (s : State) : State :=
  if decide (s.pwr.closed ≠ s.pwr.powered) || s.pwr.retryDue || sequenceHeld s then s
  else
    match nextDom s with
    | some d => closeDom d s
    | none => s

/-- The domains in the order in which they open. -/
def openOrder : List Dom := [.host, .ciph, .opt, .line, .store]

/-- R356: votes are counted: domains without a voter drop, in reverse order; domains with one are closed in order. A domain
that failed is tried again once its votes have gone and come back (R357). -/
def revote (s : State) : State :=
  let s1 := openOrder.foldl (fun s d => if wants d s || !domIn s.pwr.closed d then s else openDom d s) s
  let keep (f : Dom → Bool) : BitVec 7 := openOrder.foldl (fun w d => if f d then w ||| domBit d else w) 0
  let idle := decide (s1.pwr.closed = s1.pwr.powered) && !s1.pwr.retryDue
  closeNext { s1 with pwr := { s1.pwr with
    held := keep fun d => domIn s1.pwr.closed d && wantsHeld d s1 && !wantsFull d s1,
    failed := s1.pwr.failed &&& keep fun d => wants d s1,
    attempts := if idle then 0 else s1.pwr.attempts } }

/-- DOMAIN_POWER_GOOD: the domain's reset is released, and the next sluices close. -/
def execDomainPowerGood (d : Dom) (s : State) : Out :=
  .next (if rising d s then
    closeNext (domUp d { s with pwr := { s.pwr with
      powered := s.pwr.powered ||| domBit d, attempts := if d = .mgmt then s.pwr.attempts else 0 } })
  else s)

/-- R364: whether the sequencer waits for MGMT alone: step 2 of R33, or W2. -/
def awaitsWarden (s : State) : Bool :=
  decide (s.pwr.phase = .boot 2) || decide (s.pwr.phase = .exit .deep 1)

/-- POWER_RETRY: the sluices of the failed attempt close again. -/
def execPowerRetry (s : State) : Out :=
  .next (if s.pwr.retryDue && !s.pins.resetLow then
    let s1 := { s with pwr := { s.pwr with retryDue := false } }
    if awaitsWarden s then closeDom .mgmt s1
    else
      let s2 := closeNext s1
      if s2.pwr.closed = s2.pwr.powered then { s2 with pwr := { s2.pwr with attempts := 0 } } else s2
  else s)

/-- R357: a domain that still fails after three retries is left open, recorded and notified; the others go on. -/
def domFails (d : Dom) (s : State) : State :=
  let s1 := recordFault 0x01 (BitVec.ofNat 8 (domCode d)) { s with pwr := { s.pwr with failed := s.pwr.failed ||| domBit d } }
  closeNext (notify 0x0204 (BitVec.ofNat 16 (domCode d)) none (ev [fld 20 1 4]) s1)

/-! ### PWR.VOTE and the memory-mode vote -/

/-- PWR.VOTE: the response reports the domains powered after the boundary. -/
def execPwrVote (h : Hdr) (domains : Byte) (s : State) : Out :=
  command 0x0203 h s
    (guarded 0x0203 h [(!reservedClear domains 0x3C, .badArg), (decide (3 ≤ s.aon.coppice), .badState)] fun s =>
      let fresh : BitVec 7 := BitVec.ofNat 7 (domains &&& ~~~ s.pwr.hostVotes).toNat
      let s1 := revote { s with pwr := { s.pwr with hostVotes := domains, failed := s.pwr.failed &&& ~~~ fresh } }
      reply 0x0203 h [fld 16 1 s1.pwr.powered.toNat] s1)

/-- MM_VOTE_EXPIRE: the memory-mode engine withdraws its CIPH vote. -/
def execMmVoteExpire (s : State) : Out :=
  .next (match s.pwr.mmVoteEnd with
  | none => s
  | some e =>
    if s.pwr.mmVote && ticking s && !mmActive s && decide (e.toNat ≤ s.time.lts.sf.toNat) then
      revote { s with pwr := { s.pwr with mmVote := false, mmVoteEnd := none } }
    else s)

end Sys2Proof.Machine
end

