-- ==== Sys2Proof/Machine/Entry.lean ====
section
/-! DEFINITION. Entries to SLEEP, DEEP and OFF (R358 to R360), what survives them, and the way back from a failed boot or
exit (R364). -/
namespace Sys2Proof.Machine

open Sys2Proof

/-! ### What survives (R359, R360) -/

/-- R378: a slice whose calibration a power loss breaks off is a spare again. -/
def restedSlice (x : Slice) : Slice :=
  { x with st := if x.st = .calib then .spare else x.st, rangeRun := 0, noiseRun := 0 }

def restedChan (c : Chan) : Chan := { c with slices := c.slices.map restedSlice }

/-- R360 with what flash and manufacture hold: the state after everything else is lost. The contacts, the always-on domain,
the test access and the log in flash stay; so does the count of what left the part. -/
def loseAll (s : State) : State :=
  let z : State := {}
  { z with
    pending := s.pending,
    ident := s.ident,
    time := { z.time with ticks := s.time.ticks, drawn := s.time.drawn },
    pins := s.pins,
    aon := s.aon,
    reply := s.reply,
    hif := { z.hif with msixSent := s.hif.msixSent },
    q := { z.q with ord := s.q.ord, fallback := s.q.fallback },
    pwr := { z.pwr with
      phase := s.pwr.phase, closed := s.pwr.closed, powered := s.pwr.powered, attempts := s.pwr.attempts,
      retryDue := s.pwr.retryDue, lastChange := s.pwr.lastChange, sets := s.pwr.sets, wakeLatched := s.pwr.wakeLatched,
      wakeSpent := s.pwr.wakeSpent },
    fe := { z.fe with adc := s.fe.adc.map restedChan },
    tx := { z.tx with
      dac := s.tx.dac.map restedChan, st := if s.aon.shut then .shut else .dark, fir := s.tx.fir, skew := s.tx.skew,
      iqGain := s.tx.iqGain, iqPhase := s.tx.iqPhase },
    ciph := { z.ciph with tests := s.ciph.tests },
    ref := { z.ref with calFreq := s.ref.calFreq },
    cal := { z.cal with items := s.cal.items },
    mon := { z.mon with chans := z.mon.chans.zipWith (fun c o =>
      if o.override then c else { c with offset := o.offset, gain := o.gain }) s.mon.chans },
    health := { z.health with
      age := s.health.age, points := s.health.points, dayAf := s.health.dayAf, warned := s.health.warned,
      warned36 := s.health.warned36, ageScan := s.health.ageScan },
    dbg := { z.dbg with ir := s.dbg.ir, chain := s.dbg.chain, cells := s.dbg.cells, tdo := s.dbg.tdo },
    flash := { s.flash with stage := [], awaiting := false, wardenOnly := false, bootDue := false } }

/-- R359: a tributary as the retention set keeps it. -/
def keptTrib (t : Trib) : Trib :=
  { tid := t.tid, entry := t.entry, client := t.client, port := t.port, cipher := t.cipher, from_ := t.from_,
    keySlot := t.keySlot, txCur := t.txCur, txNext := t.txNext, rxCur := t.rxCur, rxNext := t.rxNext,
    txPhase := t.txPhase, rxPhase := t.rxPhase, txSpan := t.txSpan, rxSpan := t.rxSpan, txFresh := t.txFresh,
    blockTx := t.blockTx, blockRx := t.blockRx, failTotal := t.failTotal }

/-- R359: interval state of a tally; its counts lay in the store. -/
def keptTally (t : Tally) : Tally := { id := t.id, cur15 := { start := t.cur15.start }, cur24 := { start := t.cur24.start } }

/-- R61: the scheduled commands that stay pending through DEEP. -/
def keptPend (s : State) : List Pend :=
  s.q.pend.filter fun p =>
    match mailbox p.cmd with
    | some x => x.2.sched && !p.bundled
    | none => false

/-- R358, R359, R61: the state in DEEP: the retention set, and what survives OFF. A held wake stays, a held command does
not. -/
def deepImage (s : State) : State :=
  let z := loseAll s
  let pend := keptPend s
  { z with
    time := { s.time with running := false },
    hif := { z.hif with nqSeq := s.hif.nqSeq },
    q := { z.q with
      pend := pend, delivered := s.q.delivered,
      outst := (s.q.outst.filter fun o => pend.any fun p => decide ((mailbox p.cmd).map (fun x => x.2.tag) = some o.tag)).map fun o => { o with holds := false } },
    pwr := { z.pwr with
      hostVotes := s.pwr.hostVotes, watchPeriod := s.pwr.watchPeriod, restoreC4 := s.pwr.restoreC4,
      restoreWake := s.pwr.restoreWake, notifyCop := s.pwr.notifyCop, restoreAt7 := s.pwr.restoreAt7,
      heldReq := s.pwr.heldReq.filter fun r => r.hdr.isNone },
    line := { z.line with recorded := s.line.recorded, lastC := s.line.lastC },
    fe := { z.fe with
      mode := s.fe.mode, xGain := s.fe.xGain, yGain := s.fe.yGain, rms := s.fe.rms, ovrStep := s.fe.ovrStep,
      losThr := s.fe.losThr, notify := s.fe.notify },
    eq := { z.eq with
      taps := s.eq.taps, tapsSet := s.eq.tapsSet, profile := s.eq.profile, bw := s.eq.bw, useHint := s.eq.useHint,
      noErase := s.eq.noErase, notifySlips := s.eq.notifySlips, hint := s.eq.hint, window := s.eq.window,
      floor := s.eq.floor, warmHold := s.eq.warmHold, nlcMode := s.eq.nlcMode, nlcScale := s.eq.nlcScale },
    tx := { z.tx with
      freqSet := s.tx.freqSet, grid := s.tx.grid, fine := s.tx.fine, power := s.tx.power, request := s.tx.request,
      rearmed := s.tx.rearmed, reason := s.tx.reason, now := s.tx.now, stored := s.tx.stored, als := s.tx.als,
      alsInterval := s.tx.alsInterval, alsPulse := s.tx.alsPulse },
    fec := { z.fec with l := s.fec.lSet, lSet := s.fec.lSet, notify := s.fec.notify, deg := s.fec.deg },
    tribs := s.tribs.map keptTrib,
    ciph := { s.ciph with inPeat := true },
    mm := s.mm.map idleCtx,
    hl := { z.hl with
      osier := s.hl.osier, n := s.hl.n, maxStep := s.hl.maxStep, group := s.hl.group, notify := s.hl.notify,
      inPol := s.hl.inPol, outPol := s.hl.outPol, ports := s.hl.ports.map fun p => { num := p.num, client := p.client } },
    ref := { s.ref with
      todWait := [], disagree := [], runs := [],
      stampA := ⟨0, 0⟩, stampB := ⟨0, 0⟩,
      inputs := s.ref.inputs.map fun r => { r with
        failures := 0, dref := false, offset := 0, drift := 0, inactive := false, badForm := false } },
    hs := { z.hs with seq := s.hs.seq },
    health := { z.health with
      tallies := s.health.tallies.map keptTally, cause15 := s.health.cause15, cause24 := s.health.cause24,
      lastCause24 := s.health.lastCause24, start15 := s.health.start15, start24 := s.health.start24,
      swaps := s.health.swaps } }

/-! ### The entry (R358) -/

/-- R149, R183: chain restarts in progress end with the entry; the new settings stand for the next start. -/
def endRestarts (s : State) : State :=
  let s1 := match s.fe.restart with
    | some r => answerLate r.late (reply 0x0443 r.hdr [fld 16 1 (stagesNow s)]) { s with fe := { s.fe with restart := none } }
    | none => s
  match s1.tx.restart with
  | some r => answerLate r.late (done 0x0503 r.hdr) { s1 with tx := { s1.tx with restart := none } }
  | none => s1

/-- E1: the transmitter goes dark, the chains stop, recording stops, and the mode that ran, or that WATCH recorded, is kept
for the restore after the wake (R365). -/
def entryStops (scan : Bool) (reason : Nat) (s : State) : State :=
  let s1 := stopTx (stopRx 2 (txDark reason (endRestarts s)))
  let s2 := agePause scan (stopSwaps (incomplete 3 (histPartial (capAbort true s1))))
  let kept := if s.line.cur.isSome then s.line.cur else s.line.recorded
  let at7 := s.line.cur.isSome || (inWatch s && s.line.recorded.isSome)
  { s2 with
    line := { s2.line with recorded := kept, cur := none },
    hl := if zrNow s then { s2.hl with ports := [] } else s2.hl,
    pwr := { s2.pwr with restoreAt7 := s.pwr.restoreAt7 || at7, bootVote := false } }

/-- E1: line time stops at the entry boundary: held notifications and running holds end (R447, R430), and the count of the
boundary is what the always-on sequencer carries forward (R103). In SLEEP it has been carried since the entry to SLEEP. -/
def stopTime (s : State) : State :=
  if s.time.running then
    let s1 := endHolds (releaseAll s)
    { s1 with time := { s1.time with
        running := false, sfEntry := (Lts.ceilSf s.time.lts).sf, entryRate := s.time.rate, entryTimer := extTimer s } }
  else s

/-- E2: the link goes off with its domain, and with it what held it. -/
def entryLanes (s : State) : State := linkOff { s with hl := { s.hl with before := none } }

/-- E2, E3: the domains that the low state does not keep open, in order; the merge buffer and the log are written. -/
def entryOpens (s : State) : State := flushLog (mergeFlushAll (openDom .line (openDom .ciph (openDom .host s))))

/-- E4 for SLEEP: OPT stays for the TEC, below level C4. -/
def sleepDomains (s : State) : State :=
  let w : BitVec 7 := if s.aon.coppice < 4 then 0x4B else 0x43
  { s with pwr := { s.pwr with
      closed := w, powered := w, held := if s.aon.coppice < 4 then 0x08 else 0, attempts := 0, retryDue := false } }

/-- E1 to E4 of an entry to a low state, which its entry window follows. -/
def lowEntry (target : PState) (reason : Nat) (r : Option PwrReq) (s : State) : State :=
  let origin := match s.pwr.phase with
    | .steady st => st
    | .exit o _ => o
    | .entry _ o => o
    | _ => .off
  let s1 := entryStops (decide (target = .sleep)) reason s
  match target with
  | .sleep =>
    let s2 := setPhase (.entry .sleep origin) (stopTime s1)
    let s3 := sleepDomains (entryOpens (entryLanes s2))
    { s3 with pwr := { s3.pwr with req := r } }
  | _ =>
    let s2 := match r with
      | some q => pwrReply q (stateCode target) false { s1 with pwr := { s1.pwr with req := none } }
      | none => s1
    let s3 := entryOpens (stopTime (entryLanes s2))
    let s4 := setPhase (.entry target origin) (setReady false s3)
    let s5 := if target = .deep then deepImage s4 else loseAll { s4 with q := { s4.q with fallback := none } }
    let sf := if s.time.running then (Lts.ceilSf s.time.lts).sf else BitVec.ofNat 48 (estimateFloor s)
    { s5 with
      pwr := { s5.pwr with closed := 1, powered := 1, attempts := 0, retryDue := false },
      time := if target = .off then { s5.time with sfEntry := sf } else s5.time }

/-- LOW_STATE_ENTRY: at entry boundary E the requested entry runs; a deferred mode change that is due comes first,
and the request is held (R119). -/
def execLowStateEntry (s : State) : Out :=
  .next (match s.pwr.req, steadyState s with
  | some r, some _ =>
    if (decide (r.target = .sleep) || decide (r.target = .deep) || decide (r.target = .off)) && r.due.le (nowLts s) &&
        s.line.change.isNone && !s.dbg.frozen then
      if deferredSet s then
        let s1 := { s with pwr := { s.pwr with req := none } }
        if s.pwr.heldReq.isSome then pwrRefuse r .refused s1 else holdRequest r s1
      else lowEntry r.target 0 (some r) { s with pwr := { s.pwr with restoreAt7 := s.pwr.restoreAt7 && inSleep s } }
    else s
  | _, _ => s)

/-! ### Failed boots and exits (R364) -/

/-- A failed cold start returns to OFF; a failed exit returns to the state it came from. Nothing is tried again until a new
wake: a level must first have been inactive. -/
def sequenceFails (code : Byte) (source : Byte) (s : State) : State :=
  let spent (s : State) : State := { s with pwr := { s.pwr with wakeSpent := true } }
  match s.pwr.phase with
  | .boot _ => recordFault code source (spent (lowEntry .off 0 none s))
  | .exit o _ =>
    let back : Option PwrReq := s.pwr.then_.map fun r => { r with target := o }
    let s1 := { s with pwr := { s.pwr with then_ := none } }
    let req : Option PwrReq := if back.isSome then back else s.pwr.req.map fun r => { r with target := o }
    recordFault code source (spent (lowEntry o 0 (if o = .sleep then req else none) s1))
  | _ => s

/-- A power-good attempt fails: its sluices open; a retry follows after 10 ms, three times. -/
def attemptFails (d : Dom) (osc : Bool) (s : State) : State :=
  let n := s.pwr.attempts + 1
  let s1 := openDom d { s with pwr := { s.pwr with attempts := n } }
  if n < 4 then { s1 with pwr := { s1.pwr with retryDue := true } }
  else
    let s2 := { s1 with pwr := { s1.pwr with attempts := 0 } }
    match s.pwr.phase with
    | .steady _ => domFails d s2
    | .entry _ _ => domFails d s2
    | _ => if osc then sequenceFails 0x02 0 s2 else sequenceFails 0x01 (BitVec.ofNat 8 (domCode d)) s2

/-- POWER_GOOD_TIMEOUT: a rail gives no power-good, or after MGMT's the fast oscillator is not ready. -/
def execPowerGoodTimeout (d : Dom) (osc : Bool) (s : State) : Out :=
  .next (
    if osc then (if decide (d = .mgmt) && awaitsWarden s && domIn s.pwr.powered .mgmt then attemptFails d true s else s)
    else if rising d s then attemptFails d false s
    else s)

end Sys2Proof.Machine
end

