-- ==== Sys2Proof/Machine/Boot.lean ====
section
/-! DEFINITION. Boots and exits: the cold start (R33 to R37), warden starts and firmware selection (R77 to R80, R428), W4 to W7
of an exit (R363 to R366), resets (R46, R416), and the supplies (R8, R10). -/
namespace Sys2Proof.Machine

open Sys2Proof

/-! ### Supplies -/

/-- A new level of VIN12: AON_STATE.VIN_OK follows the operating range of R8, 11.4 to 12.6 V. -/
def measureVin (mv : Nat) (s : State) : State :=
  let s1 := { s with pins := { s.pins with
    vinMv := mv, lowestVin := min mv s.pins.lowestVin, vinHeld := s.pins.vinHeld && decide (11400 ≤ mv) } }
  if s.pins.vsbValid then { s1 with aon := { s1.aon with vinOk := decide (11400 ≤ mv) && decide (mv ≤ 12600) } } else s1

/-- R10: what remains when VSB33 is lost or first applied: flash, fuses and manufacture, the levels at the contacts, and the
model's own counts. The sequencer's counts, the lowest VIN12 and the test access go with the always-on domain. -/
def loseSupply (s : State) : State :=
  let s1 := loseAll { s with aon := {}, dbg := {} }
  { s1 with
    pins := { s1.pins with lowestVin := s.pins.vinMv },
    pwr := { s1.pwr with
      attempts := 0, retryDue := false, lastChange := 0, sets := [0, 0, 0, 0, 0], wakeLatched := false, wakeSpent := false } }

/-- VSB33_VALID: a rise through 3.05 V is the first application of VSB33: the always-on domain is at its reset values (R51), and
the transmitter starts in DARK (R198). -/
def execVsb33Valid (mv : Nat) (s : State) : Out :=
  let s1 := { s with pins := { s.pins with vsbMv := mv } }
  .next (if decide (3050 ≤ mv) && !s.pins.vsbValid then
    let s2 := loseSupply s1
    { s2 with pins := { s2.pins with vsbValid := true }, pwr := { s2.pwr with phase := .boot 1, closed := 1, powered := 1 } }
  else s1)

/-- VSB33_LOSS: below 2.90 V the always-on domain's whole content is lost, the module is inert. Flash keeps the log it
holds, from whose last entry numbering goes on. -/
def execVsb33Loss (mv : Nat) (s : State) : Out :=
  let s1 := { s with pins := { s.pins with vsbMv := mv } }
  .next (if decide (mv < 2900) && s.pins.vsbValid then
    let s2 := loseSupply s1
    { s2 with
      pins := { s2.pins with vsbValid := false },
      pwr := { s2.pwr with phase := .inert, closed := 0, powered := 0 },
      flash := { s2.flash with nextSeq := match s.flash.log.getLast? with | some e => e.seq + 1 | none => 0 } }
  else s1)

/-! ### Steps 1 to 4 of R33 -/

/-- COLD_START: step 1 of R33: the wake state is cleared, AON_FAULT is kept. While RESET_N is low the module holds here
(R34). -/
def execColdStart (s : State) : Out :=
  .next (if decide (s.pwr.phase = .boot 1) && s.pins.vsbValid && !s.pins.resetLow then
    setPhase (.boot 2) { s with pwr := { s.pwr with
      wakeLatched := false, req := none, heldReq := none, then_ := none, attempts := 0, retryDue := false } }
  else s)

/-- R361: a wake latched while VIN12 was not valid starts its exit. -/
def latchedWake (s : State) : State :=
  if s.pwr.wakeLatched && s.aon.vinOk then
    powerRequest { target := .run, hdr := none, due := nowLts s, wasHeld := false, late := false }
      { s with pwr := { s.pwr with wakeLatched := false } }
  else s

/-- VIN12_HOLD_CONFIRMED: VIN12 has been at or above 11.4 V for 100 ms, so that no coppicing level stands in the way (R371); in
step 2 the MGMT sluices close, and in a low state a latched wake goes on. -/
def execVin12HoldConfirmed (mv : Nat) (s : State) : Out :=
  let s1 := measureVin mv s
  .next (if decide (11400 ≤ mv) && s.pins.vsbValid then
    let s2 := { s1 with pins := { s1.pins with vinHeld := true } }
    if s.pwr.phase = .boot 2 then
      if !domIn s.pwr.closed .mgmt && !s.pwr.retryDue && !s.pins.resetLow then
        closeDom .mgmt { s2 with aon := { s2.aon with coppice := 0 }, pwr := { s2.pwr with shed := 0 } }
      else s2
    else latchedWake s2
  else s1)

/-- The image in a slot, A or B. -/
def slotImage (b : Bool) (s : State) : Option Image := if b then s.flash.imgB else s.flash.imgA

/-- R77: the boot ROM accepts an image whose signature verifies and whose security version the fuses allow. -/
def bootable (b : Bool) (s : State) : Bool :=
  match slotImage b s with
  | some i => i.sigOk && decide (s.ident.fuses ≤ i.security)
  | none => false

/-- What the boot ROM chooses (R79, R80): the slot, none for the recovery state; whether it is a fall-back, and whether a trial
image runs. -/
def bootChoice (s : State) : Option Bool × Bool × Bool :=
  let pref := s.aon.pref
  let fall := s.aon.trial || s.flash.trialRuns
  if s.aon.trial && bootable (!pref) s then (some (!pref), false, true)
  else if bootable pref s then (some pref, fall, false)
  else if bootable (!pref) s then (some (!pref), false, fall)
  else (none, false, false)

/-- R372: at a boot the warden logs the SEQ numbers issued and lost from LOGSTAGE. -/
def logLost (s : State) : State :=
  let first := match (s.flash.log ++ s.flash.stage).getLast? with | some e => e.seq.toNat + 1 | none => 0
  if first < s.flash.nextSeq.toNat then
    logEntry 6 0x0100 none (leBytes 6 first ++ leBytes 6 (s.flash.nextSeq.toNat - 1)) s
  else s

/-- R428: the HIF_ registers at a warden start. -/
def wardenHif (keepSeq : Bool) (s : State) : Hif :=
  { msixSent := s.hif.msixSent, sfLatch := s.hif.sfLatch, slot := s.aon.running, fwver := s.hif.fwver,
    nqSeq := if keepSeq then s.hif.nqSeq else 0 }

/-- A warden start: an image is selected, or the recovery state entered (R77 to R80), and the registers are set (R428). -/
def wardenStart (s : State) : State :=
  let c := bootChoice s
  let deep := match s.pwr.phase with | .exit _ _ => true | _ => false
  let s1 := { s with
    ident := { s.ident with boots := s.ident.boots + 1 },
    aon := { s.aon with
      boots := s.aon.boots + 1, trial := false, running := c.1.getD s.aon.running,
      last := if c.1.isNone then 2 else if c.2.1 then 1 else 0 },
    flash := { s.flash with
      bootDue := false, trialRuns := c.2.2, committed := s.flash.committed && !s.aon.trial },
    q := { s.q with fallback := if c.2.1 then some (boolByte (!s.aon.pref), 0x07) else s.q.fallback },
    cv := {} }
  let s2 := if c.1.isNone then recordFault 0x05 0 s1 else if c.2.1 then recordFault 0x07 0 s1 else s1
  let s3 := { s2 with hif := wardenHif (deep || s.flash.wardenOnly) s2 }
  let s4 := setPhase (match s.pwr.phase with | .boot _ => .boot 3 | .exit o _ => .exit o 2 | p => p) s3
  let s5 := if c.1.isNone then setCause causeFault (setReady true { s4 with hif := { s4.hif with recovery := true } }) else s4
  logLost s5

/-- WARDEN_START: step 3 of R33 or W2, once MGMT has power and its oscillator runs, or a restart of the warden alone. -/
def execWardenStart (s : State) : Out :=
  .next (if s.flash.bootDue || (awaitsWarden s && domIn s.pwr.powered .mgmt && !sequenceHeld s && !s.pins.resetLow) then
    wardenStart { s with pwr := { s.pwr with attempts := 0 } }
  else s)

/-- R79: FW_FALLBACK is raised once READY returns. -/
def raiseFallback (s : State) : State :=
  match s.q.fallback with
  | some f =>
    notify 0x0D02 (Config.freeSource 0x0D02) none (ev [(20, [f.1, f.2])]) { s with q := { s.q with fallback := none } }
  | none => s

/-- The command path comes up: READY, HIF_FWVER, and FAULT for a fault that stands (R41, R43, R428). -/
def pathUp (s : State) : State :=
  let v := match slotImage s.aon.running s with | some i => i.version | none => 0
  let s1 := setReady true { s with
    hif := { s.hif with fwver := v, slot := s.aon.running },
    flash := { s.flash with awaiting := false, wardenOnly := false } }
  raiseFallback (if s.aon.valid then setCause causeFault s1 else s1)

/-- COMMAND_PATH_READY: step 4 of R33, which the boot vote follows; W3; or the end of a warden-only restart. -/
def execCommandPathReady (s : State) : Out :=
  .next (if s.hif.ready || s.hif.recovery || sequenceHeld s || s.flash.bootDue then s
  else
    match s.pwr.phase with
    | .boot 3 =>
      revote (let s1 := pathUp (setPhase (.boot 4) s); { s1 with pwr := { s1.pwr with bootVote := true } })
    | .exit .deep 2 => pathUp (setPhase (.exit .deep 3) s)
    | _ => if s.flash.wardenOnly then pathUp s else s)

/-! ### Steps 5 to 7 of R33 -/

/-- Every domain voted for is powered, and nothing more is to close. -/
def domainsUp (s : State) : Bool :=
  decide (s.pwr.closed = s.pwr.powered) && !s.pwr.retryDue && (nextDom s).isNone && !sequenceHeld s

/-- R106: the tasks of the sedge engines start anew at a superframe boundary, at which no superframe has
ended for the tallies (R387). -/
def anchorTasks (sf : Sf) (s : State) : State :=
  { s with
    sedge := { s.sedge with
      tasks := s.sedge.tasks.map fun t => { t with anchor := sf, n := 0, running := false, next := sf } },
    health := { s.health with gathered := some sf } }

/-- LINE_TIME_START: step 5 of R33: with the domains powered and the oven ready, line time starts at LTS 0 and 272 GBd. -/
def execLineTimeStart (s : State) : Out :=
  .next (if decide (s.pwr.phase = .boot 4) && s.ref.ovenFrom.isSome && domainsUp s then
    let z := { s with time := { s.time with lts := Lts.zero, running := true, rate := nominalRate } }
    anchorTasks 0 (setPhase (.boot 5) { z with hs := { z.hs with acc := freshAcc z } })
  else s)

/-- FIRST_CALIBRATION_DONE: step 6 of R33, or W6. -/
def execFirstCalibrationDone (s : State) : Out :=
  let whole (s : State) : State := drawMany 64 ((List.range 32).foldl (fun s i => monTrim i s) (allCalibrated s))
  .next (if sequenceHeld s then s
  else
    match s.pwr.phase with
    | .boot 5 => whole (setPhase (.boot 6) s)
    | .exit o 5 => whole (setPhase (.exit o 6) s)
    | _ => s)

/-- ENTER_RUN: step 7 of R33: the boot vote is withdrawn, MODULE_READY is posted, recording starts; a power-state request held
since BOOT is evaluated (R427), and a FREEZE_N still low acts (R416). -/
def execEnterRun (s : State) : Out :=
  .next (if decide (s.pwr.phase = .boot 6) && !sequenceHeld s then
    let s1 := reached 0xE .run { s with pwr := { s.pwr with bootVote := false }, hs := { s.hs with started := true } }
    let s2 := notify 0x0101 (Config.freeSource 0x0101) none (ev [fld 20 4 s1.hif.fwver.toNat]) s1
    freezeIfLow (serveHeld (revote s2))
  else s)

/-! ### W4 to W7 (R363 to R366) -/

/-- OVEN_READY: the warden is on its PLL and the system clock starts. An exit that finds the case above 80 °C returns to DEEP
(R374). -/
def execOvenReady (caseTemp : Int) (s : State) : Out :=
  let s1 := { s with pins := { s.pins with caseTemp := caseTemp } }
  let oven (s : State) : State := { s with ref := { s.ref with ovenFrom := some s.time.resNs } }
  let w4 (o : PState) (s : State) : State :=
    if 8000 < caseTemp then
      let s2 := { s with pwr := { s.pwr with req := none, then_ := none } }
      recordFault 0x04 0 (lowEntry .deep 8 none s2)
    else
      let s2 := refWake (if o = .deep then oven s else s)
      revote (let s3 := setPhase (.exit o 4) s2; { s3 with pwr := { s3.pwr with bootVote := true } })
  .next (if sequenceHeld s then s1
  else
    match s.pwr.phase with
    | .boot 4 => if s.ref.ovenFrom.isSome then s1 else refWake (oven s1)
    | .exit .sleep 1 => w4 .sleep s1
    | .exit .deep 3 => w4 .deep s1
    | _ => s1)

/-- Projected milliseconds from one stamp to another (R342). -/
def projectedMs (a b : Lts) (s : State) : Nat := (todAt b s / 1000000 - todAt a s / 1000000).toNat

/-- R104, R98, R236, R342: line time resumes at the whole superframe at or above the estimate, at the nominal rate; the
integrations restart, the history goes on at the record the resumed time gives, and passed scheduled commands are late. A command
has passed when the boundary at which it acts, not its EXEC_AT alone, lies below the resumed time (DESIGN CHOICE, log entry 19:
R102 against R104). -/
def resumeTime (s : State) : State :=
  let at_ : Lts := ⟨BitVec.ofNat 48 (estimateCeil s), 0⟩
  let ms := projectedMs ⟨s.time.sfEntry, 0⟩ at_ s
  let s1 := rateTo nominalRate { s with time := { s.time with lts := at_, running := true } }
  let s2 := incomplete 3 (restartIntegs (anchorTasks at_.sf s1))
  { s2 with
    hs := { s2.hs with seq := s2.hs.seq + ms, gap := true, senseGap := true, senseNew := true, acc := freshAcc s2 },
    q := { s2.q with
      pend := s2.q.pend.map fun p =>
        match mailbox p.cmd with
        | some x =>
          let gone := x.2.sched && p.due.lt at_
          { p with late := p.late || gone, passed := p.passed || gone }
        | none => p } }

/-- LINE_TIME_RESUME: W5. -/
def execLineTimeResume (s : State) : Out :=
  .next (match s.pwr.phase with
  | .exit o 4 => if domainsUp s then resumeTime (setPhase (.exit o 5) s) else s
  | _ => s)

/-- R365: the retained mode is restored, or, with the flag clear, forgotten. -/
def restoreMode (s : State) : State :=
  let s1 := { s with pwr := { s.pwr with restoreAt7 := false } }
  match s.line.recorded with
  | some m =>
    if !s.pwr.restoreAt7 || s.line.change.isSome then s1
    else if s.pwr.restoreWake then { s1 with line := { s1.line with change := some (restoreChange m s1) } }
    else { s1 with line := { s1.line with recorded := none } }
  | none => s1

/-- R353: the state an exit from SLEEP goes on to: IDLE at once; WATCH once the restored mode runs, which it records. -/
def thenEnter (r : PwrReq) (s : State) : State :=
  if r.target = .watch ∧ s.line.change.isSome then
    if s.pwr.heldReq.isSome then pwrRefuse r .refused s else { s with pwr := { s.pwr with heldReq := some r } }
  else startRequest r s

/-- WAKE_EXIT_COMPLETE: W7: RUN; the request that asked is answered; traffic is restored, the module goes on to the state the
request names, and a FREEZE_N still low acts (R398). -/
def execWakeExitComplete (s : State) : Out :=
  .next (match s.pwr.phase with
  | .exit o 6 =>
    if sequenceHeld s then s
    else
      let s1 := reached (stateCode o) .run { s with
        pwr := { s.pwr with bootVote := false, req := none, then_ := none }, hs := { s.hs with started := true } }
      let s2 := revote s1
      let s3 := match s.pwr.req with
        | some r => pwrReply r 4 false s2
        | none => s2
      let s4 := restoreMode s3
      let s5 := match s.pwr.then_ with
        | some r => thenEnter r s4
        | none => s4
      freezeIfLow (serveHeld s5)
  | _ => s)

/-! ### Restarts (R46, R79, R416) -/

/-- A restart from step 3 of R33 (R105): the effect of an exit from OFF, with MGMT powered; keys are zeroised, nothing pends. -/
def restartFromStep3 (s : State) : State :=
  let s1 := loseAll s
  let s2 := { s1 with pwr := { s1.pwr with
    closed := 3, powered := 3, attempts := 0, retryDue := false, wakeLatched := false } }
  setPhase (.boot 2) s2

/-- R79: every command still outstanding is discarded without a response; what it started goes on. -/
def discardCommands (s : State) : State :=
  let quiet (h : Hdr) : Hdr := { h with quiet := true, sched := false }
  { s with
    q := { s.q with
      waiting := [], outst := [], rspWait := [], rqTags := [],
      pend := [] },
    line := { s.line with change := s.line.change.map fun c => { c with hdr := none } },
    fe := { s.fe with restart := s.fe.restart.map fun r => { r with hdr := quiet r.hdr, late := false } },
    tx := { s.tx with restart := s.tx.restart.map fun r => { r with hdr := quiet r.hdr, late := false } },
    hl := { s.hl with lp := s.hl.lp.map fun x => (x.1, x.2.1, x.2.2.1, none) },
    ref := { s.ref with todWait := [] },
    hs := { s.hs with initing := s.hs.initing.map fun r => (r.1, none) },
    mm := s.mm.map fun c => if c.job.isSome then idleCtx c else c,
    pwr := { s.pwr with
      req := s.pwr.req.map fun r => { r with hdr := none }, heldReq := s.pwr.heldReq.filter fun r => r.hdr.isNone,
      then_ := s.pwr.then_.map fun r => { r with hdr := none } } }

/-- R79: only the warden restarts; the paths, the sedge engines and line time go on. -/
def restartWarden (s : State) : State :=
  let s1 := setReady false (discardCommands s)
  { s1 with flash := { s1.flash with wardenOnly := true, bootDue := true } }

/-- Whether the warden runs, or its boot ROM. -/
def wardenRuns (s : State) : Bool :=
  match s.pwr.phase with
  | .inert => false
  | .boot k => decide (3 ≤ k)
  | .steady .deep => false
  | .steady .off => false
  | .entry .deep _ => false
  | .entry .off _ => false
  | .exit .deep k => decide (2 ≤ k)
  | .orderlyOff => false
  | _ => true

/-- R79: the trial image has failed; its slot is not tried again, and the boot ROM runs once more: as part of the boot in
progress, or on its own where the module is past it. -/
def fallBack (s : State) : State :=
  let s1 := { s with aon := { s.aon with trial := false }, flash := { s.flash with trialRuns := true, awaiting := false } }
  match s.pwr.phase with
  | .boot _ => restartFromStep3 s1
  | .exit .deep _ => setPhase (.exit .deep 1) (setReady false s1)
  | _ => restartWarden s1

/-- FW_READY_TIMEOUT: READY has not returned within 10 s of an activation, on the warden's clock (R17, R79). -/
def execFwReadyTimeout (s : State) : Out :=
  .next (if s.flash.awaiting && !s.hif.ready && wardenPassed s.flash.awaitFrom 10 s then fallBack s else s)

/-- WARDEN_WATCHDOG_EXPIRE: with a trial image running a fall-back; otherwise CODE 0x06 is recorded. -/
def execWardenWatchdogExpire (s : State) : Out :=
  .next (if wardenRuns s && !s.hif.recovery && !s.flash.bootDue then
    if s.flash.trialRuns then fallBack s else recordFault 0x06 0 s
  else s)

/-- R372, R416: at most 512 entries of LOGSTAGE reach flash on the hold-up. -/
def flushHoldUp (s : State) : State := flushEntries 512 s

/-- R416: RESET_N acts: the actions of R372, every sluice but AON opens, and the module holds at step 1 without a fault. -/
def resetActs (s : State) : State :=
  let s1 := loseAll (flushHoldUp s)
  setPhase (.boot 1) { s1 with pwr := { s1.pwr with
    closed := 1, powered := 1, attempts := 0, retryDue := false, wakeLatched := false, wakeSpent := false } }

/-- RESET_ASSERT: below 1 us nothing happens; from 10 us on it acts; between, whether it acts is open, and free. An orderly off
in progress completes first. -/
def execResetAssert (lowNs : Nat) (s : State) : Out :=
  .next (if lowNs < 1000 ∨ s.pins.vsbValid = false then s
  else if decide (10000 ≤ lowNs) || (drawn s).getLsbD 0 then
    let s1 := nextDraw { s with pins := { s.pins with resetLow := true } }
    if s.pwr.phase = .orderlyOff then s1 else resetActs s1
  else nextDraw s)

/-- RESET_RELEASE: the sequence starts at step 2. -/
def execResetRelease (s : State) : Out :=
  let s1 := { s with pins := { s.pins with resetLow := false } }
  .next (if decide (s.pwr.phase = .boot 1) && s.pins.vsbValid && s.pins.resetLow then setPhase (.boot 2) s1 else s1)

/-- PCIE_PERST: only the endpoint's link and configuration space reset; whether the host has enabled MSI-X again is the
host's (R417). While RESET_N is low it has no effect (R416). -/
def execPciePerst (msixEnabled : Bool) (s : State) : Out :=
  .next (if s.pins.resetLow || !s.pins.vsbValid then s
  else { s with hif := { s.hif with msixEnable := msixEnabled, msixMask := 0xF, msixPending := 0 } })

end Sys2Proof.Machine
end

