-- ==== Sys2Proof/Machine/Wake.lean ====
section
/-! DEFINITION. Wake sources and the entry window (R54, R361, R362, R445), the acceptance of a wake (R363), the fen watch (R368),
and the power commands (R353, R375, R440). -/
namespace Sys2Proof.Machine

open Sys2Proof

/-! ### Wake events (R361, R445) -/

/-- R361: the states a source of R54 wakes from. -/
def wakesFrom (k : Nat) (st : PState) : Bool :=
  match st with
  | .sleep => decide (k ≤ 2)
  | .deep => decide (k ≤ 2)
  | .off => decide (k ≤ 2) || decide (k = 4)
  | .watch => decide (k ≤ 3)
  | .run => false
  | .idle => false

/-- A wake event names RUN (R367). -/
def wakeRequest (s : State) : PwrReq := { target := .run, hdr := none, due := nowLts s, wasHeld := false, late := false }

/-- A source becomes active (bit k of R54): in a state it wakes from it sets its bit and asks for RUN, or is latched while VIN_OK
is 0; during a transition it sets its bit and is held; in every other case it is not remembered. -/
def wake (k : Nat) (s : State) : State :=
  if !s.aon.wakeEn.getLsbD k || !s.pins.vsbValid then s
  else
    let s1 := { s with aon := { s.aon with wakeSrc := s.aon.wakeSrc ||| (1 <<< k) } }
    match s.pwr.phase with
    | .steady st =>
      if inTransition s then holdRequest (wakeRequest s) s1
      else if wakesFrom k st then
        if s.aon.vinOk then powerRequest (wakeRequest s) s1 else { s1 with pwr := { s1.pwr with wakeLatched := true } }
      else s
    | .exit _ _ => holdRequest (wakeRequest s) s1
    | .orderlyOff => holdRequest (wakeRequest s) s1
    | _ => s

/-- WAKE_PIN: WAKE_N low for at least 2 always-on cycles; a level, new only after it has been inactive (R364). -/
def execWakePin (low : Bool) (cycles : Nat) (s : State) : Out :=
  .next (
    if low then
      if cycles < 2 ∨ s.pins.wakeLow then s
      else
        let s1 := { s with pins := { s.pins with wakeLow := true } }
        if s.pins.resetLow then s1 else wake 0 s1
    else { s with pins := { s.pins with wakeLow := false }, pwr := { s.pwr with wakeSpent := false } })

/-- TIMER_WAKE: the always-on count has come to AON_WAKE_AT. -/
def execTimerWake (s : State) : Out :=
  .next (if s.pins.vsbValid then
    wake 2 { s with aon := { s.aon with
      timer := s.aon.wakeAt, wraps := if s.aon.wakeAt.toNat < s.aon.timer.toNat then s.aon.wraps + 1 else s.aon.wraps } }
  else s)

/-- AON_TIMER_WRAP: the count wraps to zero, and the wrap count advances (R108). -/
def execAonTimerWrap (s : State) : Out :=
  .next (if s.pins.vsbValid then { s with aon := { s.aon with timer := 0, wraps := s.aon.wraps + 1 } } else s)

/-- SUPPLY_WAKE: VIN12 held at or above 11.4 V for 100 ms clears C5 and the levels above it, and once armed raises the SUPPLY
source (R371, R361). -/
def execSupplyWake (mv : Nat) (s : State) : Out :=
  let s1 := measureVin mv s
  .next (if decide (11400 ≤ mv) && s.pins.vsbValid then
    let s2 := { s1 with pins := { s1.pins with vinHeld := true } }
    let s3 := if s.aon.coppice = 5 ∧ s.pwr.phase ≠ .orderlyOff then
        { s2 with aon := { s2.aon with coppice := 0 }, pwr := { s2.pwr with shed := 0 } }
      else s2
    if decide (s.pwr.phase = .steady .off) && s.aon.supplyArmed && s.aon.wakeEn.getLsbD 4 then
      wake 4 { s3 with aon := { s3.aon with supplyArmed := false } }
    else s3
  else s1)

/-- VIN_OK_CHANGE: AON_STATE.VIN_OK follows; a fall below 11.4 V in OFF arms SUPPLY. -/
def execVinOkChange (mv : Nat) (s : State) : Out :=
  let s1 := measureVin mv s
  .next (if decide (mv < 11400) && decide (s.pwr.phase = .steady .off) then
    { s1 with aon := { s1.aon with supplyArmed := true } }
  else s1)

/-! ### The entry window and the exit (R362, R363) -/

/-- R362: level sources are sampled at the end of the window. -/
def sampleLevels (s : State) : State :=
  let s1 := if s.pins.wakeLow && !s.pwr.wakeSpent && !s.pins.resetLow then wake 0 s else s
  if decide (s.pwr.phase = .steady .off) && s.aon.supplyArmed && s.aon.wakeEn.getLsbD 4 && s.pins.vinHeld && decide (11400 ≤ s.pins.vinMv) then
    wake 4 { s1 with aon := { s1.aon with supplyArmed := false } }
  else s1

/-- R440: the answer once a low state has been reached: a request whose exit failed names the state it came from. -/
def entryAnswer (target origin : PState) (s : State) : State :=
  match s.pwr.req with
  | none => s
  | some r =>
    let s1 := { s with pwr := { s.pwr with req := none } }
    if target = origin then
      match r.hdr with
      | some h => answerLate r.late
          (respond 0x0201 h .timeout (result [fld 16 1 (stateCode target), fld 17 1 (boolBit r.wasHeld 0)]) none) s1
      | none => s1
    else pwrReply r (stateCode target) false s1

/-- ENTRY_WINDOW_END: the state is reached, the request answered, a held one evaluated, and active levels wake; in WATCH the
first fen-watch window begins (R368). -/
def execEntryWindowEnd (s : State) : Out :=
  .next (match s.pwr.phase with
  | .entry target origin =>
    let s1 := if target = origin then setPhase (.steady target) s else reached (stateCode origin) target s
    let s2 := { s1 with pwr := { s1.pwr with watchNext := if target = .watch then nowSf s else s1.pwr.watchNext } }
    sampleLevels (serveHeld (entryAnswer target origin s2))
  | _ => s)

/-- WAKE_ACCEPT: W1: the exit begins; from OFF it is the cold start. -/
def execWakeAccept (s : State) : Out :=
  .next (match s.pwr.req with
  | none => s
  | some r =>
    if r.target ≠ .run then s
    else
      match s.pwr.phase with
      | .steady .sleep => setPhase (.exit .sleep 1) s
      | .steady .deep =>
        let s1 := setPhase (.exit .deep 1) { s with pwr := { s.pwr with req := none, attempts := 0, retryDue := false } }
        if sequenceHeld s1 then s1 else closeDom .mgmt s1
      | .steady .off => setPhase (.boot 1) { s with pwr := { s.pwr with req := none } }
      | _ => s)

/-- WATCH_EXIT: at the boundary the module enters the state asked for and restores the mode recorded at entry; a deferred mode
change that is due comes first (R119). -/
def execWatchExit (s : State) : Out :=
  .next (match s.pwr.req with
  | none => s
  | some r =>
    if decide (s.pwr.phase = .steady .watch) && (decide (r.target = .run) || decide (r.target = .idle)) && r.due.le (nowLts s)
        && ticking s && s.line.change.isNone then
      let s1 := { s with pwr := { s.pwr with req := none, watchOpen := false, lightActive := false } }
      if deferredSet s then (if s.pwr.heldReq.isSome then pwrRefuse r .refused s1 else holdRequest r s1)
      else
        let s2 := pwrReply r (stateCode r.target) false (reached 5 r.target s1)
        let s3 := match s2.line.recorded with
          | some m => if s2.aon.coppice < 4 then { s2 with line := { s2.line with change := some (restoreChange m s2) } } else s2
          | none => txAdvance 1 s2
        serveHeld (revote s3)
    else s)

/-! ### The fen watch (R368) -/

/-- The start of the watch window that a superframe falls in, or the next one. -/
def windowStart (s : State) : Nat :=
  let a := s.pwr.watchNext.toNat
  a + (s.time.lts.sf.toNat - a) / s.pwr.watchPeriod * s.pwr.watchPeriod

/-- FEN_WATCH_WINDOW: a window opens each WATCH_PERIOD for 16 superframes; LIGHT is active until its end, and after a whole
window without light PWR_LIGHT may be raised again. Level C4 suspends the fen watch (R373). -/
def execFenWatchWindow (s : State) : Out :=
  .next (if !(decide (s.pwr.phase = .steady .watch) && ticking s && decide (s.aon.coppice < 4)) then s
  else if s.pwr.watchOpen then
    if s.pwr.watchNext.toNat + 16 ≤ s.time.lts.sf.toNat then
      { s with pwr := { s.pwr with
        watchOpen := false, lightActive := false, lightSaid := s.pwr.lightSaid && s.pwr.watchLight, watchRun := 0,
        watchCmp := none,
        watchNext := s.pwr.watchNext + BitVec.ofNat 48 s.pwr.watchPeriod } }
    else s
  else if s.time.lts.sf.toNat < s.pwr.watchNext.toNat then s
  else if s.time.lts.sf.toNat < windowStart s + 16 then
    { s with pwr := { s.pwr with
      watchOpen := true, watchNext := BitVec.ofNat 48 (windowStart s), watchRun := 0, watchCmp := none,
      watchLight := false } }
  else { s with pwr := { s.pwr with watchNext := BitVec.ofNat 48 (windowStart s + s.pwr.watchPeriod) } })

/-- Light is detected: with LIGHT enabled a wake, otherwise PWR_LIGHT, once until a whole window has passed without light. -/
def lightSeen (power : Int) (s : State) : State :=
  let s1 := { s with pwr := { s.pwr with watchLight := true, lightActive := true } }
  if s.aon.wakeEn.getLsbD 3 then (if s.pwr.lightActive then s1 else wake 3 s1)
  else if s.pwr.lightSaid then s1
  else notify 0x0202 noInstance none (ev [fld 20 2 (powerField power)]) { s1 with pwr := { s1.pwr with lightSaid := true } }

/-- FEN_WATCH_COMPARE: once per superframe, the input power, in 0.01 dBm, against the threshold of R128 plus 1.0 dB; two in a row
detect light. -/
def execFenWatchCompare (power : Int) (s : State) : Out :=
  .next (if decide (s.pwr.phase = .steady .watch) && ticking s && decide (s.aon.coppice < 4) && s.pwr.watchOpen &&
      decide (s.time.lts.sf.toNat < s.pwr.watchNext.toNat + 16) && decide (s.pwr.watchCmp ≠ some s.time.lts.sf) then
    let n := if s.fe.losThr * 10 + 100 < power then s.pwr.watchRun + 1 else 0
    let s1 := { s with fe := { s.fe with power := power }, pwr := { s.pwr with watchRun := n, watchCmp := some s.time.lts.sf } }
    if 2 ≤ n then lightSeen power s1 else s1
  else s)

/-! ### Power commands (R375) -/

/-- PWR.STATE_SET. -/
def execPwrStateSet (h : Hdr) (target : Byte) (s : State) : Out :=
  command 0x0201 h s
    (match codeState target.toNat with
    | none => refuse 0x0201 h .badArg
    | some st => fun s =>
      powerRequest { target := st, hdr := some h, due := nowLts s, wasHeld := false, late := s.q.acting = some true } s)

/-- PWR.STATUS: the draw is a free value; the lowest VIN12 starts anew. -/
def execPwrStatus (h : Hdr) (s : State) : Out :=
  command 0x0202 h s fun s =>
    let p := s.pwr
    let flags := boolBit p.heldReq.isSome 0 + boolBit p.restoreC4 1 + boolBit p.restoreWake 2 + boolBit p.thermal 3
    reply 0x0202 h
      ([fld 16 1 (phaseCode p.phase), fld 17 1 (phaseTarget p.phase), fld 18 1 s.aon.coppice, fld 19 1 p.powered.toNat,
        fld 20 1 p.held.toNat, fld 21 1 p.hostVotes.toNat, fld 22 1 s.aon.wakeSrc.toNat, fld 23 1 flags,
        fld 24 2 s.pins.vinMv, fld 26 2 s.pins.vsbMv, fld 28 2 (free 0 s), fldI 30 2 s.pins.caseTemp]
        ++ (List.range 5).map (fun i => fld (32 + 4 * i) 4 (p.sets.getD i 0).toNat)
        ++ [fld 52 2 s.pins.lowestVin, fld 56 6 p.lastChange.toNat])
      (nextDraw { s with pins := { s.pins with lowestVin := s.pins.vinMv } })

/-- PWR.CONFIG. -/
def execPwrConfig (h : Hdr) (period : Half) (flags : Byte) (s : State) : Out :=
  command 0x0204 h s
    (guarded 0x0204 h
      [(!reservedClear flags 7 || (decide (period ≠ 0) && decide (period.toNat < 256)), .badArg)]
      fun s => done 0x0204 h { s with pwr := { s.pwr with
        watchPeriod := if period = 0 then 16384 else period.toNat, restoreC4 := bitOf flags 0, restoreWake := bitOf flags 1,
        notifyCop := bitOf flags 2 } })

end Sys2Proof.Machine
end

