-- ==== Sys2Proof/Machine/Supply.lean ====
section
/-! DEFINITION. Coppicing levels C1 to C5 (R369 to R373), the orderly off (R372), and case temperature (R374). -/
namespace Sys2Proof.Machine

open Sys2Proof

/-! ### Thresholds (R370) -/

/-- The deepest level whose threshold a voltage, in mV, lies below. -/
def levelBelow (mv : Nat) : Nat :=
  if mv < 9600 then 5 else if mv < 10200 then 4 else if mv < 10600 then 3 else if mv < 10900 then 2
  else if mv < 11200 then 1 else 0

/-- The voltage, in mV, at or above which a level clears. -/
def clearsAtMv (level : Nat) : Nat :=
  match level with
  | 1 => 11350 | 2 => 11050 | 3 => 10750 | 4 => 10350 | _ => 11400

/-- R376: PWR_COPPICE, for C1 to C4. -/
def coppiceNote (level : Nat) (set : Bool) (deepest : Nat) (s : State) : State :=
  if s.pwr.notifyCop && decide (level ≤ 4) then
    notify 0x0201 (BitVec.ofNat 16 level) (some set) (ev [fld 20 2 s.pins.vinMv, fld 22 1 deepest]) s
  else s

/-! ### The orderly off (R372) -/

/-- A request that C5 discards completes with REFUSED; a wake event keeps its bit. -/
def discardRequests (s : State) : State :=
  let drop (r : Option PwrReq) (s : State) : State := match r with | some r => pwrRefuse r .refused s | none => s
  let s1 := drop s.pwr.then_ (drop s.pwr.heldReq (drop s.pwr.req s))
  { s1 with pwr := { s1.pwr with req := none, heldReq := none, then_ := none } }

/-- C5 outside OFF: the output is dark, line time ends, and with it the notifications and interrupts held for it (R430, R447),
requests are discarded; LOGSTAGE goes to flash with an entry for the orderly off. -/
def orderlyOff (s : State) : State :=
  let s1 := discardRequests (changeInterrupt (if s.dbg.frozen then freezeEnd s else s))
  let s2 := txDark 5 (logEntry 10 0x0205 (some 0x0201) [5] s1)
  let s3 := flushLog (logEntry 11 0x0200 none [] (flushHoldUp (if s2.time.running then endHolds (releaseAll s2) else s2)))
  setPhase .orderlyOff (setReady false { s3 with
    time := { s3.time with running := false, sfEntry := if s.time.running then s.time.lts.sf else (untimedStamp s).sf } })

/-- ORDERLY_OFF_DONE: the merge buffer and the keys are gone, every sluice but AON opens; CODE 0x03 is recorded, SUPPLY armed,
and the module is in OFF, or, with RESET_N low, at step 1 (R416). A wake that arrived meanwhile is evaluated. -/
def execOrderlyOffDone (s : State) : Out :=
  .next (if s.pwr.phase = .orderlyOff then
    let s1 := loseAll s
    let s2 := recordFault 0x03 0 { s1 with
      aon := { s1.aon with supplyArmed := true },
      pwr := { s1.pwr with closed := 1, powered := 1, attempts := 0, retryDue := false, lastChange := s.time.sfEntry } }
    if s.pins.resetLow then setPhase (.boot 1) s2
    else
      let s3 := setPhase (.steady .off) s2
      if s.pwr.heldReq.isSome then
        if s3.aon.vinOk then powerRequest (wakeRequest s3) s3 else { s3 with pwr := { s3.pwr with wakeLatched := true } }
      else s3
  else s)

/-! ### A level sets (R369, R370) -/

/-- One more level is set. -/
def setLevel (deepest : Nat) (s : State) (level : Nat) : State :=
  coppiceNote level true deepest { s with pwr := { s.pwr with sets := modAt s.pwr.sets (level - 1) (· + 1) } }

/-- What C4 does at once: the laser current is cut, a mode change ends (R119), and freeze ends (R30). -/
def cutAtC4 (s : State) : State := txDark 5 (changeInterrupt (if s.dbg.frozen then freezeEnd s else s))

/-- C5 has no work to shed before the first sluice has closed, nor in OFF. -/
def c5Acts (s : State) : Bool :=
  match s.pwr.phase with
  | .inert => false
  | .boot _ => domIn s.pwr.closed .mgmt
  | .steady .off => false
  | .orderlyOff => false
  | _ => true

/-- COPPICE_SET: VIN12 has stayed below a threshold for 50 us: the level and every shallower one set. -/
def execCoppiceSet (mv : Nat) (s : State) : Out :=
  let old := s.aon.coppice
  let new := max old (levelBelow mv)
  .next (if s.pins.vsbValid = false then s
  else
    let s1 := measureVin mv s
    if new = old then s1
    else
      let s2 := { s1 with aon := { s1.aon with coppice := new } }
      let s3 := ((List.range (new - old)).map (· + (old + 1))).foldl (setLevel new) s2
      if new = 5 then (if c5Acts s then orderlyOff s3 else s3)
      else if 4 ≤ new then cutAtC4 s3
      else s3)

/-! ### Shedding (R370, R373) -/

/-- C3: an Osier link that carries no tributary goes to L2; the ageing monitor pauses; votes are counted (R304, R327). -/
def shed3 (s : State) : State :=
  let s1 := if s.hl.osier && s.hl.ports.isEmpty && !zrNow s then linkHold .l2 4 s else s
  revote (agePause true s1)

/-- C4: traffic: the chains stop, the mode is recorded, every lane goes off or to L2, LINE is held and the other domains drop;
the merge buffer and the log are written. In WATCH the fen watch is suspended. -/
def shed4 (s : State) : State :=
  let s1 := stopTx (stopRx 2 (endRestarts s))
  let s2 := linkShutdown (flushLog (mergeFlushAll s1))
  revote { s2 with
    line := { s2.line with
      recorded := if s.line.cur.isSome then s.line.cur else s2.line.recorded, cur := none },
    hl := if zrNow s then { s2.hl with ports := [] } else s2.hl,
    pwr := { s2.pwr with watchOpen := false, lightActive := false } }

/-- The work of one level. -/
def shedLevel (s : State) (level : Nat) : State :=
  match level with
  | 1 => capAbort true s
  | 2 => incomplete 4 (stopSwaps s)
  | 3 => shed3 s
  | 4 => shed4 s
  | _ => s

/-- R34, R373: the states in which the levels act as in RUN: RUN, IDLE and WATCH, and a boot or an exit from its warden's start
on. -/
def shedsAsRun (s : State) : Bool :=
  voting s || match s.pwr.phase with
    | .boot k => decide (3 ≤ k)
    | .exit .deep k => decide (2 ≤ k)
    | .exit _ _ => true
    | _ => false

/-- COPPICE_SHED: at the boundary the work of the levels set since is shed; in SLEEP, C4 stops the TEC and flushes the log; in
freeze C1 to C3 wait (R30). An entry continues, and what its levels shed waits for the state it leads to. -/
def execCoppiceShed (s : State) : Out :=
  let mark (s : State) : State := { s with pwr := { s.pwr with shed := s.aon.coppice } }
  .next (if s.aon.coppice ≤ s.pwr.shed ∨ s.dbg.frozen ∨ taskHeld .power s ∨ (ticking s ∧ s.time.lts.sym ≠ 0) then s
  else
    let levels := (List.range (min s.aon.coppice 4 - s.pwr.shed)).map (· + (s.pwr.shed + 1))
    if shedsAsRun s then levels.foldl shedLevel (mark s)
    else if inSleep s then if 4 ≤ s.aon.coppice then flushLog (revote (mark s)) else mark s
    else s)

/-! ### A level clears (R369, R371) -/

/-- The level left when the conditions of those above it hold, deepest first. -/
def levelLeft (mv : Nat) : Nat → Nat
  | 0 => 0
  | n + 1 => if clearsAtMv (n + 1) ≤ mv then levelLeft mv n else n + 1

/-- R371: the mode in effect when C4 set is restored, unless C4 interrupted a mode change or the flag is clear. -/
def restoreAfterC4 (s : State) : State :=
  if !inTraffic s || s.line.cur.isSome || s.line.change.isSome || s.pwr.req.isSome || s.pwr.c4Change then s
  else
    match s.line.recorded with
    | some m =>
      if s.pwr.restoreC4 then { s with line := { s.line with change := some (restoreChange m s) } }
      else { s with line := { s.line with recorded := none } }
    | none => s

/-- R304: the lanes return once C3, or C4, has cleared. -/
def lanesBack (s : State) : State :=
  if s.dbg.frozen || zrNow s || !hostPowered s then s
  else if decide (s.aon.coppice < 3) || !s.hl.ports.isEmpty then linkReturn 4 s
  else s

/-- R34, R363: a boot or an exit goes on when the last level clears. -/
def sequenceGoesOn (s : State) : State :=
  if decide (s.pwr.phase = .exit .deep 1) && !domIn s.pwr.closed .mgmt && !s.pwr.retryDue && !sequenceHeld s then
    closeDom .mgmt s
  else revote s

/-- The work of the levels cleared resumes. -/
def resumeWork (old new : Nat) (s : State) : State :=
  let s1 := { s with pwr := { s.pwr with shed := min s.pwr.shed new } }
  let s2 := if decide (4 ≤ old) && decide (new < 4) then restoreAfterC4 s1 else s1
  let s3 := if decide (3 ≤ old) && decide (new < old) then lanesBack s2 else s2
  if s3.dbg.frozen then s3 else if voting s3 || inSleep s3 then revote s3 else sequenceGoesOn s3

/-- COPPICE_CLEAR: VIN12 has stayed above clear thresholds for 100 ms; the levels clear deepest first. -/
def execCoppiceClear (mv : Nat) (s : State) : Out :=
  let old := s.aon.coppice
  let new := levelLeft mv old
  .next (if s.pins.vsbValid = false ∨ s.pwr.phase = .orderlyOff then s
  else
    let s1 := measureVin mv s
    if new = old then s1
    else
      let s2 := ((List.range (old - new)).map fun i => old - i).foldl (fun s level =>
        coppiceNote level false (level - 1) { s with aon := { s.aon with coppice := level - 1 } }) s1
      resumeWork old new s2)

/-! ### Temperature (R374) -/

/-- R17, R374: since when, on the warden's clock, every measurement has been at or above 85 °C. -/
def hotSince (temp : Int) (s : State) : Option Nat :=
  if 8500 ≤ temp then some (s.pwr.hotFrom.getD s.time.wardenNs) else none

/-- R374: the dwell of 1 s at or above 85 °C has run. -/
def hotLong (s : State) : Bool := match s.pwr.hotFrom with | some a => wardenPassed a 1 s | none => false

/-- CASE_TEMP_MEASURE: while MGMT is powered and the warden runs, in 0.01 °C. -/
def execCaseTempMeasure (temp : Int) (s : State) : Out :=
  .next (if wardenRuns s && domIn s.pwr.powered .mgmt then
    let warn := if 7800 ≤ temp then true else if temp < 7600 then false else s.pwr.thermal
    let s1 := { s with
      pins := { s.pins with caseTemp := temp }, pwr := { s.pwr with thermal := warn, hotFrom := hotSince temp s } }
    if warn = s.pwr.thermal then s1 else notify 0x0203 noInstance (some warn) (ev [fldI 20 2 temp]) s1
  else s)

/-- OVERTEMP_SHUTDOWN: after 1 s at or above 85 °C the module acts as at C4, enters DEEP, and records CODE 0x04. -/
def execOvertempShutdown (s : State) : Out :=
  .next (if hotLong s && decide (8500 ≤ s.pins.caseTemp) && wardenRuns s && domIn s.pwr.powered .mgmt then
    let s1 := if s.dbg.frozen then freezeEnd s else s
    let s2 := changeInterrupt { s1 with pwr := { s1.pwr with req := none, then_ := none, restoreAt7 := false } }
    let s3 := if s2.time.running || (match s.pwr.phase with | .boot _ => false | _ => true) then s2
      else { s2 with time := { s2.time with sfEntry := 0, entryRate := nominalRate, entryTimer := extTimer s2 } }
    recordFault 0x04 0 (lowEntry .deep 8 none s3)
  else s)

end Sys2Proof.Machine
end

