-- ==== Sys2Proof/Machine/System.lean ====
section
/-! DEFINITION. The warden's own services: SYS_, the check-value unit (R67 to R71, R431, R432, R442), flash, firmware and the
log (R72 to R83), and the schedules of the sedge engines (R22, R23, R26, R106, R107). -/
namespace Sys2Proof.Machine

open Sys2Proof

/-! ### System commands (R67) -/

def variantCode : Variant → Nat
  | .c => 0 | .l => 1 | .cn => 2

/-- The security version of the running image. -/
def runningSecurity (s : State) : Nat := match slotImage s.aon.running s with | some i => i.security | none => 0

/-- SYS.IDENTIFY. -/
def execSysIdentify (h : Hdr) (s : State) : Out :=
  query 0x0101 h s
    [fld 16 2 0x2400, fld 18 1 2, fld 19 1 (variantCode s.ident.variant), fld 20 4 s.hif.fwver.toNat,
     fld 24 1 (runningSecurity s), fld 25 1 s.aon.running.toNat, (26, padTo 16 s.ident.serial),
     fld 42 4 s.ident.boots.toNat]

/-- A pending scheduled command with a tag. -/
def schedTagged (target : Half) (p : Pend) : Bool :=
  match mailbox p.cmd with
  | some x => x.2.sched && decide (x.2.tag = target) && !p.bundled
  | none => false

/-- SYS.CANCEL: the cancelled command answers REFUSED, and its tag is free. -/
def execSysCancel (h : Hdr) (target : Half) (s : State) : Out :=
  command 0x0102 h s fun s =>
    match s.q.pend.find? (schedTagged target) with
    | some p =>
      let s1 := { s with q := { s.q with pend := s.q.pend.filter fun x => !schedTagged target x } }
      done 0x0102 h (match mailbox p.cmd with
        | some x => answerLate false (refuse x.1 x.2 .refused) s1
        | none => s1)
    | none =>
      if s.q.outst.any fun o => o.sched && !o.answered && decide (o.tag = target) && decide (o.tag ≠ h.tag)
          && !(s.q.waiting.any fun w => decide (w.ord = o.ord)) then
        refuse 0x0102 h .busy s
      else refuse 0x0102 h .badArg s

/-! ### Flash contents (R72) -/

/-- The first block of a firmware slot. -/
def slotBlock (b : Bool) : Nat := flashFirst (if b then 2 else 1)

/-- The staged or shipped contents of a slot are listed in the model's flash. -/
def slotListed (b : Bool) (s : State) : Bool :=
  s.flash.mem.any fun c => decide (slotBlock b ≤ c.1 / blockBytes) && decide (c.1 / blockBytes < slotBlock b + 512)

/-- The number, in the order of writing, of the entry at place `j` of the LOG region. -/
def logNumber (j : Nat) (f : Flash) : Nat := f.logCount - f.log.length + j

/-- A byte of the LOG ring. -/
def logByte (a : Nat) (s : State) : Byte :=
  let f := s.flash
  let here (j : Nat) : Bool :=
    let n := logNumber j f
    decide (logBlockAt n f = logFirst + a / blockBytes) && decide (n % logPerBlock = a % blockBytes / 64)
  match ((List.range f.log.length).find? here).bind fun j => f.log[j]? with
  | some e => byteAt (logBytes (f.badChecks.contains e.seq.toNat) e) (a % 64)
  | none => 0xFF

/-- A byte of a flash region as it reads. What the warden keeps in the other regions, and the bytes of an image that was not
staged, the spec does not lay out: they are free. -/
def flashByte (r a : Nat) (s : State) : Byte :=
  let at_ := flashFirst r * blockBytes + a
  let slot (b : Bool) : Byte :=
    if (slotImage b s).isSome && !slotListed b s then BitVec.ofNat 8 (free a s) else memRead 0xFF s.flash.mem at_
  if r = 1 then slot false
  else if r = 2 then slot true
  else if r = 5 then logByte a s
  else BitVec.ofNat 8 (free a s)

/-! ### The check-value unit -/

/-- R68: the parameters of a profile. -/
def cvParams (n : Nat) (s : State) : CvParams :=
  if n = 0 then cvp0 else if n = 1 then cvp1 else if n = 2 then cvp2 else s.cv.p3

def cvCtx (c : Byte) (s : State) : CvCtx := s.cv.ctx.getD c.toNat ⟨false, 0, 0, 0⟩

def setCvCtx (c : Byte) (x : CvCtx) (s : State) : State := { s with cv := { s.cv with ctx := setAt s.cv.ctx c.toNat x } }

/-- R431: a CV.RUN waits or runs on a context. -/
def cvRunning (c : Byte) (s : State) : Bool :=
  s.cv.jobs.any fun j =>
    match j.cmd with
    | .cvRun _ _ mode ctx _ _ _ _ => decide (mode ≠ 0) && decide (ctx = c)
    | _ => false

def cvWidth (w : Byte) : Bool := decide (w = 8) || decide (w = 16) || decide (w = 32) || decide (w = 64)

/-- CV.CONFIG (R432). -/
def execCvConfig (h : Hdr) (profile width flags : Byte) (poly init xorOut : Dword) (s : State) : Out :=
  let fits (v : Dword) : Bool := decide (v.toNat < 2 ^ width.toNat)
  command 0x0E01 h s
    (guarded 0x0E01 h
      [(decide (profile ≠ 3) || !cvWidth width || !reservedClear flags 3 || !fits poly || !fits init || !fits xorOut, .badArg),
       (s.cv.ctx.any fun c => c.job && decide (c.profile = 3), .busy)]
      fun s => done 0x0E01 h { s with cv := { s.cv with
        p3 := ⟨width.toNat, poly.toNat, init.toNat, bitOf flags 0, bitOf flags 1, xorOut.toNat⟩ } })

/-- The length of a source region: flash (R72) or store (R330). -/
def cvRegionBytes (src region : Byte) : Nat :=
  if src = 0 then flashRegions.getD region.toNat 0 * blockBytes
  else if region.toNat < 6 then (regionFirst (region.toNat + 1) - regionFirst region.toNat) * 4096 else 0

/-- A source outside its region, or no region at all. -/
def cvSourceBad (src region : Byte) (offset len : Nat) : Bool :=
  decide (cvRegionBytes src region = 0) || decide (cvRegionBytes src region < offset + len)

/-- R431: the refusals of CV.RUN. -/
def cvRunCheck (h : Hdr) (profile mode ctx src region : Byte) (offset : Dword) (len : Word) (s : State) : List (Bool × St) :=
  let c := cvCtx ctx s
  let uses := decide (mode ≠ 0)
  [(decide (3 < profile.toNat) || decide (3 < mode.toNat) || decide (2 < src.toNat) || (uses && decide (5 < ctx.toNat)), .badArg),
   (decide (src = 2) && (!h.buf || decide (len ≠ 0)), .badArg),
   (decide (src ≠ 2) && cvSourceBad src region offset.toNat len.toNat, .badArg),
   (uses && cvRunning ctx s, .busy),
   (decide (mode = 1) && c.job, .busy),
   ((decide (mode = 2) || decide (mode = 3)) && (!c.job || decide (c.profile ≠ profile.toNat)), .badArg)]

/-- R431: a MODE 3 that completes with a refusal ends its context's job too; one turned away because another CV.RUN computes on
the context leaves it (DEDUCED, log entry 22). -/
def cvRunEnds (mode ctx : Byte) (s : State) : State :=
  if mode = 3 ∧ ctx.toNat ≤ 5 ∧ cvRunning ctx s = false then setCvCtx ctx ⟨false, 0, 0, 0⟩ s else s

/-- CV.RUN: the job is queued; MODE 1 starts its context (R69, R431). -/
def execCvRun (h : Hdr) (profile mode ctx src region : Byte) (offset : Dword) (len : Word) (s : State) : Out :=
  command 0x0E02 h s fun s =>
    match firstFail (cvRunCheck h profile mode ctx src region offset len s) with
    | some st => refuse 0x0E02 h st (cvRunEnds mode ctx s)
    | none =>
      let s1 := if mode = 1 then setCvCtx ctx ⟨true, profile.toNat, (cvParams profile.toNat s).init, 0⟩ s else s
      { s1 with cv := { s1.cv with
          jobs := s1.cv.jobs ++ [⟨.cvRun h profile mode ctx src region offset len, s.q.acting = some true⟩] } }

/-- R70, R442: bytes 0 to 23 of a context. -/
def cvCtxHead (profile : Nat) (p : CvParams) (rem bytes : Nat) : List Byte :=
  leBytes 1 profile ++ leBytes 1 p.width ++ leBytes 1 (boolBit p.refIn 0 + boolBit p.refOut 1) ++ List.replicate 5 0
    ++ leBytes 8 rem ++ leBytes 8 bytes

/-- R70: the 32 bytes of a context. -/
def cvCtxBytes (profile : Nat) (p : CvParams) (rem bytes : Nat) : List Byte :=
  let b := cvCtxHead profile p rem bytes ++ leBytes 4 (check0 (paramBytes p))
  b ++ leBytes 4 (check0 b)

/-- CV.CTX_READ; what an idle context holds is open, and free. -/
def execCvCtxRead (h : Hdr) (ctx : Byte) (s : State) : Out :=
  command 0x0E03 h s
    (guarded 0x0E03 h [(decide (5 < ctx.toNat) || !h.buf, .badArg), (cvRunning ctx s, .busy)] fun s =>
      let c := cvCtx ctx s
      let p := cvParams c.profile s
      if c.job then respond 0x0E03 h .ok [] (some (cvCtxBytes c.profile p c.rem c.bytes)) s
      else respond 0x0E03 h .ok [] (some (cvCtxBytes c.profile p (free 0 s % 2 ^ p.width) (free 1 s))) (drawMany 2 s))

/-- CV.CTX_WRITE (R442). Bytes 24 to 27 of a context whose byte 0 names no profile are compared with the parameters of CVP3 (DESIGN
CHOICE, log entry 22). -/
def execCvCtxWrite (h : Hdr) (ctx : Byte) (s : State) : Out :=
  let b := bufData h s
  let n := (byteAt b 0).toNat
  let p := cvParams n s
  let sound := decide (fieldAt b 24 4 = check0 (paramBytes p)) && decide (fieldAt b 28 4 = check0 (slice b 0 28))
  command 0x0E04 h s
    (guarded 0x0E04 h
      [(decide (5 < ctx.toNat) || !h.buf || decide (h.length ≠ 32), .badArg), (cvRunning ctx s, .busy), (!sound, .integrity),
       (decide (3 < n) || decide (byteAt b 1 ≠ BitVec.ofNat 8 p.width)
          || decide ((byteAt b 2).toNat ≠ boolBit p.refIn 0 + boolBit p.refOut 1)
          || decide (fieldAt b 3 5 ≠ 0) || decide (2 ^ p.width ≤ fieldAt b 8 8), .badArg)]
      fun s => done 0x0E04 h (setCvCtx ctx ⟨true, n, fieldAt b 8 8, fieldAt b 16 8⟩ s))

/-- Blocks of a scan; the last may be short (log entry 22). -/
def scanBlocks (blk : Byte) (len : Nat) : Nat := (len + 2 ^ blk.toNat - 1) / 2 ^ blk.toNat

/-- CV.SCAN: the job is queued; INTEGRITY once after a table of values has been lost with a page of WORK (R339). -/
def execCvScan (h : Hdr) (profile src region blk : Byte) (offset len : Dword) (action : Byte) (work : Dword) (s : State) : Out :=
  let table := scanBlocks blk len.toNat * ((cvParams profile.toNat s).width / 8)
  command 0x0E05 h s
    (guarded 0x0E05 h
      [(decide (3 < profile.toNat) || decide (1 < src.toNat) || decide (blk.toNat < 9) || decide (20 < blk.toNat)
          || decide (1 < action.toNat) || cvSourceBad src region offset.toNat len.toNat, .badArg),
       (decide (1073741824 < work.toNat + table), .noResource)]
      fun s =>
        if s.cv.damaged then refuse 0x0E05 h .integrity { s with cv := { s.cv with damaged := false } }
        else { s with cv := { s.cv with
        jobs := s.cv.jobs ++ [⟨.cvScan h profile src region blk offset len action work, s.q.acting = some true⟩] } })

/-- R334: merge entries of the words that a read covers go first. -/
def flushOver (a n : Nat) (s : State) : State :=
  (s.hs.merge.filter fun m => decide (a / 8 ≤ m.word) && decide (8 * m.word < a + n)).foldl (fun s m => mergeFlush m s) s

/-- A byte of the store as it reads; what the spec does not lay out (TALLY, LOGSTAGE and META) is free. Where firmware keeps data of
its own in WORK, the model reads what was last written there, zero where nothing was (DESIGN CHOICE, log entry 22). -/
def storeByte (region a : Nat) (s : State) : Byte :=
  if 3 ≤ region then BitVec.ofNat 8 (free a s)
  else
    let at_ := 4096 * regionFirst region + a
    byteAt (wordBytes (at_ / 8) s) (at_ % 8)

/-- The bytes that a job reads from a flash or a store region. -/
def cvData (src region : Byte) (offset len : Nat) (s : State) : List Byte :=
  (List.range len).map fun i =>
    if src = 0 then flashByte region.toNat (offset + i) s else storeByte region.toNat (offset + i) s

/-- The state in which a job has read its source. -/
def cvRead (src region : Byte) (offset len : Nat) (s : State) : State :=
  if src = 1 then flushOver (4096 * regionFirst region.toNat + offset) len s
  else { s with flash := readRange region.toNat offset len s.flash }

/-- A CV.RUN completes (R70, R71). A MODE 0 under CVP3 takes the parameters in force when it completes, and so does a CV.SCAN
(DESIGN CHOICE, log entry 22). -/
def cvRunDone (h : Hdr) (profile mode ctx src region : Byte) (offset : Dword) (len : Word) (s : State) : State :=
  let p := cvParams profile.toNat s
  let s1 := if src = 2 then s else cvRead src region offset.toNat len.toNat s
  let bs := if src = 2 then bufData h s else cvData src region offset.toNat len.toNat s1
  let c := cvCtx ctx s
  let keep := decide (mode = 2) || decide (mode = 3)
  let rem := crcBytes p (if keep then c.rem else p.init) bs
  let n := (if keep then c.bytes else 0) + bs.length
  let s2 := if mode = 0 then s1
    else if mode = 3 then setCvCtx ctx ⟨false, 0, 0, 0⟩ s1
    else setCvCtx ctx ⟨true, profile.toNat, rem, n % 2 ^ 64⟩ s1
  reply 0x0E02 h [fld 16 8 (if mode = 0 ∨ mode = 3 then crcFinish p rem else 0), fld 24 8 n]
    (if src = 2 then s2 else drawMany len.toNat s2)

/-- A CV.SCAN completes: one value per block, recorded in WORK or compared with the table there. -/
def cvScanDone (h : Hdr) (profile src region blk : Byte) (offset len : Dword) (action : Byte) (work : Dword) (s : State) : State :=
  let p := cvParams profile.toNat s
  let n := scanBlocks blk len.toNat
  let size := 2 ^ blk.toNat
  let w := p.width / 8
  let table := 4096 * regionFirst 2 + work.toNat
  let s1 := cvRead src region offset.toNat len.toNat s
  let vals := (List.range n).map fun k =>
    leBytes w (crcOf p (cvData src region (offset.toNat + size * k) (min size (len.toNat - size * k)) s1))
  if action = 0 then
    reply 0x0E05 h [fld 16 8 n, fld 24 8 0, fld 32 8 (2 ^ 64 - 1)]
      (drawMany len.toNat (storeNarrow vals.flatten table { s1 with cv := { s1.cv with
        tables := (table, n * w) :: s1.cv.tables.filter fun x => decide (x.1 ≠ table) } }))
  else
    let s2 := flushOver table (n * w) s1
    let held (k : Nat) : List Byte := (List.range w).map fun i => storeByte 2 (work.toNat + w * k + i) s2
    let bad := (List.range n).filter fun k => decide (vals.getD k [] ≠ held k)
    reply 0x0E05 h [fld 16 8 n, fld 24 8 bad.length, fld 32 8 (bad.head?.getD (2 ^ 64 - 1))] (drawMany len.toNat s2)

/-- CV_JOB_DONE: the job that runs completes, and the next one starts (R69). -/
def execCvJobDone (s : State) : Out :=
  .next (match s.cv.jobs with
  | [] => s
  | j :: t =>
    if !s.hif.ready then s
    else
      let s1 := { s with cv := { s.cv with jobs := t } }
      match j.cmd with
      | .cvRun h profile mode ctx src region offset len =>
        answerLate j.late (cvRunDone h profile mode ctx src region offset len) s1
      | .cvScan h profile src region blk offset len action work =>
        answerLate j.late (cvScanDone h profile src region blk offset len action work) s1
      | _ => s1)

/-! ### Flash blocks (R73 to R76) -/

/-- R75: FLASH_SPARES_LOW, once, when fewer than 64 spare blocks remain. -/
def sparesNote (s : State) : State :=
  if s.flash.spare < 64 ∧ s.flash.sparesSaid = false then
    notify 0x0D01 (Config.freeSource 0x0D01) none (ev [fld 20 2 s.flash.spare])
      { s with flash := { s.flash with sparesSaid := true } }
  else s

/-- R75: a block is retired and logged. -/
def retireBlock (b : Nat) (s : State) : State :=
  sparesNote (logEntry 13 0x0D00 none (leBytes 2 b) { s with flash := retire b s.flash })

/-- A block is erased (R73); one that has come to its limit is retired and logged. -/
def eraseBlock (b : Nat) (s : State) : State :=
  let r := erase b s.flash
  let s1 := { s with flash := r.1 }
  if r.2 then sparesNote (logEntry 13 0x0D00 none (leBytes 2 b) s1) else s1

/-- R73, R74: a block is rewritten into the erased block with the lowest erase count, and the old one is erased. -/
def refreshBlock (b : Nat) (s : State) : State :=
  let date (s : State) : State :=
    { s with flash := { s.flash with dates := setCount b (extTimer s) s.flash.dates } }
  if s.flash.spare = 0 then date (eraseBlock b s)
  else
    let k := freshSpare s.flash
    date (eraseBlock k { s with flash := exchange b k s.flash })

/-- R74: where refresh runs. -/
def refreshRuns (s : State) : Bool := (inTraffic s || inSleep s) && decide (s.pwr.shed < 2)

/-- A block holds pages: a slot's where it has an image or a staged page, LOG's as far as the ring has come, AGEING's where it has
been written; BOOTMAP, CONFIG and CALIB are written at manufacture. -/
def blockHeld (b : Nat) (s : State) : Bool :=
  let staged (slot : Bool) : Bool :=
    decide (slot = !s.aon.running) && s.flash.staged.any fun p => decide (slotBlock slot + p.1 / 64 = b)
  match flashRegionOf b with
  | 1 => (slotImage false s).isSome || staged false
  | 2 => (slotImage true s).isSome || staged true
  | 5 => decide (b - logFirst < (s.flash.log.length + logPerBlock - 1) / logPerBlock)
  | 6 => s.flash.dates.any fun x => decide (x.1 = b)
  | 7 => false
  | _ => true

/-- The blocks that the patrol passes over: lost ones and those marked at the factory. -/
def blockUnused (b : Nat) (f : Flash) : Bool := f.lostBlocks.contains b || f.factory.contains b

/-- FLASH_PATROL: the block that the lap has come to is read, and refreshed when a condition of R74 holds. -/
def execFlashPatrol (bitsCorrected : Nat) (readRetry : Bool) (s : State) : Out :=
  let b := s.flash.patrol
  let s0 := { s with flash := { s.flash with patrol := (b + 1) % 4096 } }
  .next (if !domIn s.pwr.powered .mgmt then s
  else if blockUnused b s.flash then s0
  else
    let s1 := { s0 with flash := readBlocks b 1 s0.flash }
    if refreshRuns s && ((blockHeld b s && datedOut b (extTimer s) s.flash) || decide (8 < bitsCorrected) || readRetry
        || decide (100000 ≤ countAt b s1.flash.reads)) then
      refreshBlock b s1
    else s1)

/-- FLASH_BLOCK_FAIL: an erase or a program of a block fails. -/
def execFlashBlockFail (block : Nat) (s : State) : Out :=
  .next (if domIn s.pwr.powered .mgmt && decide (block < 4096) && !blockUnused block s.flash then retireBlock block s else s)

/-- R76: the write date of the oldest page. -/
def oldestDate (s : State) : Nat :=
  let ds := ((List.range 2888).filter fun b => blockHeld b s && !blockUnused b s.flash).map fun b => countAt b s.flash.dates
  ds.foldl min (ds.headD 0)

/-- FLASH.STATUS. -/
def execFlashStatus (h : Hdr) (s : State) : Out :=
  let es := s.flash.erases.map fun x => x.2
  command 0x0D20 h s fun s =>
    reply 0x0D20 h
      [fld 16 2 s.flash.spare, fld 18 2 s.flash.retired, fld 20 4 (es.foldl max 0), fld 24 4 (nearest (es.foldl (· + ·) 0) 4096),
       fld 28 2 s.flash.patrol, fld 32 8 (oldestDate s)] s

/-! ### Firmware images (R77 to R79) -/

/-- R79: the slot that staging writes: the one that does not run. -/
def stageSlot (s : State) : Bool := !s.aon.running

def setSlotImage (b : Bool) (i : Option Image) (s : State) : State :=
  { s with flash := if b then { s.flash with imgB := i } else { s.flash with imgA := i } }

/-- R79: staging erases whatever the slot held. -/
def stageErase (s : State) : State :=
  let b := stageSlot s
  if (slotImage b s).isSome || (s.flash.staged.isEmpty && slotListed b s) then
    let first := slotBlock b
    let s1 := setSlotImage b none { s with flash := { s.flash with
        mem := s.flash.mem.filter fun c => !(decide (first ≤ c.1 / blockBytes) && decide (c.1 / blockBytes < first + 512)),
        staged := [], committed := false } }
    (List.range 512).foldl (fun s k => if blockUnused (first + k) s.flash then s else eraseBlock (first + k) s) s1
  else s

/-- R73: the block of a slot that a page goes to: a place begun stays, and a place not begun takes the least erased of the erased
blocks. -/
def stageBlock (b : Nat) (s : State) : State :=
  if blockHeld b s then s
  else
    let first := slotBlock (stageSlot s)
    let free := ((List.range 512).map (· + first)).filter fun k => !blockHeld k s && !s.flash.lostBlocks.contains k
    { s with flash := dated b (extTimer s) (exchange b (leastErased b free s.flash) s.flash) }

/-- FW.STAGE: one page of the image. -/
def execFwStage (h : Hdr) (offset : Word) (s : State) : Out :=
  let block := slotBlock (stageSlot s) + offset.toNat / blockBytes
  command 0x0D01 h s
    (guarded 0x0D01 h
      [(decide (offset.toNat % 4096 ≠ 0) || !h.buf || decide (512 * blockBytes < offset.toNat + h.length.toNat), .badArg),
       (s.flash.lostBlocks.contains block, .noResource)]
      fun s =>
        let s1 := stageBlock block (stageErase s)
        let page := offset.toNat / 4096
        done 0x0D01 h { s1 with flash := { s1.flash with
          mem := memWriteN 0xFF s1.flash.mem (slotBlock (stageSlot s) * blockBytes + offset.toNat) (bufData h s),
          staged := setCount page h.length.toNat s1.flash.staged, committed := false } })

/-- Every byte of the first `n` of the image has been staged. -/
def stagedWhole (n : Nat) (s : State) : Bool :=
  (List.range ((n + 4095) / 4096)).all fun k => decide (min 4096 (n - 4096 * k) ≤ countAt k s.flash.staged)

/-- The first `n` bytes of the staging slot are read, which counts on their blocks (R74). -/
def readSlot (n : Nat) (s : State) : State :=
  { s with flash := readRange (if stageSlot s then 2 else 1) 0 n s.flash }

/-- FW.COMMIT: the staged image is read and verified and becomes the trial of the next boot (R77, R79). A header whose security
version is above 64, which R77 does not name, is accepted as its number is (DESIGN CHOICE, log entry 43). -/
def execFwCommit (h : Hdr) (s : State) : Out :=
  let base := slotBlock (stageSlot s) * blockBytes
  let head := memReadN 0xFF s.flash.mem base 256
  let field (k : Nat) : Nat := Config.headerField k head
  let total := 256 + field 4 + Config.signatureBytes
  command 0x0D02 h s fun s =>
    guarded 0x0D02 h
      [(decide (field 0 ≠ 0x4E414954) || decide (512 * blockBytes < total) || !stagedWhole total s, .integrity),
       (!Config.signatureVerifies (memReadN 0xFF s.flash.mem base total), .authFail), (decide (field 3 ≠ 2), .notAvailable),
       (decide (field 2 < s.ident.fuses), .refused)]
      (fun s =>
        let i : Image := ⟨BitVec.ofNat 32 (field 1), field 2, field 3, decide (field 5 ≠ 0), true⟩
        let s1 := setSlotImage (stageSlot s) (some i) s
        reply 0x0D02 h [fld 16 4 i.version.toNat, fld 20 1 i.security]
          { s1 with aon := { s1.aon with trial := true }, flash := { s1.flash with committed := true } })
      (readSlot (if 512 * blockBytes < total then 256 else total) s)

/-- A scheduled command is pending. -/
def schedPending (s : State) : Bool :=
  s.q.pend.any fun p =>
    match mailbox p.cmd with
    | some x => x.2.sched && !p.bundled
    | none => false

/-- FW.ACTIVATE: answered before the restart (R78, R79). -/
def execFwActivate (h : Hdr) (mode : Byte) (s : State) : Out :=
  let hitless := match slotImage (stageSlot s) s with | some i => i.hitless | none => false
  command 0x0D03 h s
    (guarded 0x0D03 h
      [(decide (1 < mode.toNat), .badArg), (s.hif.recovery && decide (mode = 1), .badState), (!s.flash.committed, .badState),
       (decide (mode = 1) && !hitless, .refused), (schedPending s, .busy)]
      fun s =>
        let s1 := done 0x0D03 h s
        let s2 := if mode = 0 then restartFromStep3 s1 else restartWarden s1
        { s2 with flash := { s2.flash with awaiting := true, awaitFrom := s2.time.wardenNs } })

/-- FW.CONFIRM: the running trial slot becomes preferred, and the fuses are blown up to its security version. -/
def execFwConfirm (h : Hdr) (s : State) : Out :=
  command 0x0D04 h s
    (guarded 0x0D04 h [(!s.flash.trialRuns || decide (s.aon.running = s.aon.pref), .badState)] fun s =>
      let n := min 64 (max s.ident.fuses (runningSecurity s))
      reply 0x0D04 h [fld 16 1 n]
        { s with
          ident := { s.ident with fuses := n }, aon := { s.aon with pref := s.aon.running },
          flash := { s.flash with trialRuns := false } })

/-- The blocks that hold the entries of LOG from a number on, at most `count`, are read (R74). -/
def readLog (first count : Nat) (s : State) : State :=
  let f := s.flash
  let js := ((List.range f.log.length).filter fun j => match f.log[j]? with
    | some e => decide (first ≤ e.seq.toNat)
    | none => false).take count
  { s with flash := ((js.map fun j => logBlockAt (logNumber j f) f).eraseDups).foldl (fun f b => readBlocks b 1 f) f }

/-- LOG.READ: entries from the first wanted on, of the region and of LOGSTAGE. -/
def execLogRead (h : Hdr) (first : Sf) (count : Byte) (s : State) : Out :=
  let all := s.flash.log ++ s.flash.stage
  command 0x0D10 h s
    (guarded 0x0D10 h
      [(!h.buf || decide (count = 0) || decide (64 < count.toNat), .badArg),
       (match all.getLast? with | some e => decide (e.seq.toNat < first.toNat) | none => true, .badArg)]
      fun s =>
        let es := (all.filter fun e => decide (first.toNat ≤ e.seq.toNat)).take count.toNat
        let from_ := match es.head? with | some e => e.seq.toNat | none => 0
        let gone := match all.head? with | some e => decide (first.toNat < e.seq.toNat) | none => false
        let bad (e : LogEntry) : Bool := s.flash.badChecks.contains e.seq.toNat
        respond 0x0D10 h .ok
          (result [fld 16 6 from_, fld 22 1 es.length, fld 23 1 (boolBit gone 0 + boolBit (es.any bad) 1)])
          (some (es.flatMap fun e => logBytes (bad e) e)) (readLog first.toNat count.toNat s))

/-! ### Sedge engines (R22, R23, R26, R106, R107) -/

/-- Changes the schedule of a task. -/
def modTask (t : Task) (f : TaskSt → TaskSt) (s : State) : State :=
  { s with sedge := { s.sedge with tasks := s.sedge.tasks.map fun x => if x.task = t then f x else x } }

def addSkipped (n : Nat) (w : Word) : Word := BitVec.ofNat 32 (sat32 (w.toNat + n))

/-- R106, R107: a start at boundary `b`: its deficit is carried, or written off and the task re-anchored. -/
def taskBegin (b : Sf) (x : TaskSt) : TaskSt :=
  let deficit := b.toNat - (x.anchor.toNat + x.n * x.period)
  let off := if x.period = 1 then decide (0 < deficit) else decide (4 * x.period < deficit)
  if off then
    { x with skipped := addSkipped (deficit / x.period) x.skipped, anchor := b, n := 1, start := b, running := true }
  else { x with n := x.n + 1, start := b, running := true }

/-- R106: a task completes in superframe `sf`. -/
def taskEnd (sf : Sf) (x : TaskSt) : TaskSt :=
  let n := max (sf.toNat + 1) (max (x.start.toNat + (x.period + 1) / 2) (x.anchor.toNat + x.n * x.period))
  { x with running := false, next := BitVec.ofNat 48 n }

/-- What a task does when it runs (R22). -/
def taskWork (t : Task) (w : TaskInput) (s : State) : State :=
  match t, w with
  | .eqSupervision, .supervision rms e =>
    let s1 := match rms with
      | some g => if s.time.lts.sf.toNat % 16 = 0 then agcPeriod g.1 g.2 s else s
      | none => s
    match e with
    | some x => eqSupervise x s1
    | none => s1
  | .bias, .bias b => biasTask b s
  | .laser, _ => laserMove s
  | .framing, _ => refreshRaws s
  | .references, .refs ms => refEvaluate ms s
  | .tallies, _ => gatherTallies s
  | .calibration, _ => if s.pwr.shed < 2 then inServiceCal s else s
  | .power, _ => revote s
  | _, _ => s

/-- The restart of a task at boundary `b`: missed periods count as skipped. -/
def taskRestart (b : Sf) (x : TaskSt) : TaskSt :=
  { x with
    skipped := addSkipped ((b.toNat - x.next.toNat) / x.period) x.skipped, anchor := b, n := 0, next := b, running := false,
    halted := false }

/-- SEDGE_TASK_START: at a superframe boundary, once the task's next start has come and its engines run; a task whose engines
have been halted for 16 superframes has been restarted by then (R26). -/
def execSedgeTaskStart (t : Task) (w : TaskInput) (s : State) : Out :=
  .next (match taskAt t s with
  | none => s
  | some x =>
    let y := if x.halted then taskRestart (BitVec.ofNat 48 (heldUntil t s)) x else x
    if ticking s && decide (s.time.lts.sym = 0) && inRun s && !x.running && !taskHeld t s &&
        decide (y.next.toNat ≤ s.time.lts.sf.toNat) then
      taskWork t w (modTask t (fun _ => taskBegin s.time.lts.sf y) s)
    else s)

/-- SEDGE_TASK_COMPLETE: a late task always completes. -/
def execSedgeTaskComplete (t : Task) (s : State) : Out :=
  .next (if s.dbg.frozen then s
  else modTask t (fun x => if x.running && !x.halted then taskEnd s.time.lts.sf x else x) s)

def haltCode : HaltCause → Nat
  | .illegalInstruction => 0 | .memoryFault => 1 | .blazeMismatch => 2

/-- ENGINE_HALT: the warden logs the engine and the fault; the loops it serves hold their outputs (log entry 32). -/
def execEngineHalt (e : BitVec 6) (c : HaltCause) (s : State) : Out :=
  .next (if domIn s.pwr.powered .mgmt && !s.dbg.frozen && !(s.sedge.halted.any fun x => decide (x.1 = e.toNat)) then
    let s1 := { s with sedge := { s.sedge with
        halted := s.sedge.halted ++ [(e.toNat, nowSf s)],
        tasks := s.sedge.tasks.map fun x => if taskServed e.toNat x.task then { x with halted := true, running := false } else x } }
    logEntry 12 (BitVec.ofNat 16 (0x0100 + e.toNat)) none ([BitVec.ofNat 8 e.toNat, BitVec.ofNat 8 (haltCode c)])
      (freezeTrip .engineHalt s1)
  else s)

/-- ENGINE_RESTART: the engine is loaded anew with a seed of its own (R391), and its tasks start at the next boundary, no later
than 16 superframes after the halt (R26). -/
def execEngineRestart (e : BitVec 6) (seed : Word) (s : State) : Out :=
  .next (if s.sedge.halted.any fun x => decide (x.1 = e.toNat) then
    let left := s.sedge.halted.filter fun x => decide (x.1 ≠ e.toNat)
    let b (t : Task) : Sf := BitVec.ofNat 48 (min (Lts.ceilSf s.time.lts).sf.toNat (heldUntil t s))
    { s with sedge := { s.sedge with
        halted := left,
        seeds := (e.toNat, seed) :: s.sedge.seeds.filter fun x => decide (x.1 ≠ e.toNat),
        tasks := s.sedge.tasks.map fun x =>
          if taskServed e.toNat x.task && !(left.any fun y => taskServed y.1 x.task) && x.halted then
            taskRestart (b x.task) x else x } }
  else s)

end Sys2Proof.Machine
end

