-- ==== Sys2Proof/Machine/Mailbox.lean ====
section
/-! DEFINITION. The command path: how a descriptor is taken (R57 to R60), how a command waits for its time or its boundary
(R61, R100 to R104, R439, R446) and in which order waiting commands act (R200, R247, R274, R304), with the notification and
interrupt timers of the warden (R64, R93, R430). -/
namespace Sys2Proof.Machine

open Sys2Proof

/-- The meaning of a mailbox command that the warden runs from its queues. -/
def mailboxExec (i : Instr) (s : State) : Out :=
  match i with
  | .sysIdentify h => execSysIdentify h s
  | .sysCancel h a => execSysCancel h a s
  | .cvConfig h a b c d e f => execCvConfig h a b c d e f s
  | .cvRun h a b c d e f g => execCvRun h a b c d e f g s
  | .cvCtxRead h a => execCvCtxRead h a s
  | .cvCtxWrite h a => execCvCtxWrite h a s
  | .cvScan h a b c d e f g x => execCvScan h a b c d e f g x s
  | .flashStatus h => execFlashStatus h s
  | .fwStage h a => execFwStage h a s
  | .fwCommit h => execFwCommit h s
  | .fwActivate h a => execFwActivate h a s
  | .fwConfirm h => execFwConfirm h s
  | .logRead h a b => execLogRead h a b s
  | .pwrStateSet h a => execPwrStateSet h a s
  | .pwrStatus h => execPwrStatus h s
  | .pwrVote h a => execPwrVote h a s
  | .pwrConfig h a b => execPwrConfig h a b s
  | .lineModeSet h a b c => execLineModeSet h a b c s
  | .lineModeGet h => execLineModeGet h s
  | .lineFlexCheck h a => execLineFlexCheck h a s
  | .feConfig h a b c d e f g => execFeConfig h a b c d e f g s
  | .feStatus h a => execFeStatus h a s
  | .feSlices h a => execFeSlices h a s
  | .feCoefSet h a b c => execFeCoefSet h a b c s
  | .eqConfig h a b c d e f g x => execEqConfig h a b c d e f g x s
  | .eqStatus h => execEqStatus h s
  | .eqEstimates h => execEqEstimates h s
  | .eqNlc h a b => execEqNlc h a b s
  | .eqReacquire h a => execEqReacquire h a s
  | .eqHold h a => execEqHold h a s
  | .txLaser h a b c d => execTxLaser h a b c d s
  | .txEnable h a => execTxEnable h a s
  | .txShaping h a b c d e f => execTxShaping h a b c d e f s
  | .txStatus h => execTxStatus h s
  | .txSafety h a b c => execTxSafety h a b c s
  | .txSlices h a => execTxSlices h a s
  | .fecConfig h a b c => execFecConfig h a b c s
  | .fecStatus h => execFecStatus h s
  | .fecCounters h a => execFecCounters h a s
  | .fecInject h a b => execFecInject h a b s
  | .tribDefine h a b c d => execTribDefine h a b c d s
  | .tribRemove h a => execTribRemove h a s
  | .tribStatus h a b => execTribStatus h a b s
  | .tfStatus h => execTfStatus h s
  | .keyKekInfo h => execKeyKekInfo h s
  | .keyLoad h a => execKeyLoad h a s
  | .keyErase h a b => execKeyErase h a b s
  | .keyAssign h a b c => execKeyAssign h a b c s
  | .keyActivate h a => execKeyActivate h a s
  | .keyStatus h a => execKeyStatus h a s
  | .ciphTribStatus h a b => execCiphTribStatus h a b s
  | .ciphSelftest h => execCiphSelftest h s
  | .ciphTribMode h a b => execCiphTribMode h a b s
  | .mmRun h a b c d e f g x i => execMmRun h a b c d e f g x i s
  | .mmCtxSave h a b => execMmCtxSave h a b s
  | .mmCtxRestore h a => execMmCtxRestore h a s
  | .mmRead h a b c => execMmRead h a b c s
  | .hlConfig h a b c d e f g => execHlConfig h a b c d e f g s
  | .hlStatus h => execHlStatus h s
  | .hlLaneStatus h a => execHlLaneStatus h a s
  | .hlPort h a b => execHlPort h a b s
  | .hlPower h a => execHlPower h a s
  | .hlLoopback h a b => execHlLoopback h a b s
  | .hlRetrain h a => execHlRetrain h a s
  | .refInputConfig h a b c d e f => execRefInputConfig h a b c d e f s
  | .refSelect h a b c => execRefSelect h a b c s
  | .refStatus h => execRefStatus h s
  | .refInputStatus h a => execRefInputStatus h a s
  | .refOutputConfig h a b c d e => execRefOutputConfig h a b c d e s
  | .refPpsConfig h a b c d => execRefPpsConfig h a b c d s
  | .refTodSet h a b c d e => execRefTodSet h a b c d e s
  | .refTodGet h => execRefTodGet h s
  | .hsHistory h a => execHsHistory h a s
  | .hsHistoryRead h a b => execHsHistoryRead h a b s
  | .hsSenseConfig h a => execHsSenseConfig h a s
  | .hsSenseRead h a b => execHsSenseRead h a b s
  | .hsTriggerConfig h a b c d e => execHsTriggerConfig h a b c d e s
  | .hsCaptureCmd h a b => execHsCaptureCmd h a b s
  | .hsCaptureRead h a b c => execHsCaptureRead h a b c s
  | .hsCruiser h a b => execHsCruiser h a b s
  | .hsStoreStatus h => execHsStoreStatus h s
  | .hsRegionInit h a => execHsRegionInit h a s
  | .calStatus h a b => execCalStatus h a b s
  | .calConfig h a b c => execCalConfig h a b c s
  | .calRun h a b => execCalRun h a b s
  | .monConfig h a b => execMonConfig h a b s
  | .monChannel h a b c d e f => execMonChannel h a b c d e f s
  | .monTable h a => execMonTable h a s
  | .monRead h a b => execMonRead h a b s
  | .ageReport h a => execAgeReport h a s
  | .ageConfig h a b => execAgeConfig h a b s
  | .tallyRead h a b => execTallyRead h a b s
  | .tallyClear h a => execTallyClear h a s
  | .blazeConfig h a b => execBlazeConfig h a b s
  | .blazeRead h a b => execBlazeRead h a b s
  | .dbgFreezeCmd h a b c => execDbgFreezeCmd h a b c s
  | .dbgRelease h => execDbgRelease h s
  | .dbgStatus h => execDbgStatus h s
  | _ => .next s

/-- The boundary at which a command's card says it acts. -/
inductive Bound where
  | none | superframe | span
  deriving DecidableEq, Repr

/-- The commands whose card names the superframe boundary. -/
def superframeOps : List Nat :=
  [0x0201, 0x0203, 0x0301, 0x0401, 0x0404, 0x0405, 0x0406, 0x0440, 0x0501, 0x0502, 0x0503, 0x0505, 0x0601, 0x0604, 0x0701,
   0x0702, 0x0901, 0x0905, 0x0906, 0x0907, 0x0A01, 0x0A02, 0x0A05, 0x0A06, 0x0B01, 0x0B03, 0x0B05, 0x0B06, 0x0B08, 0x0B0A,
   0x0C02]

/-- The commands whose card names the span boundary. -/
def spanOps : List Nat := [0x0802, 0x0803, 0x0804, 0x0805, 0x0809]

/-- The boundary of a command; FE.COEF_SET and DBG.FREEZE have one for one action only. -/
def boundOf (i : Instr) : Bound :=
  match i with
  | .feCoefSet _ _ action _ => if action = 1 then .superframe else .none
  | .dbgFreezeCmd _ action _ _ => if action = 0 then .superframe else .none
  | _ =>
    match mailbox i with
    | some x => if x.1 ∈ superframeOps then .superframe else if x.1 ∈ spanOps then .span else .none
    | none => .none

def isModeSet (i : Instr) : Bool := match i with | .lineModeSet _ _ _ _ => true | _ => false

def isActivate (i : Instr) : Bool := match i with | .keyActivate _ _ => true | _ => false

/-- LINE.MODE_SET and PWR.STATE_SET name their boundary themselves when they are not scheduled (R114, R358). -/
def ownBoundary (i : Instr) : Bool := match i with | .lineModeSet _ _ _ _ => true | .pwrStateSet _ _ => true | _ => false

/-- The order that the chapters fix for commands at one boundary: a mode change first (R247), then the host-lane commands in the order of R304,
TX.ENABLE before TX.LASER (R200), tributary commands and then the cipher's in the order of R274. -/
def actOrder (i : Instr) : Nat :=
  match mailbox i with
  | none => 20
  | some x =>
    if x.1 = 0x0301 then 0
    else if x.1 = 0x0901 then 1
    else if x.1 = 0x0905 then 2
    else if x.1 = 0x0906 then 3
    else if x.1 = 0x0907 then 4
    else if x.1 = 0x0502 then 5
    else if x.1 = 0x0501 then 6
    else if x.1 = 0x0701 then 7
    else if x.1 = 0x0702 then 8
    else if x.1 = 0x0803 then 9
    else if x.1 = 0x0802 then 10
    else if x.1 = 0x0804 then 11
    else if x.1 = 0x0805 then 12
    else if x.1 = 0x0809 then 13
    else 20

def queueOf (i : Instr) : Nat := match mailbox i with | some x => x.2.queue.toNat | none => 0

/-- R61: the order of two commands that fall due. -/
def pendLe (a b : Pend) : Bool :=
  if a.due ≠ b.due then a.due.lt b.due
  else if actOrder a.cmd ≠ actOrder b.cmd then decide (actOrder a.cmd < actOrder b.cmd)
  else if queueOf a.cmd ≠ queueOf b.cmd then decide (queueOf a.cmd < queueOf b.cmd)
  else decide (a.ord ≤ b.ord)

/-- R274: the order of two commands that act at one span boundary. -/
def spanLe (a b : Pend) : Bool :=
  if actOrder a.cmd ≠ actOrder b.cmd then decide (actOrder a.cmd < actOrder b.cmd) else pendLe a b

/-- The first of a list in an order. -/
def firstBy (le : Pend → Pend → Bool) : List Pend → Option Pend
  | [] => none
  | p :: t =>
    match firstBy le t with
    | none => some p
    | some x => if le p x then some p else some x

/-- A taken command acts. -/
def runNow (late : Bool) (i : Instr) (s : State) : State :=
  match mailboxExec i { s with q := { s.q with acting := some late } } with
  | .next t => { t with q := { t.q with acting := none } }
  | _ => s

/-- A waiting command acts; a bundled one gives no response (R120). -/
def runPend (p : Pend) (s : State) : State :=
  let s1 := { s with q := { s.q with pend := s.q.pend.filter fun x => decide (x.ord ≠ p.ord) } }
  if p.bundled then (unanswered (fun s => some (mailboxExec p.cmd s)) s1).2 else runNow p.late p.cmd s1

/-- A mode change that waits for the change or the transition before it (R119); one whose time had passed at the wake runs in the
exit, but for a change to WATCH (R104, log entry 19). -/
def setWaits (s : State) (p : Pend) : Bool :=
  match p.cmd with
  | .lineModeSet _ code _ _ => if p.passed && decide (code ≠ 0x08) then wakeBlocked s else setBlocked s
  | _ => false

/-- A waiting command can act now: its time has come; a span command acts here only while span boundaries do not exist
(R439); a mode change waits for the one before it (R119), and what is due at its boundary waits for it (R247). -/
def canAct (s : State) (p : Pend) : Bool :=
  p.due.le s.time.lts
    && (if boundOf p.cmd = .span then !spansExist s && !isActivate p.cmd else true)
    && !setWaits s p
    && (match s.line.change with
        | some ch => decide (ch.phase ≠ 0) || p.due.lt (Lts.boundary ch.c)
        | none => true)

/-- EXEC_AT of a scheduled command, and its queue. -/
def schedAt (p : Pend) : Option (BitVec 2 × Lts) :=
  match mailbox p.cmd with
  | some x => if x.2.sched && !p.bundled then some (x.2.queue, x.2.execAt) else none
  | none => none

/-- R102: `a` is scheduled in the queue of `b` for an earlier stamp, so that `b`, which is late, does not overtake it. -/
def goesBefore (a b : Pend) : Bool :=
  b.late && match schedAt a, schedAt b with
    | some x, some y => decide (x.1 = y.1) && x.2.lt y.2
    | _, _ => false

/-- R104: of the commands whose time had passed at the wake none goes before an earlier one, also while that one waits. -/
def passedBefore (a b : Pend) : Bool := a.passed && b.passed && !pendLe b a

/-- A waiting command can act, and overtakes none by it (R102, R104). -/
def mayAct (s : State) (p : Pend) : Bool :=
  canAct s p && !(s.q.pend.any fun x => (goesBefore x p && canAct s x) || (passedBefore x p && setWaits s x))

/-- The waiting command that acts next: the first in the order of R61. -/
def nextPend (s : State) : Option Pend := firstBy pendLe (s.q.pend.filter (mayAct s))

/-- SCHED_COMMAND_DUE: one waiting command whose time has come acts, in the order of R61. -/
def execSchedCommandDue (s : State) : Out :=
  .next (if ticking s && s.hif.ready then
    match nextPend s with
    | some p => runPend p s
    | none => s
  else s)

/-- The span commands that act at a boundary that has come. -/
def spanDue (s : State) : List Pend := s.q.pend.filter fun p => decide (boundOf p.cmd = .span) && p.due.le (txStamp s)

/-- Tributary commands due, which come before the cipher's at the same boundary (R247, R274). -/
def tribDue (s : State) : List Pend :=
  s.q.pend.filter fun p => canAct s p && (decide (actOrder p.cmd = 7) || decide (actOrder p.cmd = 8))

/-- Runs the commands that `due` finds, one after another, in an order. -/
def runAll (le : Pend → Pend → Bool) (due : State → List Pend) : Nat → State → State
  | 0, s => s
  | n + 1, s =>
    match firstBy le (due s) with
    | some p => runAll le due n (runPend p s)
    | none => s

/-- TX_SPAN_BOUNDARY: a transmit span begins: its commands act, and the spans of every tributary advance (R257 to R259). -/
def execTxSpanBoundary (s : State) : Out :=
  .next (if spansExist s && ticking s && (spanAt s.tf.spanNext s).le s.time.lts then
    let s0 := { s with tf := { s.tf with spanNext := s.tf.spanNext + 1 } }
    let s1 := runAll pendLe tribDue s0.q.pend.length s0
    txSpanTick (runAll spanLe spanDue s1.q.pend.length s1)
  else s)

/-! ### Taking a descriptor (R57 to R61, R100 to R102) -/

/-- R49: a descriptor is rejected without a response; a later rejection while CQ_ERR is set is only logged. -/
def cqError (queue : BitVec 2) (slot : BitVec 5) (reason : Nat) (tag : Half) (s : State) : State :=
  let v : Word := BitVec.ofNat 32 (queue.toNat * 2 ^ 30 + slot.toNat * 2 ^ 25 + reason * 2 ^ 16 + tag.toNat)
  if s.hif.irqStatus &&& causeCqErr = 0 then setCause causeCqErr { s with hif := { s.hif with cqErr := v } }
  else logEntry 14 0x0100 none (leBytes 4 v.toNat) s

/-- R57: entries of the response ring that no taken command and no waiting response needs (log entry 18). -/
def rqRoom (s : State) : Nat :=
  let taken := s.q.outst.filter fun o =>
    !o.answered && !o.sched && !(s.q.waiting.any fun w => decide (w.ord = o.ord))
  128 - (s.hif.rqTail - s.hif.rqHead).toNat - taken.length
    - (s.q.rspWait.filter fun r => !(taken.any fun o => decide (o.tag = r.1))).length

/-- The queue whose first descriptor is taken: one that has waited 1,024 superframes first, oldest first; then CQ0 first. -/
def chooseWaiting (s : State) : Option Waiting :=
  let aged (w : Waiting) : Bool := decide (w.since.sf.toNat + 1024 ≤ (nowLts s).sf.toNat)
  match s.q.waiting.find? aged with
  | some w => some w
  | none =>
    match s.q.waiting.find? (fun w => decide (w.queue = 0)), s.q.waiting.find? (fun w => decide (w.queue = 1)),
        s.q.waiting.find? (fun w => decide (w.queue = 2)), s.q.waiting.find? (fun w => decide (w.queue = 3)) with
    | some w, _, _, _ => some w
    | none, some w, _, _ => some w
    | none, none, some w, _ => some w
    | none, none, none, w => w

/-- A waiting command joins those held by the warden. -/
def hold (i : Instr) (due : Lts) (late : Bool) (s : State) : State :=
  { s with q := { s.q with pend := s.q.pend ++ [{ ord := s.q.ord, cmd := i, due := due, late := late }], ord := s.q.ord + 1 } }

/-- Scheduled commands that are pending (R61). -/
def schedCount (s : State) : Nat :=
  (s.q.pend.filter fun p =>
    match mailbox p.cmd with
    | some x => x.2.sched && !p.bundled
    | none => false).length

/-- The first superframe boundary at least 16 superframes ahead (R101). -/
def armable (s : State) : Lts := Lts.ceilSf (Lts.ofNat (s.time.lts.toNat + 16 * 2 ^ 24))

/-- R102: a late command does not overtake one of its queue scheduled for an earlier stamp. -/
def notBefore (h : Hdr) (t : Lts) (s : State) : Lts :=
  s.q.pend.foldl (fun t p =>
    match mailbox p.cmd with
    | some x => if x.2.sched && decide (x.2.queue = h.queue) && x.2.execAt.lt h.execAt then Lts.max t p.due else t
    | none => t) t

/-- R61: a scheduled command would be held, and not run at once. -/
def wouldHold (i : Instr) (h : Hdr) (s : State) : Bool :=
  !ticking s || decide (boundOf i ≠ .none) || !h.execAt.le s.time.lts || !(notBefore h s.time.lts s).le s.time.lts

/-- R119: a mode change that is held while another runs, and falls due before it ends, comes after it and is late. -/
def afterRunning (s : State) : State :=
  match s.line.change with
  | some ch => if 1 ≤ ch.phase then { s with q := { s.q with pend := s.q.pend.map (deferDue ch) } } else s
  | none => s

/-- R61, R101: a scheduled command is held, or runs at once when its time has passed and it has no boundary of its own. -/
def schedule (i : Instr) (h : Hdr) (s : State) : State :=
  let now := s.time.lts
  if !ticking s then hold i h.execAt false s
  else
    match boundOf i with
    | .none =>
      if h.execAt.le now then
        let t := notBefore h now s
        if t.le now then runNow (h.execAt.lt now) i s else hold i t true s
      else hold i h.execAt false s
    | b =>
      let at_ := if b = .span && spansExist s then nextSpan h.execAt s else Lts.ceilSf h.execAt
      if at_.toNat < now.toNat + 16 * 2 ^ 24 then
        hold i (notBefore h (if b = .span && spansExist s then Lts.ofNat (now.toNat + 16 * 2 ^ 24) else armable s) s) true s
      else hold i (if b = .span then h.execAt else at_) false s

/-- R446: a command without SCHED acts at once, or waits for its boundary while line time runs. -/
def actUnscheduled (i : Instr) (s : State) : State :=
  if !ticking s || ownBoundary i then runNow false i s
  else
    match boundOf i with
    | .none => runNow false i s
    | .superframe => hold i (Lts.ceilSf s.time.lts) false s
    | .span => hold i (if spansExist s then s.time.lts else Lts.ceilSf s.time.lts) false s

/-- What the warden does with a command it has decoded. -/
def takeCommand (i : Instr) (h : Hdr) (op : Nat) (bufHeld : Bool) (s : State) : State :=
  match admitted op s with
  | .ignore => s
  | .refuse st => refuse op h st s
  | .accept =>
    if !bufHeld then refuse op h .busy s
    else if h.sched then
      if (nowLts s).toNat + 2 ^ 60 < h.execAt.toNat then refuse op h .badArg s
      else if 256 ≤ schedCount s ∧ wouldHold i h s = true then refuse op h .noResource s
      else
        match i with
        | .lineModeSet _ code flags p => (setFails h code flags p s).getD (afterRunning (schedule i h s))
        | _ => schedule i h s
    else actUnscheduled i s

/-- A command whose time had passed at the wake is still to run, which comes before any later submission (R104). -/
def passedFirst (s : State) : Bool :=
  ticking s && s.q.pend.any fun p => p.passed && (canAct s p || setWaits s p)

/-- DESCRIPTOR_TAKE: the next descriptor leaves its queue; a duplicate tag is rejected without a response. A malformed
descriptor answers BAD_ARG (R59) before R2, R80 and the card's When column are looked at (DESIGN CHOICE, log entry 21). -/
def execDescriptorTake (s : State) : Out :=
  .next (if !s.hif.ready || s.flash.bootDue || rqRoom s = 0 || passedFirst s then s
  else
    match chooseWaiting s with
    | none => s
    | some w =>
      let bs := memReadN 0 s.win (0x1000 + 0x800 * w.queue.toNat + 64 * w.slot.toNat) 64
      let h := descHdr w.queue bs
      let own (o : Outst) : Bool := decide (o.ord = w.ord)
      let s1 := { s with
        hif := { s.hif with cqHead := s.hif.cqHead.set w.queue (s.hif.cqHead.get w.queue + 1) },
        q := { s.q with waiting := s.q.waiting.filter fun x => decide (x.ord ≠ w.ord) } }
      if s1.q.outst.any fun o => decide (o.tag = h.tag) && decide (o.ord < w.ord) then
        cqError w.queue w.slot 1 h.tag (setBusy { s1 with q := { s1.q with outst := s1.q.outst.filter fun o => !own o } })
      else
        let s2 := { s1 with q := { s1.q with
            outst := s1.q.outst.map fun o => if own o then { o with tag := h.tag, sched := h.sched } else o } }
        let bufHeld := s2.q.outst.all fun o => !own o || o.buf.isNone || o.holds
        match decodeDescriptor h bs with
        | .unknown => refuse (descOpcode bs) h .notAvailable s2
        | .malformed => refuse (descOpcode bs) h .badArg s2
        | .command i => takeCommand i h (descOpcode bs) bufHeld s2)

/-! ### The warden's timers -/

/-- NOTIFY_RELEASE: notifications whose hold has ended are delivered (R93). -/
def execNotifyRelease (s : State) : Out := .next (releaseDue s)

/-- NOTIFY_BACKLOG_DRAIN: the backlog enters the ring as the host frees entries (R64), once READY stands again (R79). -/
def execNotifyBacklogDrain (s : State) : Out :=
  .next (if restarting s then s else drainBacklog s.q.backlog.length s)

/-- IRQ_HOLD_EXPIRE: the holds of RESP and NOTIFY that HOLD superframes have ended (R430). -/
def execIrqHoldExpire (s : State) : Out :=
  .next (if ticking s then
    withIrq (fun h => { h with
      respCoal := coalExpire h.hold s.time.lts.sf h.respCoal, noteCoal := coalExpire h.hold s.time.lts.sf h.noteCoal }) s
  else s)

end Sys2Proof.Machine
end

