-- ==== Sys2Proof/Machine/HostIf.lean ====
section
/-! DEFINITION. The management window as the host reaches it: accesses over PCIe and SPI (R38 to R42, R443, R444), writes and
reads of the HIF_ and AON_ registers (R43 to R56, R361, R429, R430, R441). -/
namespace Sys2Proof.Machine

open Sys2Proof

/-! ### What answers (R41) -/

/-- The whole window answers: in every state but DEEP and OFF, and outside R41's intervals, which run from a start of the boot
sequence or a restart of the warden until step 4, and from W1 of an exit from DEEP until W3. A recovery state has its command
path up (R80). READY says apart from this whether descriptors are taken. -/
def windowUp (s : State) : Bool :=
  s.pins.vsbValid && domIn s.pwr.powered .mgmt && !restarting s &&
    match s.pwr.phase with
    | .inert => false
    | .boot k => decide (4 ≤ k) || s.hif.ready
    | .steady .deep => false
    | .steady .off => false
    | .exit .deep k => decide (3 ≤ k) || s.hif.ready
    | _ => true

/-- The link answers at an offset: the AON_ registers over SPI whenever VSB33 is valid, everything else with the window. -/
def answers (link : Link) (a : Nat) (s : State) : Bool :=
  match link with
  | .spi => s.pins.vsbValid && ((decide (0x100 ≤ a) && decide (a < 0x200)) || windowUp s)
  | .pcie => windowUp s

/-- A host access over PCIe completes, not with Unsupported Request (R39). -/
def accessed (link : Link) (s : State) : State :=
  match link with
  | .pcie => { s with reply := { s.reply with ur := false } }
  | .spi => s

/-! ### Rings (R429) -/

/-- R429: a head moves by no more than the entries present; `m` is twice the ring's size. -/
def headMoves (m old new tail : Nat) : Bool := decide ((new + m - old) % m ≤ (tail + m - old) % m)

/-- R58: responses that the host consumes end their commands. -/
def consume : Nat → List Half → List Outst → List Half × List Outst
  | 0, ts, os => (ts, os)
  | n + 1, ts, os =>
    match ts with
    | [] => ([], os)
    | t :: r =>
      match os.find? fun o => o.answered && decide (o.tag = t) with
      | some x => consume n r (os.filter fun o => decide (o.ord ≠ x.ord))
      | none => consume n r os

/-- HIF_RQ_HEAD: consumed responses end their commands, and responses that wait enter the ring. -/
def moveRqHead (v : Word) (s : State) : State :=
  let new : BitVec 8 := BitVec.ofNat 8 v.toNat
  if headMoves 256 s.hif.rqHead.toNat new.toNat s.hif.rqTail.toNat then
    let n := (new - s.hif.rqHead).toNat
    let c := consume n s.q.rqTags s.q.outst
    let s1 := { s with hif := { s.hif with rqHead := new }, q := { s.q with rqTags := c.1, outst := c.2 } }
    drainResponses s1.q.rspWait.length s1
  else s

/-- HIF_NQ_HEAD. -/
def moveNqHead (v : Word) (s : State) : State :=
  let new : BitVec 9 := BitVec.ofNat 9 v.toNat
  if headMoves 512 s.hif.nqHead.toNat new.toNat s.hif.nqTail.toNat then { s with hif := { s.hif with nqHead := new } } else s

/-! ### The doorbell (R56, R58, R60) -/

/-- A descriptor that a doorbell submits: it waits in its queue, is outstanding, and holds the buffer it names unless another
command does. -/
def submit (q : BitVec 2) (slot : BitVec 5) (s : State) : State :=
  let bs := memReadN 0 s.win (0x1000 + 0x800 * q.toNat + 64 * slot.toNat) 64
  let h := descHdr q bs
  let held := s.q.outst.any fun o => o.holds && decide (o.buf = some h.bufIdx)
  setBusy { s with q := { s.q with
    waiting := s.q.waiting ++ [⟨s.q.ord, q, slot, h.tag, nowLts s⟩],
    outst := s.q.outst ++ [⟨s.q.ord, h.tag, if h.buf then some h.bufIdx else none, h.buf && !held, false, h.sched⟩],
    ord := s.q.ord + 1 } }

def submitMany (q : BitVec 2) (from_ : BitVec 6) : Nat → State → State
  | 0, s => s
  | n + 1, s => submitMany q (from_ + 1) n (submit q (BitVec.ofNat 5 from_.toNat) s)

/-- HIF_CQn_TAIL: a tail that would pass the head is ignored and reported. -/
def ringDoorbell (q : BitVec 2) (v : Word) (s : State) : State :=
  let new : BitVec 6 := BitVec.ofNat 6 v.toNat
  let old := s.hif.cqTail.get q
  let n := (new - old).toNat
  if (old - s.hif.cqHead.get q).toNat + n ≤ 32 then
    submitMany q old n { s with hif := { s.hif with cqTail := s.hif.cqTail.set q new } }
  else cqError q (BitVec.ofNat 5 old.toNat) 2 0 s

/-! ### Interrupt and control registers -/

/-- HIF_IRQ_STATUS: a cause that is cleared ends its hold and its count (R47, R430). -/
def clearCauses (v : Word) (s : State) : State :=
  let b : BitVec 6 := BitVec.ofNat 6 v.toNat
  withIrq (fun h => { h with
    irqStatus := h.irqStatus &&& ~~~ b,
    respCoal := if b.getLsbD 0 then ⟨0, none, false⟩ else h.respCoal,
    noteCoal := if b.getLsbD 1 then ⟨0, none, false⟩ else h.noteCoal }) s

/-- R430: a cause already set is judged by the new hold and count. -/
def coalReview (hold : Half) (count : Byte) (set : Bool) (c : Coal) : Coal :=
  if set && !c.raised && (decide (hold = 0) || decide (Nat.max 1 count.toNat ≤ c.count)) then
    { c with since := none, raised := true }
  else c

/-- HIF_IRQ_COAL (R48). -/
def writeCoal (v : Word) (s : State) : State :=
  let rc : Byte := v.extractLsb' 0 8
  let nc : Byte := v.extractLsb' 8 8
  let hd : Half := v.extractLsb' 16 16
  withIrq (fun h => { h with
    rcount := rc, ncount := nc, hold := hd,
    respCoal := coalReview hd rc (h.irqStatus.getLsbD 0) h.respCoal,
    noteCoal := coalReview hd nc (h.irqStatus.getLsbD 1) h.noteCoal }) s

/-- HIF_CTRL: the enables, and with SOFT_RESET and its key byte a restart from step 3 of R33 (R46). An orderly off in progress
completes first, and takes the restart with it (R372; DESIGN CHOICE, log entry 36). -/
def writeCtrl (v : Word) (s : State) : State :=
  let s1 := { s with hif := { s.hif with msixEn := v.getLsbD 0, alertEn := v.getLsbD 1 } }
  if v.getLsbD 31 && decide (v.extractLsb' 8 8 = 0xA5) && decide (s.pwr.phase ≠ .orderlyOff) then restartFromStep3 s1 else s1

/-- R441: the fault in CODE is still present. -/
def faultStands (s : State) : Bool :=
  if s.aon.code = 0x01 then s.pwr.failed.getLsbD s.aon.source.toNat
  else if s.aon.code = 0x03 then decide (s.aon.coppice = 5)
  else if s.aon.code = 0x04 then domIn s.pwr.powered .mgmt && decide (8500 ≤ s.pins.caseTemp)
  else if s.aon.code = 0x05 then s.hif.recovery
  else false

/-- AON_FAULT: writing 1 to VALID clears it with COUNT; a fault that stands sets it again at once, COUNT 1 (R53, R441). -/
def clearFault (v : Word) (s : State) : State :=
  if v.getLsbD 31 && s.aon.valid then
    if faultStands s then setCause causeFault { s with aon := { s.aon with count := 1 } }
    else { s with aon := { s.aon with valid := false, count := 0 } }
  else s

/-- AON_WAKE_REQ: 0x5A in bits [7:0] raises the SPI wake source (R51, R361). -/
def writeWakeReq (v : Word) (s : State) : State := if v &&& 0xFF = 0x5A then wake 1 s else s

/-! ### Writes -/

/-- R38: a vector's control word of the MSI-X table; an unmasked vector sends what is pending (PRESUMED, log entry 14). -/
def writeVector (i : BitVec 2) (v : Word) (s : State) : State :=
  let h := s.hif
  if v.getLsbD 0 then { s with hif := { h with msixMask := h.msixMask ||| msixBit i } }
  else
    let h1 := { h with msixMask := h.msixMask &&& ~~~ msixBit i, msixPending := h.msixPending &&& ~~~ msixBit i }
    { s with hif := if h.msixPending &&& msixBit i = 0 then h1 else sendMsix i h1 }

/-- A write to a HIF_ register; reserved and read-only ones ignore it (R15, R16). -/
def writeHif (a : Nat) (v : Word) (s : State) : State :=
  match a with
  | 0x00C => writeCtrl v s
  | 0x010 => ringDoorbell 0 v s
  | 0x014 => ringDoorbell 1 v s
  | 0x018 => ringDoorbell 2 v s
  | 0x01C => ringDoorbell 3 v s
  | 0x034 => moveRqHead v s
  | 0x03C => moveNqHead v s
  | 0x044 => clearCauses v s
  | 0x048 => withIrq (fun h => { h with irqMask := BitVec.ofNat 6 v.toNat }) s
  | 0x04C => writeCoal v s
  | 0x064 => { s with hif := { s.hif with scratch := v } }
  | _ => s

/-- A write to an AON_ register (R51). -/
def writeAon (a : Nat) (v : Word) (s : State) : State :=
  match a with
  | 0x104 => clearFault v s
  | 0x108 => { s with aon := { s.aon with wakeSrc := s.aon.wakeSrc &&& ~~~ BitVec.ofNat 5 v.toNat } }
  | 0x10C => { s with aon := { s.aon with wakeEn := BitVec.ofNat 5 v.toNat } }
  | 0x114 => { s with aon := { s.aon with wakeAt := v } }
  | 0x120 => writeWakeReq v s
  | 0x128 => { s with aon := { s.aon with scratch := v } }
  | _ => s

/-- R443: where host writes of whole words reach the window: the command queues and the staging buffers not held (R60). -/
def windowTakes (a : Nat) (s : State) : Bool :=
  (decide (0x1000 ≤ a) && decide (a < 0x3000))
    || (decide (0xA000 ≤ a) && decide (a < 0xE000) && !s.hif.bufBusy.getLsbD ((a - 0xA000) / 0x1000))

/-- A write of one word, by a host that the link lets through (R38, R443). -/
def writeWord (link : Link) (a : Nat) (v : Word) (s : State) : State :=
  if !answers link a s then s
  else if a < 0x100 then writeHif a v s
  else if a < 0x200 then writeAon a v s
  else if windowTakes a s then { s with win := memWriteN 0 s.win a (leBytes 4 v.toNat) }
  else if 0xF000 ≤ a ∧ a < 0xF040 ∧ link = .pcie then
    if a % 16 = 12 then writeVector (BitVec.ofNat 2 ((a - 0xF000) / 16)) v s
    else { s with win := memWriteN 0 s.win a (leBytes 4 v.toNat) }
  else s

/-! ### Reads -/

/-- R103: the carried-forward count, of which AON_LTS_EST_LO and _HI give 48 bits: while it is carried, the whole part of the
estimate; before line time has started, the reset value; at any other time what it reads is open, and free. -/
def carriedCount (s : State) : Nat :=
  match s.pwr.phase with
  | .entry .off _ => free 0 s % 2 ^ 48
  | .entry _ _ => estimateFloor s % 2 ^ 48
  | .exit _ _ => estimateFloor s % 2 ^ 48
  | .steady .sleep => estimateFloor s % 2 ^ 48
  | .steady .deep => estimateFloor s % 2 ^ 48
  | .boot _ => 0
  | .inert => 0
  | _ => free 0 s % 2 ^ 48

/-- HIF_LTS_SYM: the symbol index; the read latches the superframe count. -/
def readLts (s : State) : Word × State :=
  (BitVec.ofNat 32 (nowLts s).sym.toNat, { s with hif := { s.hif with sfLatch := (nowLts s).sf } })

/-- AON_LTS_EST_LO: the low part; the read latches the high part. -/
def readEst (s : State) : Word × State :=
  let n := carriedCount s
  (BitVec.ofNat 32 n, nextDraw { s with aon := { s.aon with estHi := BitVec.ofNat 16 (n / 2 ^ 32) } })

/-- A read of a HIF_ register (R43). -/
def readHif (a : Nat) (s : State) : Word × State :=
  let v (n : Nat) : Word × State := (BitVec.ofNat 32 n, s)
  match a with
  | 0x000 => v 0x24000201
  | 0x004 => v (hifStatus s)
  | 0x008 => v s.hif.fwver.toNat
  | 0x00C => v (hifCtrl s)
  | 0x010 => v s.hif.cqTail.a0.toNat
  | 0x014 => v s.hif.cqTail.a1.toNat
  | 0x018 => v s.hif.cqTail.a2.toNat
  | 0x01C => v s.hif.cqTail.a3.toNat
  | 0x020 => v s.hif.cqHead.a0.toNat
  | 0x024 => v s.hif.cqHead.a1.toNat
  | 0x028 => v s.hif.cqHead.a2.toNat
  | 0x02C => v s.hif.cqHead.a3.toNat
  | 0x030 => v s.hif.rqTail.toNat
  | 0x034 => v s.hif.rqHead.toNat
  | 0x038 => v s.hif.nqTail.toNat
  | 0x03C => v s.hif.nqHead.toNat
  | 0x040 => v s.hif.nqSeq.toNat
  | 0x044 => v s.hif.irqStatus.toNat
  | 0x048 => v s.hif.irqMask.toNat
  | 0x04C => v (irqCoal s)
  | 0x050 => v s.hif.cqErr.toNat
  | 0x054 => readLts s
  | 0x058 => v s.hif.sfLatch.toNat
  | 0x05C => v (s.hif.sfLatch.toNat / 2 ^ 32)
  | 0x060 => v s.hif.bufBusy.toNat
  | 0x064 => v s.hif.scratch.toNat
  | _ => v 0

/-- A read of an AON_ register (R51). -/
def readAon (a : Nat) (s : State) : Word × State :=
  let v (n : Nat) : Word × State := (BitVec.ofNat 32 n, s)
  match a with
  | 0x100 => v (aonState s)
  | 0x104 => v (aonFault s)
  | 0x108 => v s.aon.wakeSrc.toNat
  | 0x10C => v s.aon.wakeEn.toNat
  | 0x110 => v s.aon.timer.toNat
  | 0x114 => v s.aon.wakeAt.toNat
  | 0x118 => readEst s
  | 0x11C => v s.aon.estHi.toNat
  | 0x124 => v (aonBoot s)
  | 0x128 => v s.aon.scratch.toNat
  | _ => v 0

/-- A read of one word; reserved offsets, and everything that does not answer, read zero (R38, R41). -/
def readWord (link : Link) (a : Nat) (s : State) : Word × State :=
  if !answers link a s then (0, s)
  else if a < 0x100 then readHif a s
  else if a < 0x200 then readAon a s
  else if (0x1000 ≤ a ∧ a < 0x9000) ∨ (0xA000 ≤ a ∧ a < 0xE000) then (BitVec.ofNat 32 (leNat (memReadN 0 s.win a 4)), s)
  else if 0xF000 ≤ a ∧ a < 0xF040 ∧ link = .pcie then
    if a % 16 = 12 then (BitVec.ofNat 32 (boolBit (s.hif.msixMask.getLsbD ((a - 0xF000) / 16)) 0), s)
    else (BitVec.ofNat 32 (leNat (memReadN 0 s.win a 4)), s)
  else if a = 0xF800 ∧ link = .pcie then (BitVec.ofNat 32 s.hif.msixPending.toNat, s)
  else (0, s)

/-! ### Accesses -/

/-- Words written from an address on; the SPI address wraps (R40). -/
def writeFrom (a : Nat) : List Byte → Nat → State → State
  | _, 0, s => s
  | bs, n + 1, s =>
    writeFrom ((a + 4) % 0x10000) (bs.drop 4) n (writeWord .spi a (BitVec.ofNat 32 (leNat (bs.take 4))) s)

/-- SPI_WRITE_FRAME: 1 to 64 whole words to an aligned address; any other frame is ignored as a whole (R40, R444). -/
def execSpiWriteFrame (instr : Byte) (addr : Half) (data : List Byte) (s : State) : Out :=
  .next (if instr = 0x02 ∧ addr.toNat % 4 = 0 ∧ data ≠ [] ∧ data.length % 4 = 0 ∧ data.length ≤ 256 then
    writeFrom addr.toNat data (data.length / 4) s
  else s)

/-- Words read from an address on. -/
def readFrom (a : Nat) : Nat → State → List Word × State
  | 0, s => ([], s)
  | n + 1, s =>
    let r := readWord .spi a s
    let t := readFrom ((a + 4) % 0x10000) n r.2
    (r.1 :: t.1, t.2)

/-- SPI_READ_FRAME: the first 64 words count as read, any further word is zero; an ill-formed frame returns nothing. -/
def execSpiReadFrame (instr : Byte) (addr : Half) (words : Nat) (ragged : Bool) (s : State) : Out :=
  .next (if instr = 0x03 ∧ addr.toNat % 4 = 0 ∧ ragged = false ∧ words ≠ 0 then
    let r := readFrom addr.toNat (min words 64) s
    { r.2 with reply := { r.2.reply with words := r.1 ++ List.replicate (words - 64) 0 } }
  else { s with reply := { s.reply with words := [] } })

/-- PCIE_UNSUPPORTED_ACCESS: a PCIe access of a size or alignment that R39 does not give completes with Unsupported Request and
does nothing else. -/
def execPcieUnsupportedAccess (addr : Half) (size : Nat) (_write : Bool) (s : State) : Out :=
  let good := (decide (size = 4) && decide (addr.toNat % 4 = 0)) || (decide (size = 8) && decide (addr.toNat % 8 = 0))
  .next (if windowUp s && !good then { s with reply := { words := [], ur := true } } else s)

/-- REGISTER_WRITE: a naturally aligned word, or over PCIe two of them, lower address first (R39). -/
def execRegisterWrite (link : Link) (addr : Half) (lo : Word) (hi : Option Word) (s : State) : Out :=
  let a := addr.toNat
  .next (match hi with
  | none =>
    if a % 4 = 0 then accessed link (writeWord link a lo s)
    else if link = .pcie ∧ windowUp s then { s with reply := { words := [], ur := true } }
    else s
  | some w =>
    if link = .spi then s
    else if a % 8 = 0 then accessed link (writeWord link (a + 4) w (writeWord link a lo s))
    else if windowUp s then { s with reply := { words := [], ur := true } }
    else s)

/-- CQ_DOORBELL: a write of HIF_CQn_TAIL. -/
def execCqDoorbell (link : Link) (q : BitVec 2) (v : Word) (s : State) : Out :=
  .next (if answers link (0x010 + 4 * q.toNat) s then accessed link (ringDoorbell q v s) else s)

/-- RQ_HEAD_WRITE: a write of HIF_RQ_HEAD. -/
def execRqHeadWrite (link : Link) (v : Word) (s : State) : Out :=
  .next (if answers link 0x034 s then accessed link (moveRqHead v s) else s)

/-- NQ_HEAD_WRITE: a write of HIF_NQ_HEAD. -/
def execNqHeadWrite (link : Link) (v : Word) (s : State) : Out :=
  .next (if answers link 0x03C s then accessed link (moveNqHead v s) else s)

/-- IRQ_STATUS_CLEAR: a write of HIF_IRQ_STATUS. -/
def execIrqStatusClear (link : Link) (v : Word) (s : State) : Out :=
  .next (if answers link 0x044 s then accessed link (clearCauses v s) else s)

/-- SOFT_RESET: a write of HIF_CTRL. -/
def execSoftReset (link : Link) (v : Word) (s : State) : Out :=
  .next (if answers link 0x00C s then accessed link (writeCtrl v s) else s)

/-- R41: what a read returns where the window does not answer: zero over SPI, nothing while the PCIe link is down. -/
def unread (link : Link) (s : State) : State :=
  { s with reply := { s.reply with words := if link = .spi ∧ s.pins.vsbValid then [0] else [] } }

/-- Reads of the words at some offsets, in order. -/
def readEach (link : Link) : List Nat → State → List Word × State
  | [], s => ([], s)
  | a :: t, s =>
    let r := readWord link a s
    let u := readEach link t r.2
    (r.1 :: u.1, u.2)

/-- A host read: the words it returned. -/
def hostReads (link : Link) (as : List Nat) (s : State) : State :=
  let r := readEach link as s
  accessed link { r.2 with reply := { r.2.reply with words := r.1 } }

/-- LTS_LATCH_READ: a read of HIF_LTS_SYM; a 64-bit PCIe read reaches it as the upper of two accesses (R39). -/
def execLtsLatchRead (link : Link) (wide : Bool) (s : State) : Out :=
  .next (if answers link 0x054 s then
    if wide && decide (link = .pcie) then hostReads link [0x050, 0x054] s else hostReads link [0x054] s
  else unread link s)

/-- LTS_EST_LATCH_READ: a read of AON_LTS_EST_LO; a 64-bit PCIe read goes on to AON_LTS_EST_HI (R39). -/
def execLtsEstLatchRead (link : Link) (wide : Bool) (s : State) : Out :=
  .next (if answers link 0x118 s then
    if wide && decide (link = .pcie) then hostReads link [0x118, 0x11C] s else hostReads link [0x118] s
  else unread link s)

/-- AON_FAULT_CLEAR: a write of AON_FAULT. -/
def execAonFaultClear (link : Link) (v : Word) (s : State) : Out :=
  .next (if answers link 0x104 s then accessed link (clearFault v s) else s)

/-- WAKE_REQ_WRITE: a write of AON_WAKE_REQ. -/
def execWakeReqWrite (link : Link) (v : Word) (s : State) : Out :=
  .next (if answers link 0x120 s then accessed link (writeWakeReq v s) else s)

end Sys2Proof.Machine
end

