-- ==== Sys2Proof/Machine/Dispatch.lean ====
section
/-! DEFINITION. The dispatch: one arm per command of the opcode table, in its order. -/
namespace Sys2Proof.Machine

open Sys2Proof

/-- The effect of a command on everything but the queue. -/
def exec (i : Instr) (s : State) : Host.Outcome State Fault Refusal :=
  match i with
  | .spiWriteFrame instr addr data => Sys2Proof.Machine.execSpiWriteFrame instr addr data s
  | .spiReadFrame instr addr words ragged => Sys2Proof.Machine.execSpiReadFrame instr addr words ragged s
  | .pcieUnsupportedAccess addr size write => Sys2Proof.Machine.execPcieUnsupportedAccess addr size write s
  | .registerWrite link addr lo hi => Sys2Proof.Machine.execRegisterWrite link addr lo hi s
  | .cqDoorbell link q v => Sys2Proof.Machine.execCqDoorbell link q v s
  | .rqHeadWrite link v => Sys2Proof.Machine.execRqHeadWrite link v s
  | .nqHeadWrite link v => Sys2Proof.Machine.execNqHeadWrite link v s
  | .irqStatusClear link v => Sys2Proof.Machine.execIrqStatusClear link v s
  | .softReset link v => Sys2Proof.Machine.execSoftReset link v s
  | .ltsLatchRead link wide => Sys2Proof.Machine.execLtsLatchRead link wide s
  | .ltsEstLatchRead link wide => Sys2Proof.Machine.execLtsEstLatchRead link wide s
  | .aonFaultClear link v => Sys2Proof.Machine.execAonFaultClear link v s
  | .wakeReqWrite link v => Sys2Proof.Machine.execWakeReqWrite link v s
  | .descriptorTake => Sys2Proof.Machine.execDescriptorTake s
  | .schedCommandDue => Sys2Proof.Machine.execSchedCommandDue s
  | .notifyRelease => Sys2Proof.Machine.execNotifyRelease s
  | .notifyBacklogDrain => Sys2Proof.Machine.execNotifyBacklogDrain s
  | .irqHoldExpire => Sys2Proof.Machine.execIrqHoldExpire s
  | .sedgeTaskStart t w => Sys2Proof.Machine.execSedgeTaskStart t w s
  | .sedgeTaskComplete t => Sys2Proof.Machine.execSedgeTaskComplete t s
  | .engineHalt e c => Sys2Proof.Machine.execEngineHalt e c s
  | .engineRestart e seed => Sys2Proof.Machine.execEngineRestart e seed s
  | .vsb33Valid mv => Sys2Proof.Machine.execVsb33Valid mv s
  | .vsb33Loss mv => Sys2Proof.Machine.execVsb33Loss mv s
  | .coldStart => Sys2Proof.Machine.execColdStart s
  | .vin12HoldConfirmed mv => Sys2Proof.Machine.execVin12HoldConfirmed mv s
  | .domainPowerGood d => Sys2Proof.Machine.execDomainPowerGood d s
  | .powerGoodTimeout d osc => Sys2Proof.Machine.execPowerGoodTimeout d osc s
  | .powerRetry => Sys2Proof.Machine.execPowerRetry s
  | .wardenStart => Sys2Proof.Machine.execWardenStart s
  | .commandPathReady => Sys2Proof.Machine.execCommandPathReady s
  | .lineTimeStart => Sys2Proof.Machine.execLineTimeStart s
  | .firstCalibrationDone => Sys2Proof.Machine.execFirstCalibrationDone s
  | .enterRun => Sys2Proof.Machine.execEnterRun s
  | .fwReadyTimeout => Sys2Proof.Machine.execFwReadyTimeout s
  | .wardenWatchdogExpire => Sys2Proof.Machine.execWardenWatchdogExpire s
  | .resetAssert lowNs => Sys2Proof.Machine.execResetAssert lowNs s
  | .resetRelease => Sys2Proof.Machine.execResetRelease s
  | .pciePerst msixEnabled => Sys2Proof.Machine.execPciePerst msixEnabled s
  | .wakePin low cycles => Sys2Proof.Machine.execWakePin low cycles s
  | .timerWake => Sys2Proof.Machine.execTimerWake s
  | .supplyWake mv => Sys2Proof.Machine.execSupplyWake mv s
  | .aonTimerWrap => Sys2Proof.Machine.execAonTimerWrap s
  | .lowStateEntry => Sys2Proof.Machine.execLowStateEntry s
  | .entryWindowEnd => Sys2Proof.Machine.execEntryWindowEnd s
  | .wakeAccept => Sys2Proof.Machine.execWakeAccept s
  | .ovenReady caseTemp => Sys2Proof.Machine.execOvenReady caseTemp s
  | .lineTimeResume => Sys2Proof.Machine.execLineTimeResume s
  | .wakeExitComplete => Sys2Proof.Machine.execWakeExitComplete s
  | .coppiceSet mv => Sys2Proof.Machine.execCoppiceSet mv s
  | .coppiceShed => Sys2Proof.Machine.execCoppiceShed s
  | .coppiceClear mv => Sys2Proof.Machine.execCoppiceClear mv s
  | .orderlyOffDone => Sys2Proof.Machine.execOrderlyOffDone s
  | .caseTempMeasure temp => Sys2Proof.Machine.execCaseTempMeasure temp s
  | .overtempShutdown => Sys2Proof.Machine.execOvertempShutdown s
  | .mmVoteExpire => Sys2Proof.Machine.execMmVoteExpire s
  | .fenWatchWindow => Sys2Proof.Machine.execFenWatchWindow s
  | .fenWatchCompare power => Sys2Proof.Machine.execFenWatchCompare power s
  | .watchExit => Sys2Proof.Machine.execWatchExit s
  | .modeChangeStart => Sys2Proof.Machine.execModeChangeStart s
  | .modeChangeLoad => Sys2Proof.Machine.execModeChangeLoad s
  | .modeChangeComplete => Sys2Proof.Machine.execModeChangeComplete s
  | .losCompare power => Sys2Proof.Machine.execLosCompare power s
  | .adcOverrange ch high samples rx => Sys2Proof.Machine.execAdcOverrange ch high samples rx s
  | .gainStepApply rx => Sys2Proof.Machine.execGainStepApply rx s
  | .sliceFailure conv ch slice => Sys2Proof.Machine.execSliceFailure conv ch slice s
  | .calSlotOpen => Sys2Proof.Machine.execCalSlotOpen s
  | .sliceSwap conv => Sys2Proof.Machine.execSliceSwap conv s
  | .swapSlotSkip conv => Sys2Proof.Machine.execSwapSlotSkip conv s
  | .sliceCalDone conv offset gain skew noise => Sys2Proof.Machine.execSliceCalDone conv offset gain skew noise s
  | .resonatorCalUpdate input => Sys2Proof.Machine.execResonatorCalUpdate input s
  | .calibrationStale dom item => Sys2Proof.Machine.execCalibrationStale dom item s
  | .acqEntry => Sys2Proof.Machine.execAcqEntry s
  | .acqStateComplete cands cfoKhz => Sys2Proof.Machine.execAcqStateComplete cands cfoKhz s
  | .acqStateTimeout => Sys2Proof.Machine.execAcqStateTimeout s
  | .acqReturnA0 cause => Sys2Proof.Machine.execAcqReturnA0 cause s
  | .trackExit => Sys2Proof.Machine.execTrackExit s
  | .cycleSlip polY r1 r2 rx => Sys2Proof.Machine.execCycleSlip polY r1 r2 rx s
  | .senseInput x rx => Sys2Proof.Machine.execSenseInput x rx s
  | .fecAlignDecision fractions rxSf => Sys2Proof.Machine.execFecAlignDecision fractions rxSf s
  | .fecAlignLoss fractions => Sys2Proof.Machine.execFecAlignLoss fractions s
  | .codewordDeliver c rx => Sys2Proof.Machine.execCodewordDeliver c rx s
  | .sfohReceive bytes rxSf => Sys2Proof.Machine.execSfohReceive bytes rxSf s
  | .tfHeaderReceive f rx => Sys2Proof.Machine.execTfHeaderReceive f rx s
  | .tfTransmit fills => Sys2Proof.Machine.execTfTransmit fills s
  | .defectSet d => Sys2Proof.Machine.execDefectSet d s
  | .defectClear d => Sys2Proof.Machine.execDefectClear d s
  | .txSpanBoundary => Sys2Proof.Machine.execTxSpanBoundary s
  | .rxSpanStart tid phase rx => Sys2Proof.Machine.execRxSpanStart tid phase rx s
  | .spanRecordReceive tid bytes rx => Sys2Proof.Machine.execSpanRecordReceive tid bytes rx s
  | .spanTagVerify tid data tag rx => Sys2Proof.Machine.execSpanTagVerify tid data tag rx s
  | .spanRelease tid => Sys2Proof.Machine.execSpanRelease tid s
  | .tagRecomputeMismatch tid => Sys2Proof.Machine.execTagRecomputeMismatch tid s
  | .laneFrameReceive f => Sys2Proof.Machine.execLaneFrameReceive f s
  | .osierAdvertise lane blk => Sys2Proof.Machine.execOsierAdvertise lane blk s
  | .osierStepAck lane blk => Sys2Proof.Machine.execOsierStepAck lane blk s
  | .osierTrain lane blk => Sys2Proof.Machine.execOsierTrain lane blk s
  | .osierLinkUp lane blk => Sys2Proof.Machine.execOsierLinkUp lane blk s
  | .osierLpReq lane blk => Sys2Proof.Machine.execOsierLpReq lane blk s
  | .osierLpAck lane blk => Sys2Proof.Machine.execOsierLpAck lane blk s
  | .osierFault lane blk => Sys2Proof.Machine.execOsierFault lane blk s
  | .osierStepSwitch transmitter => Sys2Proof.Machine.execOsierStepSwitch transmitter s
  | .osierPhaseLimit => Sys2Proof.Machine.execOsierPhaseLimit s
  | .osierL1Exit => Sys2Proof.Machine.execOsierL1Exit s
  | .ingressFail port cause => Sys2Proof.Machine.execIngressFail port cause s
  | .ingressRecover port => Sys2Proof.Machine.execIngressRecover port s
  | .refActivityLoss input => Sys2Proof.Machine.execRefActivityLoss input s
  | .clockSlewComplete => Sys2Proof.Machine.execClockSlewComplete s
  | .ppsEdge input offset widthNs sinceLastNs => Sys2Proof.Machine.execPpsEdge input offset widthNs sinceLastNs s
  | .todAnchorTimeout => Sys2Proof.Machine.execTodAnchorTimeout s
  | .ppsoutEdge errorNs => Sys2Proof.Machine.execPpsoutEdge errorNs s
  | .historyRecordClose => Sys2Proof.Machine.execHistoryRecordClose s
  | .senseSampleWrite s1 s2 s3 phaseRate dgd => Sys2Proof.Machine.execSenseSampleWrite s1 s2 s3 phaseRate dgd s
  | .captureFillDone codes => Sys2Proof.Machine.execCaptureFillDone codes s
  | .captureCopyDone => Sys2Proof.Machine.execCaptureCopyDone s
  | .cruiserPageCheck corrected syndromeZero decodable => Sys2Proof.Machine.execCruiserPageCheck corrected syndromeZero decodable s
  | .cruiserBoost => Sys2Proof.Machine.execCruiserBoost s
  | .storeRead word d pageDecodes => Sys2Proof.Machine.execStoreRead word d pageDecodes s
  | .mergeBufferTimeout word d pageDecodes => Sys2Proof.Machine.execMergeBufferTimeout word d pageDecodes s
  | .regionInitDone => Sys2Proof.Machine.execRegionInitDone s
  | .flashPatrol bitsCorrected readRetry => Sys2Proof.Machine.execFlashPatrol bitsCorrected readRetry s
  | .flashBlockFail block => Sys2Proof.Machine.execFlashBlockFail block s
  | .intervalBoundary day => Sys2Proof.Machine.execIntervalBoundary day s
  | .ageAccrue temp => Sys2Proof.Machine.execAgeAccrue temp s
  | .ageingDaily => Sys2Proof.Machine.execAgeingDaily s
  | .coreSlackEmergency => Sys2Proof.Machine.execCoreSlackEmergency s
  | .blazeSample cw ins => Sys2Proof.Machine.execBlazeSample cw ins s
  | .monConversion raw overRange => Sys2Proof.Machine.execMonConversion raw overRange s
  | .laserLock => Sys2Proof.Machine.execLaserLock s
  | .biasConverged loops => Sys2Proof.Machine.execBiasConverged loops s
  | .biasConvergeLimit loop drift => Sys2Proof.Machine.execBiasConvergeLimit loop drift s
  | .overpowerTrip peak => Sys2Proof.Machine.execOverpowerTrip peak s
  | .alsPulseStart => Sys2Proof.Machine.execAlsPulseStart s
  | .alsPulseEnd => Sys2Proof.Machine.execAlsPulseEnd s
  | .freezePin low => Sys2Proof.Machine.execFreezePin low s
  | .freezeTrigger t => Sys2Proof.Machine.execFreezeTrigger t s
  | .testLogicReset => Sys2Proof.Machine.execTestLogicReset s
  | .bypass tdi => Sys2Proof.Machine.execBypass tdi s
  | .idcode shifts => Sys2Proof.Machine.execIdcode shifts s
  | .samplePreload tdi => Sys2Proof.Machine.execSamplePreload tdi s
  | .extest tdi => Sys2Proof.Machine.execExtest tdi s
  | .frzSel chain => Sys2Proof.Machine.execFrzSel chain s
  | .frzData shifts => Sys2Proof.Machine.execFrzData shifts s
  | .sysIdentify h => Sys2Proof.Machine.execSysIdentify h s
  | .sysCancel h target => Sys2Proof.Machine.execSysCancel h target s
  | .cvConfig h profile width flags poly init xorOut => Sys2Proof.Machine.execCvConfig h profile width flags poly init xorOut s
  | .cvRun h profile mode ctx src region offset len => Sys2Proof.Machine.execCvRun h profile mode ctx src region offset len s
  | .cvCtxRead h ctx => Sys2Proof.Machine.execCvCtxRead h ctx s
  | .cvCtxWrite h ctx => Sys2Proof.Machine.execCvCtxWrite h ctx s
  | .cvScan h profile src region blk offset len action work => Sys2Proof.Machine.execCvScan h profile src region blk offset len action work s
  | .flashStatus h => Sys2Proof.Machine.execFlashStatus h s
  | .fwStage h offset => Sys2Proof.Machine.execFwStage h offset s
  | .fwCommit h => Sys2Proof.Machine.execFwCommit h s
  | .fwActivate h mode => Sys2Proof.Machine.execFwActivate h mode s
  | .fwConfirm h => Sys2Proof.Machine.execFwConfirm h s
  | .logRead h first count => Sys2Proof.Machine.execLogRead h first count s
  | .pwrStateSet h target => Sys2Proof.Machine.execPwrStateSet h target s
  | .pwrStatus h => Sys2Proof.Machine.execPwrStatus h s
  | .pwrVote h domains => Sys2Proof.Machine.execPwrVote h domains s
  | .pwrConfig h period flags => Sys2Proof.Machine.execPwrConfig h period flags s
  | .lineModeSet h code flags p => Sys2Proof.Machine.execLineModeSet h code flags p s
  | .lineModeGet h => Sys2Proof.Machine.execLineModeGet h s
  | .lineFlexCheck h p => Sys2Proof.Machine.execLineFlexCheck h p s
  | .feConfig h mode xGain yGain rms ovrStep losThr flags => Sys2Proof.Machine.execFeConfig h mode xGain yGain rms ovrStep losThr flags s
  | .feStatus h flags => Sys2Proof.Machine.execFeStatus h flags s
  | .feSlices h ch => Sys2Proof.Machine.execFeSlices h ch s
  | .feCoefSet h set action check => Sys2Proof.Machine.execFeCoefSet h set action check s
  | .eqConfig h taps profile bw flags hint window floor warmHold => Sys2Proof.Machine.execEqConfig h taps profile bw flags hint window floor warmHold s
  | .eqStatus h => Sys2Proof.Machine.execEqStatus h s
  | .eqEstimates h => Sys2Proof.Machine.execEqEstimates h s
  | .eqNlc h mode scale => Sys2Proof.Machine.execEqNlc h mode scale s
  | .eqReacquire h entry => Sys2Proof.Machine.execEqReacquire h entry s
  | .eqHold h hold => Sys2Proof.Machine.execEqHold h hold s
  | .txLaser h grid fine power flags => Sys2Proof.Machine.execTxLaser h grid fine power flags s
  | .txEnable h request => Sys2Proof.Machine.execTxEnable h request s
  | .txShaping h beta action flags cd scale clip => Sys2Proof.Machine.execTxShaping h beta action flags cd scale clip s
  | .txStatus h => Sys2Proof.Machine.execTxStatus h s
  | .txSafety h on interval pulse => Sys2Proof.Machine.execTxSafety h on interval pulse s
  | .txSlices h ch => Sys2Proof.Machine.execTxSlices h ch s
  | .fecConfig h l flags deg => Sys2Proof.Machine.execFecConfig h l flags deg s
  | .fecStatus h => Sys2Proof.Machine.execFecStatus h s
  | .fecCounters h flags => Sys2Proof.Machine.execFecCounters h flags s
  | .fecInject h on ber => Sys2Proof.Machine.execFecInject h on ber s
  | .tribDefine h tid client port cipher => Sys2Proof.Machine.execTribDefine h tid client port cipher s
  | .tribRemove h tid => Sys2Proof.Machine.execTribRemove h tid s
  | .tribStatus h tid flags => Sys2Proof.Machine.execTribStatus h tid flags s
  | .tfStatus h => Sys2Proof.Machine.execTfStatus h s
  | .keyKekInfo h => Sys2Proof.Machine.execKeyKekInfo h s
  | .keyLoad h slot => Sys2Proof.Machine.execKeyLoad h slot s
  | .keyErase h slot flags => Sys2Proof.Machine.execKeyErase h slot flags s
  | .keyAssign h tid ref slot => Sys2Proof.Machine.execKeyAssign h tid ref slot s
  | .keyActivate h tid => Sys2Proof.Machine.execKeyActivate h tid s
  | .keyStatus h slot => Sys2Proof.Machine.execKeyStatus h slot s
  | .ciphTribStatus h tid flags => Sys2Proof.Machine.execCiphTribStatus h tid flags s
  | .ciphSelftest h => Sys2Proof.Machine.execCiphSelftest h s
  | .ciphTribMode h tid behaviour => Sys2Proof.Machine.execCiphTribMode h tid behaviour s
  | .mmRun h alg dir mode ctx slot prio aadLen iv tag => Sys2Proof.Machine.execMmRun h alg dir mode ctx slot prio aadLen iv tag s
  | .mmCtxSave h ctx form => Sys2Proof.Machine.execMmCtxSave h ctx form s
  | .mmCtxRestore h ctx => Sys2Proof.Machine.execMmCtxRestore h ctx s
  | .mmRead h ctx flags offset => Sys2Proof.Machine.execMmRead h ctx flags offset s
  | .hlConfig h mode n step group flags inPol outPol => Sys2Proof.Machine.execHlConfig h mode n step group flags inPol outPol s
  | .hlStatus h => Sys2Proof.Machine.execHlStatus h s
  | .hlLaneStatus h lane => Sys2Proof.Machine.execHlLaneStatus h lane s
  | .hlPort h port flags => Sys2Proof.Machine.execHlPort h port flags s
  | .hlPower h state => Sys2Proof.Machine.execHlPower h state s
  | .hlLoopback h kind lanes => Sys2Proof.Machine.execHlLoopback h kind lanes s
  | .hlRetrain h kind => Sys2Proof.Machine.execHlRetrain h kind s
  | .refInputConfig h input prio freq tol drift off => Sys2Proof.Machine.execRefInputConfig h input prio freq tol drift off s
  | .refSelect h mode input flags => Sys2Proof.Machine.execRefSelect h mode input flags s
  | .refStatus h => Sys2Proof.Machine.execRefStatus h s
  | .refInputStatus h input => Sys2Proof.Machine.execRefInputStatus h input s
  | .refOutputConfig h output source lane freq flags => Sys2Proof.Machine.execRefOutputConfig h output source lane freq flags s
  | .refPpsConfig h mode input offset width => Sys2Proof.Machine.execRefPpsConfig h mode input offset width s
  | .refTodSet h secs ns anchor sf sym => Sys2Proof.Machine.execRefTodSet h secs ns anchor sf sym s
  | .refTodGet h => Sys2Proof.Machine.execRefTodGet h s
  | .hsHistory h start => Sys2Proof.Machine.execHsHistory h start s
  | .hsHistoryRead h first count => Sys2Proof.Machine.execHsHistoryRead h first count s
  | .hsSenseConfig h rate => Sys2Proof.Machine.execHsSenseConfig h rate s
  | .hsSenseRead h first count => Sys2Proof.Machine.execHsSenseRead h first count s
  | .hsTriggerConfig h enables m action rateThr excThr => Sys2Proof.Machine.execHsTriggerConfig h enables m action rateThr excThr s
  | .hsCaptureCmd h action flags => Sys2Proof.Machine.execHsCaptureCmd h action flags s
  | .hsCaptureRead h slot flags offset => Sys2Proof.Machine.execHsCaptureRead h slot flags offset s
  | .hsCruiser h rate flags => Sys2Proof.Machine.execHsCruiser h rate flags s
  | .hsStoreStatus h => Sys2Proof.Machine.execHsStoreStatus h s
  | .hsRegionInit h region => Sys2Proof.Machine.execHsRegionInit h region s
  | .calStatus h dom item => Sys2Proof.Machine.execCalStatus h dom item s
  | .calConfig h dom flags stale => Sys2Proof.Machine.execCalConfig h dom flags stale s
  | .calRun h dom slice => Sys2Proof.Machine.execCalRun h dom slice s
  | .monConfig h mode mask => Sys2Proof.Machine.execMonConfig h mode mask s
  | .monChannel h ch ref range flags offset gain => Sys2Proof.Machine.execMonChannel h ch ref range flags offset gain s
  | .monTable h entries => Sys2Proof.Machine.execMonTable h entries s
  | .monRead h src count => Sys2Proof.Machine.execMonRead h src count s
  | .ageReport h metric => Sys2Proof.Machine.execAgeReport h metric s
  | .ageConfig h margin flags => Sys2Proof.Machine.execAgeConfig h margin flags s
  | .tallyRead h id bin => Sys2Proof.Machine.execTallyRead h id bin s
  | .tallyClear h id => Sys2Proof.Machine.execTallyClear h id s
  | .blazeConfig h period flags => Sys2Proof.Machine.execBlazeConfig h period flags s
  | .blazeRead h first count => Sys2Proof.Machine.execBlazeRead h first count s
  | .dbgFreezeCmd h action trigger delay => Sys2Proof.Machine.execDbgFreezeCmd h action trigger delay s
  | .dbgRelease h => Sys2Proof.Machine.execDbgRelease h s
  | .dbgStatus h => Sys2Proof.Machine.execDbgStatus h s
  | .cvJobDone => Sys2Proof.Machine.execCvJobDone s
  | .mmJobDone ctx => Sys2Proof.Machine.execMmJobDone ctx s
  | .vinOkChange mv => Sys2Proof.Machine.execVinOkChange mv s

end Sys2Proof.Machine
end

