-- ==== Sys2Proof/Machine/Step.lean ====
section
/-! DEFINITION. The step: the command at the front of the queue, or a tick of the clocks on an empty queue (log entry 1). -/
namespace Sys2Proof.Machine

open Sys2Proof

/-- Takes the command at the front and runs it with the queue's rest. -/
def step (s : State) : Host.Outcome State Fault Refusal :=
  match s.pending with
  | [] => .next (clockTick s)
  | c :: rest => exec c { s with pending := rest }

/-- `s` with the command that a word of the opcode table spells at the front of its queue. -/
def State.withFetchWord (s : State) (nbits w : Nat) : State :=
  match Sys2Proof.decodeTableWord nbits w with
  | some c => { s with pending := c :: s.pending }
  | none => s

end Sys2Proof.Machine
end

