-- ==== Sys2Proof/WellFormed.lean ====
section
/-! DEFINITION. Which terms of `Instr` stand for a command that the spec allows to exist: header fields as a descriptor can carry
them (R59, R100), and operands of an event within what the part can produce. Every check is one named test. -/
namespace Sys2Proof

open Sys2Proof.Machine

/-- R59, R100: EXEC_AT has bits [7:0] of the symbol index zero. -/
def Hdr.stampWf (h : Hdr) : Bool := decide (h.execAt.sym &&& 0xFF = 0)

/-- R59: LENGTH is 1 to 4,096 with BUF, zero without. -/
def Hdr.lengthWf (h : Hdr) : Bool :=
  if h.buf then decide (1 ≤ h.length.toNat) && decide (h.length.toNat ≤ 4096) else decide (h.length = 0)

/-- A header that a descriptor can carry. -/
def Hdr.wf (h : Hdr) : Bool := h.stampWf && h.lengthWf

/-- R89: the received superframe of an event ends after it starts. -/
def RxAt.wf (r : RxAt) : Bool := r.a.lt r.b

/-- R173: Stokes parameters in Q1.14. -/
def SenseIn.wf (i : SenseIn) : Bool :=
  let unit (v : Int) : Bool := decide (-16384 ≤ v) && decide (v ≤ 16384)
  unit i.s1 && unit i.s2 && unit i.s3

/-- Operands beyond the header: fixed lengths (R224, R226, R262, R265, R277, R296, R347), addresses and numbers that exist (R39,
R53, R72, R134, R185, R308, R330, R378). -/
def Instr.operandsWf (i : Instr) : Bool :=
  match i with
  | .registerWrite link addr _ hi =>
    decide (addr.toNat % 4 = 0) && (hi.isNone || (decide (link = .pcie) && decide (addr.toNat % 8 = 0)))
  | .pcieUnsupportedAccess addr size _ =>
    !((decide (size = 4) && decide (addr.toNat % 4 = 0)) || (decide (size = 8) && decide (addr.toNat % 8 = 0)))
  | .sliceFailure conv _ slice => decide (slice.toNat < if conv = .adc then 68 else 34)
  | .calibrationStale dom _ => decide (dom.toNat ≤ 5)
  | .refActivityLoss input => decide (input.toNat ≤ 4) || (decide (16 ≤ input.toNat) && decide (input.toNat ≤ 31))
  | .ppsEdge input _ _ _ => decide (input = 2) || decide (input = 3)
  | .resonatorCalUpdate input => decide (input.toNat ≤ 1)
  | .biasConvergeLimit loop _ => decide (loop.toNat ≤ 5)
  | .adcOverrange _ _ _ rx => rx.wf
  | .gainStepApply rx => rx.wf
  | .cycleSlip _ _ _ rx => rx.wf
  | .senseInput x rx => x.wf && rx.wf
  | .sfohReceive bytes _ => decide (bytes.length = 16)
  | .codewordDeliver _ rx => rx.wf
  | .tfHeaderReceive f rx => decide (f.header.length = 16) && decide (f.table.length = 24) && f.table.all (fun e => decide (e.length = 4)) && rx.wf
  | .rxSpanStart _ _ rx => rx.wf
  | .spanRecordReceive _ bytes rx => decide (bytes.length = 16) && rx.wf
  | .spanTagVerify _ _ tag rx => decide (tag.length = 16) && rx.wf
  | .osierAdvertise _ blk => decide (blk.length = 32)
  | .osierStepAck _ blk => decide (blk.length = 32)
  | .osierTrain _ blk => decide (blk.length = 32)
  | .osierLinkUp _ blk => decide (blk.length = 32)
  | .osierLpReq _ blk => decide (blk.length = 32)
  | .osierLpAck _ blk => decide (blk.length = 32)
  | .osierFault _ blk => decide (blk.length = 32)
  | .storeRead word _ _ => decide (word < 2147483648)
  | .mergeBufferTimeout word _ _ => decide (word < 2147483648)
  | .flashBlockFail block => decide (block < 4096)
  | .captureFillDone codes => decide (codes.length = 4194304)
  | .mmRun _ _ _ _ _ _ _ _ iv tag => decide (iv.length = 16) && decide (tag.length = 16)
  | _ => true

/-- A well-formed command. -/
def Instr.wf (i : Instr) : Bool := (match mailbox i with | some x => x.2.wf | none => true) && i.operandsWf

end Sys2Proof
end

