-- ==== Sys2Proof/Safety.lean ====
section
/-! DEFINITION. What counts as a safe run, in the terms the statements use: the step answers a next state, and the memories of the
state keep their canonical form. -/
namespace Sys2Proof.Machine

open Sys2Proof

/-- The window, the history store and the flash are in canonical form (R38, R330, R72). -/
def memoriesWf (s : State) : Bool := memWf 0 s.win && memWf 0 s.hs.mem && memWf 0xFF s.flash.mem

/-- R77: no more fuses are blown than there are. -/
def fusesWf (s : State) : Bool := decide (s.ident.fuses ≤ 64)

/-- The step neither faults nor refuses. -/
def runs (s : State) : Prop := ∃ t, step s = .next t

/-- A byte of the management window (R38). -/
def windowByte (s : State) (a : Nat) : Byte := memRead 0 s.win a

/-- The offset at which the next response is written (R38, R62). -/
def responseAt (s : State) : Nat := 0x3000 + 64 * (s.hif.rqTail.toNat % 128)

/-- The offset at which the next notification is written (R38, R63). -/
def notificationAt (s : State) : Nat := 0x5000 + 64 * (s.hif.nqTail.toNat % 256)

/-- R116: a change between two traffic modes of one symbol rate. -/
def keepsRate (a b : Option LMode) : Bool :=
  match a, b with
  | some x, some y => decide (x.rate = y.rate)
  | _, _ => false

end Sys2Proof.Machine
end

