-- ==== Sys2Proof/Certificates/Slice0/Obligations.lean ====
section
/-! DEFINITION. The statements for the provers: what a command leaves in the state, when it is refused, and what every step keeps,
each from the rules its docstring names. -/

open Sys2Proof Sys2Proof.Machine

/-- The command at the front of the queue runs, on the state with the rest of the queue; the model's queue discipline. -/
def Obligations.StepRunsFront : Prop :=
  ∀ (s : State) (c : Instr) (rest : List Instr), s.pending = c :: rest → step s = exec c { s with pending := rest }

/-- On an empty queue a symbol frame passes: line time moves by 2^16 symbols while it runs and is not frozen, the always-on
count by the free number of cycles of log entry 9, with its wrap count, and the resonator's and the warden's clocks by free numbers
of nanoseconds (log entry 9). Taking a tick there is the model's choice (log entry 1). -/
def Obligations.EmptyQueueTicks : Prop :=
  ∀ (s : State), s.pending = [] → ∃ t, step s = .next t ∧
    (s.time.running = true → s.dbg.frozen = false → t.time.lts = Lts.ofNat (s.time.lts.toNat + 65536)) ∧
    (s.time.running = false ∨ s.dbg.frozen = true → t.time.lts = s.time.lts) ∧
    (s.pins.vsbValid = true →
      t.aon = { s.aon with
        timer := BitVec.ofNat 32 (s.aon.timer.toNat + Config.aonCycles s.time.ticks),
        wraps := s.aon.wraps + BitVec.ofNat 16 ((s.aon.timer.toNat + Config.aonCycles s.time.ticks) / 2 ^ 32) }) ∧
    (s.pins.vsbValid = false → t.aon = s.aon) ∧
    (s.dbg.frozen = false → t.time.resFrozen = s.time.resFrozen) ∧
    (s.dbg.frozen = true → t.time.resFrozen = s.time.resFrozen + Config.resonatorNs s.time.ticks) ∧
    t = { s with
      aon := t.aon,
      time := { s.time with
        lts := t.time.lts, ticks := s.time.ticks + 1, resNs := s.time.resNs + Config.resonatorNs s.time.ticks,
        resFrozen := t.time.resFrozen, wardenNs := s.time.wardenNs + Config.wardenNs s.time.ticks } }

/-- What the registers of R43 and R51 read at reset, VSB33 just applied, with the phase of R33 and the empty queues. AON_STATE is
stated without TARGET, which R52 makes equal to STATE (log entry 33). -/
def Obligations.ResetRegisters : Prop :=
  (∀ a ∈ [0x008, 0x00C, 0x010, 0x014, 0x018, 0x01C, 0x020, 0x024, 0x028, 0x02C, 0x030, 0x034, 0x038, 0x03C, 0x040, 0x044,
      0x048, 0x04C, 0x050, 0x054, 0x058, 0x05C, 0x060, 0x064], (readHif a State.reset).1 = 0) ∧
  (readHif 0x000 State.reset).1 = 0x24000201 ∧ (readHif 0x004 State.reset).1 = 0x0000000E ∧
  (∀ a ∈ [0x104, 0x108, 0x110, 0x118, 0x11C, 0x124, 0x128], (readAon a State.reset).1 = 0) ∧
  (readAon 0x100 State.reset).1 &&& 0xFFFFF0FF = 0x0000000E ∧ (readAon 0x10C State.reset).1 = 0x0000001F ∧
  (readAon 0x114 State.reset).1 = 0xFFFFFFFF ∧
  State.reset.pwr.phase = .boot 1 ∧ State.reset.pending = [] ∧ State.reset.time.running = false

/-- A host write of one word: it reaches a command queue or a staging buffer no command holds, byte for byte in little-endian
order and nowhere else; in the response and notification queue areas, in a held buffer and at reserved offsets it changes no
byte (R38, R39, R60, R443). -/
def Obligations.HostWordWrites : Prop :=
  ∀ (link : Link) (a : Nat) (v : Word) (s : State), memWf 0 s.win = true → windowUp s = true → a % 4 = 0 → a < 0x10000 →
    ((0x1000 ≤ a ∧ a < 0x3000) ∨
      (0xA000 ≤ a ∧ a < 0xE000 ∧ s.hif.bufBusy.getLsbD ((a - 0xA000) / 0x1000) = false) →
      ∃ t, exec (.registerWrite link (BitVec.ofNat 16 a) v none) s = .next t ∧
        (∀ k, k < 4 → windowByte t (a + k) = BitVec.ofNat 8 (v.toNat / 256 ^ k)) ∧
        (∀ b, (b < a ∨ a + 4 ≤ b) → windowByte t b = windowByte s b) ∧
        t = accessed link { s with win := t.win }) ∧
    ((0x3000 ≤ a ∧ a < 0x9000) ∨ (0x9000 ≤ a ∧ a < 0xA000) ∨ (0xE000 ≤ a ∧ a < 0xF000) ∨ (0x200 ≤ a ∧ a < 0x1000) ∨
      (0xA000 ≤ a ∧ a < 0xE000 ∧ s.hif.bufBusy.getLsbD ((a - 0xA000) / 0x1000) = true) →
      exec (.registerWrite link (BitVec.ofNat 16 a) v none) s = .next (accessed link s))

/-- SPI frames: a write frame of 1 to 64 whole words at an aligned address writes them one after another, the address wrapping; any other
write frame is ignored as a whole. A read frame returns its first 64 words, one after another, the address wrapping, and zero for
every further one; an ill-formed one returns nothing (R40, R444). A PCIe access of another size or alignment completes with
Unsupported Request and does nothing else; a 64-bit write is two 32-bit ones, lower address first, and so is a 64-bit read, shown for
the two registers whose read latches others (R39). HIF_LTS_SYM latches the superframe count of the present stamp; AON_LTS_EST_LO, while
a count is carried forward, its high part (R43, R51, R103). Where the window does not answer, an SPI read returns zero (R41). -/
def Obligations.RegisterAccesses : Prop :=
  (∀ (addr : Half) (data : List Byte) (s : State),
    addr.toNat % 4 = 0 → data ≠ [] → data.length % 4 = 0 → data.length ≤ 256 →
      exec (.spiWriteFrame 0x02 addr data) s = .next (writeFrom addr.toNat data (data.length / 4) s)) ∧
  (∀ (addr : Half) (b0 b1 b2 b3 : Byte) (rest : List Byte) (n : Nat) (s : State),
    writeFrom addr.toNat (b0 :: b1 :: b2 :: b3 :: rest) (n + 1) s =
      writeFrom ((addr.toNat + 4) % 0x10000) rest n (writeWord .spi addr.toNat (b3 ++ b2 ++ b1 ++ b0) s)) ∧
  (∀ (instr : Byte) (addr : Half) (data : List Byte) (s : State),
    (instr ≠ 0x02 ∨ addr.toNat % 4 ≠ 0 ∨ data = [] ∨ data.length % 4 ≠ 0 ∨ 256 < data.length) →
      exec (.spiWriteFrame instr addr data) s = .next s) ∧
  (∀ (addr : Half) (words : Nat) (s : State), addr.toNat % 4 = 0 → words ≠ 0 →
    ∃ t, exec (.spiReadFrame 0x03 addr words false) s = .next t ∧
      t.reply.words = (readFrom addr.toNat (min words 64) s).1 ++ List.replicate (words - 64) 0 ∧
      t.reply.words.length = words ∧
      t = { s with reply := t.reply, hif := { s.hif with sfLatch := t.hif.sfLatch },
                   aon := { s.aon with estHi := t.aon.estHi }, time := { s.time with drawn := t.time.drawn } }) ∧
  (∀ (instr : Byte) (addr : Half) (words : Nat) (ragged : Bool) (s : State),
    (instr ≠ 0x03 ∨ addr.toNat % 4 ≠ 0 ∨ ragged = true ∨ words = 0) →
      exec (.spiReadFrame instr addr words ragged) s = .next { s with reply := { s.reply with words := [] } }) ∧
  (∀ (addr : Half) (n : Nat) (s : State),
    (readFrom addr.toNat (n + 1) s).1 =
      (readWord .spi addr.toNat s).1 :: (readFrom ((addr.toNat + 4) % 0x10000) n (readWord .spi addr.toNat s).2).1) ∧
  (∀ (addr : Half) (size : Nat) (write : Bool) (s : State), windowUp s = true →
    ¬ (size = 4 ∧ addr.toNat % 4 = 0) → ¬ (size = 8 ∧ addr.toNat % 8 = 0) →
      exec (.pcieUnsupportedAccess addr size write) s = .next { s with reply := { words := [], ur := true } }) ∧
  (∀ (addr : Half) (lo hi : Word) (s : State), addr.toNat % 8 = 0 →
    exec (.registerWrite .pcie addr lo (some hi)) s =
      .next (accessed .pcie (writeWord .pcie (addr.toNat + 4) hi (writeWord .pcie addr.toNat lo s)))) ∧
  (∀ (link : Link) (wide : Bool) (s : State), windowUp s = true → ¬ (link = .pcie ∧ wide = true) →
    exec (.ltsLatchRead link wide) s = .next (accessed link { s with
      hif := { s.hif with sfLatch := (nowLts s).sf },
      reply := { s.reply with words := [BitVec.ofNat 32 (nowLts s).sym.toNat] } })) ∧
  (∀ (s : State), windowUp s = true →
    exec (.ltsLatchRead .pcie true) s = .next { s with
      hif := { s.hif with sfLatch := (nowLts s).sf },
      reply := { words := [s.hif.cqErr, BitVec.ofNat 32 (nowLts s).sym.toNat], ur := false } }) ∧
  (∀ (wide : Bool) (s : State), s.pins.vsbValid = true → windowUp s = false →
    exec (.ltsLatchRead .spi wide) s = .next { s with reply := { s.reply with words := [0] } }) ∧
  (∀ (wide : Bool) (s : State), s.pins.vsbValid = true →
    (s.pwr.phase = .steady .sleep ∨ s.pwr.phase = .steady .deep ∨ (∃ st k, s.pwr.phase = .exit st k)) →
    exec (.ltsEstLatchRead .spi wide) s = .next (nextDraw { s with
      aon := { s.aon with estHi := BitVec.ofNat 16 (estimateFloor s % 2 ^ 48 / 2 ^ 32) },
      reply := { s.reply with words := [BitVec.ofNat 32 (estimateFloor s % 2 ^ 48)] } })) ∧
  (∀ (s : State), windowUp s = true → (s.pwr.phase = .steady .sleep ∨ (∃ st k, s.pwr.phase = .exit st k)) →
    exec (.ltsEstLatchRead .pcie true) s = .next (nextDraw { s with
      aon := { s.aon with estHi := BitVec.ofNat 16 (estimateFloor s % 2 ^ 48 / 2 ^ 32) },
      reply := {
        words := [BitVec.ofNat 32 (estimateFloor s % 2 ^ 48), BitVec.ofNat 32 (estimateFloor s % 2 ^ 48 / 2 ^ 32)],
        ur := false } }))

/-- The doorbell of a ring with room: the tail moves, and each descriptor it passes waits in its queue in order, is outstanding
with its tag, and holds the staging buffer it names unless another command holds it. Beyond the ring the tail stays and the
write is reported (R56, R58, R60). -/
def Obligations.DoorbellSubmits : Prop :=
  ∀ (link : Link) (q : BitVec 2) (s : State), windowUp s = true →
    (∀ h, h = descHdr q (memReadN 0 s.win (0x1000 + 0x800 * q.toNat + 64 * ((s.hif.cqTail.get q).toNat % 32)) 64) →
      (s.hif.cqTail.get q - s.hif.cqHead.get q).toNat < 32 →
      ∃ t, exec (.cqDoorbell link q (BitVec.ofNat 32 ((s.hif.cqTail.get q).toNat + 1))) s = .next t ∧
        t.q.waiting = s.q.waiting ++
          [⟨s.q.ord, q, BitVec.ofNat 5 (s.hif.cqTail.get q).toNat, h.tag, nowLts s⟩] ∧
        t.q.outst = s.q.outst ++ [⟨s.q.ord, h.tag, if h.buf then some h.bufIdx else none,
          h.buf && !(s.q.outst.any fun o => o.holds && decide (o.buf = some h.bufIdx)), false, h.sched⟩] ∧
        t.hif.cqTail = s.hif.cqTail.set q (s.hif.cqTail.get q + 1) ∧
        t.hif.bufBusy = busyBits t.q.outst ∧
        t = accessed link { s with
          hif := { s.hif with cqTail := t.hif.cqTail, bufBusy := t.hif.bufBusy },
          q := { s.q with waiting := t.q.waiting, outst := t.q.outst, ord := s.q.ord + 1 } }) ∧
    (∀ v : Word, (s.hif.cqTail.get q - s.hif.cqHead.get q).toNat + (BitVec.ofNat 6 v.toNat - s.hif.cqTail.get q).toNat ≤ 32 →
      ∃ t, exec (.cqDoorbell link q v) s = .next t ∧ t.hif.cqTail = s.hif.cqTail.set q (BitVec.ofNat 6 v.toNat) ∧
        t.q.waiting.length = s.q.waiting.length + (BitVec.ofNat 6 v.toNat - s.hif.cqTail.get q).toNat ∧
        t.q.outst.length = s.q.outst.length + (BitVec.ofNat 6 v.toNat - s.hif.cqTail.get q).toNat ∧
        t = accessed link { s with hif := t.hif, q := t.q }) ∧
    (∀ v : Word, 32 < (s.hif.cqTail.get q - s.hif.cqHead.get q).toNat + (BitVec.ofNat 6 v.toNat - s.hif.cqTail.get q).toNat →
      exec (.cqDoorbell link q v) s =
        .next (accessed link (cqError q (BitVec.ofNat 5 (s.hif.cqTail.get q).toNat) 2 0 s)))

/-- A write of HIF_RQ_HEAD or HIF_NQ_HEAD takes effect only when (new - old) mod 2S is at most (tail - old) mod 2S; any other
leaves the head unchanged. -/
def Obligations.QueueHeadWrites : Prop :=
  ∀ (link : Link) (v : Word) (s : State), windowUp s = true →
    ((v.toNat % 512 + 512 - s.hif.nqHead.toNat) % 512 ≤ (s.hif.nqTail.toNat + 512 - s.hif.nqHead.toNat) % 512 →
      exec (.nqHeadWrite link v) s = .next (accessed link { s with hif := { s.hif with nqHead := BitVec.ofNat 9 v.toNat } })) ∧
    ((s.hif.nqTail.toNat + 512 - s.hif.nqHead.toNat) % 512 < (v.toNat % 512 + 512 - s.hif.nqHead.toNat) % 512 →
      exec (.nqHeadWrite link v) s = .next (accessed link s)) ∧
    ((v.toNat % 256 + 256 - s.hif.rqHead.toNat) % 256 ≤ (s.hif.rqTail.toNat + 256 - s.hif.rqHead.toNat) % 256 →
      ∃ t, exec (.rqHeadWrite link v) s = .next t ∧ t.hif.rqHead = BitVec.ofNat 8 v.toNat ∧
        (s.q.rspWait = [] → t = accessed link { s with
          hif := { s.hif with rqHead := BitVec.ofNat 8 v.toNat },
          q := { s.q with rqTags := t.q.rqTags, outst := t.q.outst } })) ∧
    ((s.hif.rqTail.toNat + 256 - s.hif.rqHead.toNat) % 256 < (v.toNat % 256 + 256 - s.hif.rqHead.toNat) % 256 →
      exec (.rqHeadWrite link v) s = .next (accessed link s))

/-- HIF_IRQ_STATUS clears the bits written 1, with the hold and the count of RESP and NOTIFY, and no other bit; HIF_CTRL sets its
two enables, and restarts the module only with both SOFT_RESET and the key byte 0xA5 (R46, R47, R430); in an orderly off, which ends
with the module off, it sets the enables only (the model's choice, log entry 36). -/
def Obligations.InterruptAndControlWrites : Prop :=
  ∀ (link : Link) (v : Word) (s : State), windowUp s = true →
    (∃ t, exec (.irqStatusClear link v) s = .next t ∧
      t.hif.irqStatus = s.hif.irqStatus &&& ~~~ BitVec.ofNat 6 v.toNat ∧
      t.hif.respCoal = (if v.getLsbD 0 then ⟨0, none, false⟩ else s.hif.respCoal) ∧
      t.hif.noteCoal = (if v.getLsbD 1 then ⟨0, none, false⟩ else s.hif.noteCoal) ∧
      t = accessed link { s with hif := { s.hif with
        irqStatus := t.hif.irqStatus, respCoal := t.hif.respCoal, noteCoal := t.hif.noteCoal } }) ∧
    ((v.getLsbD 31 = false ∨ v.extractLsb' 8 8 ≠ 0xA5 ∨ s.pwr.phase = .orderlyOff) →
      exec (.softReset link v) s = .next (accessed link { s with
        hif := { s.hif with msixEn := v.getLsbD 0, alertEn := v.getLsbD 1 } })) ∧
    (v.getLsbD 31 = true → v.extractLsb' 8 8 = 0xA5 → s.pwr.phase ≠ .orderlyOff →
      exec (.softReset link v) s = .next (accessed link (restartFromStep3 { s with
        hif := { s.hif with msixEn := v.getLsbD 0, alertEn := v.getLsbD 1 } })) ∧
      ∃ t, exec (.softReset link v) s = .next t ∧ t.pwr.phase = .boot 2 ∧ t.hif.ready = false)

/-- Clearing AON_FAULT.VALID clears COUNT, unless the fault in CODE is still present in one of the cases of R441: then VALID sets
again at once with COUNT 1, and CODE and SOURCE are unchanged. -/
def Obligations.FaultClear : Prop :=
  ∀ (link : Link) (v : Word) (s : State), answers link 0x104 s = true → s.aon.valid = true → v.getLsbD 31 = true →
    (faultStands s = false →
      exec (.aonFaultClear link v) s = .next (accessed link { s with aon := { s.aon with valid := false, count := 0 } })) ∧
    (faultStands s = true →
      ∃ t, exec (.aonFaultClear link v) s = .next t ∧ t.aon = { s.aon with count := 1 } ∧
        t.hif.irqStatus.getLsbD 4 = true) ∧
    (faultStands s = true ↔
      (s.aon.code = 0x01 ∧ s.pwr.failed.getLsbD s.aon.source.toNat = true) ∨ (s.aon.code = 0x03 ∧ s.aon.coppice = 5) ∨
        (s.aon.code = 0x04 ∧ s.pwr.powered.getLsbD 1 = true ∧ 8500 ≤ s.pins.caseTemp) ∨
        (s.aon.code = 0x05 ∧ s.hif.recovery = true))

/-- A mailbox command that the state does not admit answers with the status of the rule that turns it away and has no other effect;
while no command path takes descriptors nothing happens (R2, R80, R355, R367, R399, R427). -/
def Obligations.CommandsTurnedAway : Prop :=
  ∀ (i : Instr) (op : Nat) (h : Hdr) (s : State), mailbox i = some (op, h) →
    (∀ st, admitted op s = .refuse st → exec i s = .next (refuse op h st s)) ∧
    (admitted op s = .ignore → exec i s = .next s)

/-- Which commands are admitted while READY is 1: in the recovery state the six of R80, in BOOT and in a transition those whose
card names READY = 1 with PWR.STATE_SET and PWR.STATUS (R427), in DEEP and OFF none, in a steady state those whose card names it,
in SLEEP of those only the families of R355; the cipher family is absent from the variant CN (R2), and freeze admits the status and
read commands, SYS, flash and debug (R399), in the states that admit them otherwise. On the way into DEEP or OFF no descriptor is
taken. That the recovery state's answer comes before the variant's is the model's choice (log entry 21). -/
def Obligations.AdmissionByState : Prop :=
  ∀ (op : Nat) (s : State), s.hif.ready = true → s.q.acting = none →
    (s.hif.recovery = true →
      admitted op s = if op ∈ [0x0101, 0x0D01, 0x0D02, 0x0D03, 0x0D10, 0x0D20] then .accept else .refuse .badState) ∧
    (s.hif.recovery = false → op / 256 = 8 → s.ident.variant = .cn → admitted op s = .refuse .notAvailable) ∧
    (s.hif.recovery = false → (op / 256 ≠ 8 ∨ s.ident.variant ≠ .cn) →
      (s.dbg.frozen = true → op / 256 ≠ 0x01 → op / 256 ≠ 0x0D → op / 256 ≠ 0x0F → cardReads op = false →
        admitted op s = .refuse .badState) ∧
      ((s.dbg.frozen = false ∨ op / 256 = 0x01 ∨ op / 256 = 0x0D ∨ op / 256 = 0x0F ∨ cardReads op = true) →
        (∀ k, s.pwr.phase = .boot k → admitted op s =
          if op ∈ [0x0101, 0x0102, 0x0D01, 0x0D02, 0x0D03, 0x0D04, 0x0D10, 0x0D20, 0x0F03, 0x0201, 0x0202] then .accept
          else .refuse .badState) ∧
        (∀ o k, s.pwr.phase = .exit o k → admitted op s =
          if op ∈ [0x0101, 0x0102, 0x0D01, 0x0D02, 0x0D03, 0x0D04, 0x0D10, 0x0D20, 0x0F03, 0x0201, 0x0202] then .accept
          else .refuse .badState) ∧
        (s.pwr.phase = .steady .run → admitted op s = .accept) ∧
        (s.pwr.phase = .steady .idle → admitted op s =
          if cardWhen op = .run ∨ cardWhen op = .runWatch then .refuse .badState else .accept) ∧
        (s.pwr.phase = .steady .watch → admitted op s =
          if cardWhen op = .run ∨ cardWhen op = .runIdle then .refuse .badState else .accept) ∧
        (s.pwr.phase = .steady .sleep → admitted op s =
          if (cardWhen op = .always ∨ cardWhen op = .ready ∨ cardWhen op = .runIdleWatchSleep) ∧
            (op / 256 = 1 ∨ op / 256 = 2 ∨ op / 256 = 0xD ∨ op = 0x0C13) then .accept else .refuse .badState) ∧
        (∀ st k, s.pwr.phase = .entry st k → st ≠ .deep → st ≠ .off → admitted op s =
          if op ∈ [0x0101, 0x0102, 0x0D01, 0x0D02, 0x0D03, 0x0D04, 0x0D10, 0x0D20, 0x0F03, 0x0201, 0x0202] then .accept
          else .refuse .badState) ∧
        ((∃ k, s.pwr.phase = .entry .deep k ∨ s.pwr.phase = .entry .off k) ∨ s.pwr.phase = .orderlyOff ∨
          s.pwr.phase = .inert → admitted op s = .ignore) ∧
        (s.pwr.phase = .steady .deep ∨ s.pwr.phase = .steady .off → admitted op s = .refuse .badState)))

/-- What a response leaves: the result data in the command's own staging buffer, the entry of R62 at the response tail, the tail
moved and RESP set, the record of the command answered; every other byte of the window and every other part of the state stays. While
the ring is full, or responses wait already, it waits, with the ring as it is. A quiet command with status OK leaves its buffer and
no entry (R57, R59, R60, R62). -/
def Obligations.ResponseWritten : Prop :=
  ∀ (op : Nat) (h : Hdr) (st : St) (res : List Byte) (out : Option (List Byte)) (s : State), memWf 0 s.win = true →
    (∀ b, (b < responseAt s ∨ responseAt s + 64 ≤ b) →
        (h.buf = false ∨ out = none ∨ b < bufBase h.bufIdx ∨ bufBase h.bufIdx + 0x1000 ≤ b) →
      windowByte (respond op h st res out s) b = windowByte s b) ∧
    respond op h st res out s = { s with
      win := (respond op h st res out s).win, hif := (respond op h st res out s).hif, q := (respond op h st res out s).q } ∧
    (respond op h st res out s).q.waiting = s.q.waiting ∧ (respond op h st res out s).q.pend = s.q.pend ∧
    (respond op h st res out s).q.held = s.q.held ∧ (respond op h st res out s).q.backlog = s.q.backlog ∧
    (∀ bs, h.buf = true → out = some bs → ∀ k, k < bs.length → k < 0x1000 →
      windowByte (respond op h st res out s) (bufBase h.bufIdx + k) = bs.getD k 0) ∧
    ((h.quiet = false ∨ lateStatus h st s ≠ .ok) → (rqFree s.hif = false ∨ s.q.rspWait ≠ []) →
      (respond op h st res out s).hif = s.hif ∧
      (respond op h st res out s).q = { s.q with rspWait := s.q.rspWait ++
        [(h.tag, rspBytes op h (lateStatus h st s) (if h.buf then out else none) (nowLts s) res)] }) ∧
    ((h.quiet = false ∨ lateStatus h st s ≠ .ok) → rqFree s.hif = true → s.q.rspWait = [] →
      (respond op h st res out s).q.outst = closeFirst h.tag false s.q.outst ∧
      (∀ k, k < 64 → windowByte (respond op h st res out s) (responseAt s + k) =
        (rspBytes op h (lateStatus h st s) (if h.buf then out else none) (nowLts s) res).getD k 0) ∧
      (respond op h st res out s).hif.rqTail = s.hif.rqTail + 1 ∧
      (respond op h st res out s).hif.irqStatus.getLsbD 0 = true) ∧
    (h.quiet = true → lateStatus h st s = .ok →
      (respond op h st res out s).q.outst = closeFirst h.tag true s.q.outst ∧
      (respond op h st res out s).hif.rqTail = s.hif.rqTail ∧
      (respond op h st res out s).hif.irqStatus = s.hif.irqStatus ∧
      (respond op h st res out s).q.rspWait = s.q.rspWait)

/-- DESCRIPTOR_TAKE: the next descriptor leaves its queue and its head moves; a tag that repeats an outstanding one is rejected
without a response, an undefined opcode answers NOT_AVAILABLE, a reserved bit or a LENGTH out of range BAD_ARG, and any other
command is taken (R57 to R59). -/
def Obligations.DescriptorTaken : Prop :=
  ∀ (s : State) (w : Waiting) (bs : List Byte) (h : Hdr) (s1 s2 : State), s.hif.ready = true → s.flash.bootDue = false →
    rqRoom s ≠ 0 → passedFirst s = false → chooseWaiting s = some w →
    bs = memReadN 0 s.win (0x1000 + 0x800 * w.queue.toNat + 64 * w.slot.toNat) 64 → h = descHdr w.queue bs →
    s1 = { s with
      hif := { s.hif with cqHead := s.hif.cqHead.set w.queue (s.hif.cqHead.get w.queue + 1) },
      q := { s.q with waiting := s.q.waiting.filter fun x => decide (x.ord ≠ w.ord) } } →
    s2 = { s1 with
      q := { s1.q with outst := s1.q.outst.map fun o => if o.ord = w.ord then { o with tag := h.tag, sched := h.sched } else o } } →
    ((∃ o ∈ s.q.outst, o.tag = h.tag ∧ o.ord < w.ord) →
      exec .descriptorTake s = .next (cqError w.queue w.slot 1 h.tag
        (setBusy { s1 with q := { s1.q with outst := s1.q.outst.filter fun o => decide (o.ord ≠ w.ord) } }))) ∧
    ((¬ ∃ o ∈ s.q.outst, o.tag = h.tag ∧ o.ord < w.ord) →
      (decodeDescriptor h bs = .unknown → exec .descriptorTake s = .next (refuse (descOpcode bs) h .notAvailable s2)) ∧
      (decodeDescriptor h bs = .malformed → exec .descriptorTake s = .next (refuse (descOpcode bs) h .badArg s2)) ∧
      (∀ i, decodeDescriptor h bs = .command i →
        (∃ o ∈ s2.q.outst, o.ord = w.ord ∧ o.buf.isSome = true ∧ o.holds = false) →
          admitted (descOpcode bs) s2 = .accept → exec .descriptorTake s = .next (refuse (descOpcode bs) h .busy s2)) ∧
      (∀ i, decodeDescriptor h bs = .command i → (∀ o ∈ s2.q.outst, o.ord = w.ord → o.buf = none ∨ o.holds = true) →
        admitted (descOpcode bs) s2 = .accept →
          (h.sched = false → ticking s = false ∨ (ownBoundary i = true ∨ boundOf i = .none) →
            exec .descriptorTake s = .next (runNow false i s2)) ∧
          (h.sched = false → ticking s = true → ownBoundary i = false → boundOf i = .superframe →
            exec .descriptorTake s = .next (hold i (Lts.ceilSf s.time.lts) false s2)) ∧
          (h.sched = true → ticking s = true → boundOf i = .none → s.time.lts.lt h.execAt = true →
            h.execAt.toNat ≤ s.time.lts.toNat + 2 ^ 60 → schedCount s < 256 →
            exec .descriptorTake s = .next (hold i h.execAt false s2)) ∧
          (h.sched = false → ticking s = true → boundOf i = .span →
            exec .descriptorTake s = .next (hold i (if spansExist s then s.time.lts else Lts.ceilSf s.time.lts) false s2)) ∧
          (h.sched = true → ticking s = true → boundOf i = .superframe → isModeSet i = false →
            s.time.lts.toNat + 16 * 2 ^ 24 ≤ (Lts.ceilSf h.execAt).toNat → h.execAt.toNat ≤ s.time.lts.toNat + 2 ^ 60 →
            schedCount s < 256 → exec .descriptorTake s = .next (hold i (Lts.ceilSf h.execAt) false s2)) ∧
          (h.sched = true → ticking s = true → s.time.lts.toNat + 2 ^ 60 < h.execAt.toNat →
            exec .descriptorTake s = .next (refuse (descOpcode bs) h .badArg s2)) ∧
          (h.sched = true → ticking s = true → s.time.lts.lt h.execAt = true → h.execAt.toNat ≤ s.time.lts.toNat + 2 ^ 60 →
            256 ≤ schedCount s → exec .descriptorTake s = .next (refuse (descOpcode bs) h .noResource s2))))

/-- SCHED_COMMAND_DUE: of the held commands that may act, one that no other precedes acts, in the order of R61: first the time it is
due, then the order that the chapters fix, then the queue, then the submission. The others stay held. One that can act may, unless it
would overtake a command of its queue scheduled for an earlier stamp (R102) or one passed at the wake before it (R104). -/
def Obligations.ScheduledCommandsInOrder : Prop :=
  (∀ (s : State), ticking s = true → s.hif.ready = true →
    ((∃ p ∈ s.q.pend, mayAct s p = true) →
      ∃ p ∈ s.q.pend, mayAct s p = true ∧ exec .schedCommandDue s = .next (runPend p s) ∧
        ∀ x ∈ s.q.pend, mayAct s x = true →
          p.due.toNat < x.due.toNat ∨ p.due.toNat = x.due.toNat ∧ (actOrder p.cmd < actOrder x.cmd ∨
            actOrder p.cmd = actOrder x.cmd ∧ (queueOf p.cmd < queueOf x.cmd ∨
              queueOf p.cmd = queueOf x.cmd ∧ p.ord ≤ x.ord))) ∧
    ((∀ p ∈ s.q.pend, mayAct s p = false) → exec .schedCommandDue s = .next s)) ∧
  (∀ (s : State) (p : Pend), mayAct s p = true ↔ canAct s p = true ∧
    (∀ x ∈ s.q.pend, p.late = true → canAct s x = true → ∀ q a b, schedAt x = some (q, a) → schedAt p = some (q, b) →
      a.lt b = false) ∧
    (∀ x ∈ s.q.pend, x.passed = true → p.passed = true → pendLe p x = false → setWaits s x = false))

/-- R92: a notification that is held takes its place by stamp, then by source, then by instance, then by detection, and the list
stays in that order with nothing lost. -/
def Obligations.NotificationsInOrder : Prop :=
  ∀ (n : Note) (l : List Note), l.Pairwise (fun a b => noteLe a b = true) →
    (insertNote n l).Pairwise (fun a b => noteLe a b = true) ∧ (insertNote n l).Perm (n :: l)

/-- NOTIFY_RELEASE: at the start of superframe event + 17 a notification leaves the hold and is delivered, in order (R93); in freeze,
while the warden restarts and while line time stands none is. NOTIFY_BACKLOG_DRAIN: the backlog enters the ring from its front until it
is empty or the ring is full (R64), but while the warden restarts. IRQ_HOLD_EXPIRE: a hold of HOLD superframes raises its interrupt once
(R430). SYS.IDENTIFY answers with the fields of its card; SYS.CANCEL takes a pending scheduled command of its tag from the hold, which
answers REFUSED, and answers BUSY where the scheduled command of that tag has started and BAD_ARG where none has the tag (R67). -/
def Obligations.WardenTimers : Prop :=
  (∀ (s : State), s.dbg.frozen = false → restarting s = false → s.time.running = true →
    exec .notifyRelease s = .next (deliverAll (s.q.held.filter fun n => decide (n.lts.sf.toNat + 16 < s.time.lts.sf.toNat))
      { s with q := { s.q with held := s.q.held.filter fun n => decide (s.time.lts.sf.toNat ≤ n.lts.sf.toNat + 16) } })) ∧
  (∀ (s : State), (s.dbg.frozen = true ∨ restarting s = true ∨ s.time.running = false) → exec .notifyRelease s = .next s) ∧
  (∀ (s : State), restarting s = true → exec .notifyBacklogDrain s = .next s) ∧
  (∀ (s : State), restarting s = false → ∃ t k, exec .notifyBacklogDrain s = .next t ∧ k ≤ s.q.backlog.length ∧
    t.q.backlog = s.q.backlog.drop k ∧ t.hif.nqTail = s.hif.nqTail + BitVec.ofNat 9 k ∧
    (t.q.backlog = [] ∨ nqFree t.hif = false) ∧
    t = { s with win := t.win, hif := t.hif, q := { s.q with backlog := t.q.backlog } }) ∧
  (∀ (s : State), ticking s = true → ∃ t, exec .irqHoldExpire s = .next t ∧
    (∀ a, s.hif.respCoal.since = some a → s.hif.hold.toNat ≤ (s.time.lts.sf - a).toNat →
      t.hif.respCoal = { s.hif.respCoal with since := none, raised := true }) ∧
    (∀ a, s.hif.respCoal.since = some a → (s.time.lts.sf - a).toNat < s.hif.hold.toNat → t.hif.respCoal = s.hif.respCoal) ∧
    (s.hif.respCoal.since = none → t.hif.respCoal = s.hif.respCoal) ∧
    (s.hif.noteCoal.since = none → t.hif.noteCoal = s.hif.noteCoal) ∧
    (∀ a, s.hif.noteCoal.since = some a → s.hif.hold.toNat ≤ (s.time.lts.sf - a).toNat →
      t.hif.noteCoal = { s.hif.noteCoal with since := none, raised := true }) ∧
    (∀ a, s.hif.noteCoal.since = some a → (s.time.lts.sf - a).toNat < s.hif.hold.toNat → t.hif.noteCoal = s.hif.noteCoal) ∧
    t = { s with hif := { s.hif with
      respCoal := t.hif.respCoal, noteCoal := t.hif.noteCoal, msixSent := t.hif.msixSent, msixPending := t.hif.msixPending } }) ∧
  (∀ (h : Hdr) (s : State), admitted 0x0101 s = .accept →
    exec (.sysIdentify h) s = .next (reply 0x0101 h
      [fld 16 2 0x2400, fld 18 1 2, fld 19 1 (variantCode s.ident.variant), fld 20 4 s.hif.fwver.toNat,
       fld 24 1 (runningSecurity s), fld 25 1 s.aon.running.toNat, (26, padTo 16 s.ident.serial),
       fld 42 4 s.ident.boots.toNat] s)) ∧
  (∀ (h g : Hdr) (target : Half) (p : Pend) (op : Nat) (s : State), admitted 0x0102 s = .accept →
    s.q.pend.find? (schedTagged target) = some p → mailbox p.cmd = some (op, g) →
    exec (.sysCancel h target) s = .next (done 0x0102 h (answerLate false (refuse op g .refused)
      { s with q := { s.q with pend := s.q.pend.filter fun x => !schedTagged target x } }))) ∧
  (∀ (h : Hdr) (target : Half) (s : State), admitted 0x0102 s = .accept → s.q.pend.find? (schedTagged target) = none →
    (∀ o ∈ s.q.outst, o.tag = target → o.tag = h.tag ∨ o.sched = false ∨ o.answered = true ∨ ∃ w ∈ s.q.waiting, w.ord = o.ord) →
    exec (.sysCancel h target) s = .next (refuse 0x0102 h .badArg s)) ∧
  (∀ (h : Hdr) (target : Half) (o : Outst) (s : State), admitted 0x0102 s = .accept → s.q.pend.find? (schedTagged target) = none →
    o ∈ s.q.outst → o.tag = target → target ≠ h.tag → o.sched = true → o.answered = false → (∀ w ∈ s.q.waiting, w.ord ≠ o.ord) →
    exec (.sysCancel h target) s = .next (refuse 0x0102 h .busy s))

/-- CV.CONFIG sets the parameters of profile 3, unless a value lies outside its form (BAD_ARG) or a host context holds a job under it
(BUSY); neither changes anything (R432). The check-value commands and the unit's completion: CV.RUN and CV.SCAN queue a job, MODE 1
starting its context; a CV.RUN refused queues none, and ends the job of its context where it is a MODE 3 (that one turned away BUSY
leaves it is the model's reading, log entry 22); a CV.SCAN answers INTEGRITY once after a table in WORK has been lost (R339); CV.CTX_READ returns the 32 bytes of a job's context; CV.CTX_WRITE takes a context whose check values and
parameters match; a completed whole run over a staging buffer answers the check value of its bytes, a completed scan of no bytes answers
that no block was scanned (R69 to R71, R431, R442). -/
def Obligations.CheckValues : Prop :=
  (∀ (h : Hdr) (profile width flags : Byte) (poly init xorOut : Dword) (s : State), admitted 0x0E01 s = .accept →
    ((profile = 3 ∧ width ∈ [8, 16, 32, 64] ∧ flags &&& 0xFC = 0 ∧ poly.toNat < 2 ^ width.toNat ∧ init.toNat < 2 ^ width.toNat ∧
        xorOut.toNat < 2 ^ width.toNat) →
      ((∀ c ∈ s.cv.ctx, c.job = true → c.profile ≠ 3) →
        exec (.cvConfig h profile width flags poly init xorOut) s = .next (done 0x0E01 h { s with cv := { s.cv with
          p3 := ⟨width.toNat, poly.toNat, init.toNat, flags.getLsbD 0, flags.getLsbD 1, xorOut.toNat⟩ } })) ∧
      ((∃ c ∈ s.cv.ctx, c.job = true ∧ c.profile = 3) →
        exec (.cvConfig h profile width flags poly init xorOut) s = .next (refuse 0x0E01 h .busy s))) ∧
    (¬ (profile = 3 ∧ width ∈ [8, 16, 32, 64] ∧ flags &&& 0xFC = 0 ∧ poly.toNat < 2 ^ width.toNat ∧
        init.toNat < 2 ^ width.toNat ∧ xorOut.toNat < 2 ^ width.toNat) →
      exec (.cvConfig h profile width flags poly init xorOut) s = .next (refuse 0x0E01 h .badArg s))) ∧
  (∀ (h : Hdr) (profile mode ctx src region : Byte) (offset : Dword) (len : Word) (s : State), admitted 0x0E02 s = .accept →
    firstFail (cvRunCheck h profile mode ctx src region offset len s) = none →
    exec (.cvRun h profile mode ctx src region offset len) s = .next { s with cv := { s.cv with
      ctx := if mode = 1 then setAt s.cv.ctx ctx.toNat ⟨true, profile.toNat, (cvParams profile.toNat s).init, 0⟩ else s.cv.ctx,
      jobs := s.cv.jobs ++ [⟨.cvRun h profile mode ctx src region offset len, s.q.acting = some true⟩] } }) ∧
  (∀ (h : Hdr) (profile mode ctx src region : Byte) (offset : Dword) (len : Word) (st : St) (s : State),
    admitted 0x0E02 s = .accept → firstFail (cvRunCheck h profile mode ctx src region offset len s) = some st →
    exec (.cvRun h profile mode ctx src region offset len) s = .next (refuse 0x0E02 h st
      (if mode = 3 ∧ ctx.toNat ≤ 5 ∧ cvRunning ctx s = false then
        { s with cv := { s.cv with ctx := setAt s.cv.ctx ctx.toNat ⟨false, 0, 0, 0⟩ } } else s))) ∧
  (∀ (h : Hdr) (profile ctx : Byte) (s : State), profile.toNat ≤ 3 → h.buf = true →
    firstFail (cvRunCheck h profile 0 ctx 2 0 0 0 s) = none) ∧
  (∀ (h : Hdr) (ctx : Byte) (s : State), admitted 0x0E03 s = .accept → ctx.toNat ≤ 5 → h.buf = true → cvRunning ctx s = false →
    (cvCtx ctx s).job = true →
    exec (.cvCtxRead h ctx) s = .next (respond 0x0E03 h .ok []
      (some (cvCtxBytes (cvCtx ctx s).profile (cvParams (cvCtx ctx s).profile s) (cvCtx ctx s).rem (cvCtx ctx s).bytes)) s)) ∧
  (∀ (h : Hdr) (ctx : Byte) (profile rem bytes : Nat) (s : State), admitted 0x0E04 s = .accept → ctx.toNat ≤ 5 → h.buf = true →
    h.length = 32 → cvRunning ctx s = false → profile ≤ 3 → bytes < 2 ^ 64 → (cvParams profile s).width ≤ 64 →
    rem < 2 ^ (cvParams profile s).width → bufData h s = cvCtxBytes profile (cvParams profile s) rem bytes →
    exec (.cvCtxWrite h ctx) s = .next (done 0x0E04 h { s with cv := { s.cv with
      ctx := setAt s.cv.ctx ctx.toNat ⟨true, profile, rem, bytes⟩ } })) ∧
  (∀ (h : Hdr) (profile src region blk : Byte) (offset len : Dword) (action : Byte) (work : Dword) (s : State),
    admitted 0x0E05 s = .accept → profile.toNat ≤ 3 → src.toNat ≤ 1 → 9 ≤ blk.toNat → blk.toNat ≤ 20 → action.toNat ≤ 1 →
    cvSourceBad src region offset.toNat len.toNat = false →
    work.toNat + scanBlocks blk len.toNat * ((cvParams profile.toNat s).width / 8) ≤ 1073741824 →
    (s.cv.damaged = false →
      exec (.cvScan h profile src region blk offset len action work) s = .next { s with cv := { s.cv with
        jobs := s.cv.jobs ++ [⟨.cvScan h profile src region blk offset len action work, s.q.acting = some true⟩] } }) ∧
    (s.cv.damaged = true →
      exec (.cvScan h profile src region blk offset len action work) s =
        .next (refuse 0x0E05 h .integrity { s with cv := { s.cv with damaged := false } }))) ∧
  (∀ (h : Hdr) (profile ctx : Byte) (late : Bool) (rest : List CvJob) (s : State), s.hif.ready = true →
    s.cv.jobs = ⟨.cvRun h profile 0 ctx 2 0 0 0, late⟩ :: rest →
    exec .cvJobDone s = .next (answerLate late (reply 0x0E02 h
      [fld 16 8 (crcOf (cvParams profile.toNat s) (bufData h s)), fld 24 8 (bufData h s).length])
      { s with cv := { s.cv with jobs := rest } })) ∧
  (∀ (s : State), s.cv.jobs = [] → exec .cvJobDone s = .next s)

/-- FLASH.STATUS answers with the spare and retired blocks, the highest and the mean erase count, the place of the lap and the oldest
write date. FLASH_PATROL reads the block the lap has come to, counts that read, moves the lap on, and refreshes the block where a
condition of R74 holds: five years, taken as 1,826 days (the model's choice, log entry 43), more than 8 corrected bits, a read retry
or 100,000 reads; a lost or factory-marked block is passed over. FLASH_BLOCK_FAIL retires a block, which takes one spare while there is
one (R74 to R76). -/
def Obligations.FlashCare : Prop :=
  (∀ (h : Hdr) (s : State), admitted 0x0D20 s = .accept → exec (.flashStatus h) s = .next (reply 0x0D20 h
    [fld 16 2 s.flash.spare, fld 18 2 s.flash.retired, fld 20 4 ((s.flash.erases.map fun x => x.2).foldl max 0),
     fld 24 4 (nearest ((s.flash.erases.map fun x => x.2).foldl (· + ·) 0) 4096), fld 28 2 s.flash.patrol,
     fld 32 8 (oldestDate s)] s)) ∧
  (∀ (b bits : Nat) (retry : Bool) (s s0 s1 : State), s.pwr.powered.getLsbD 1 = true → b = s.flash.patrol →
    s0 = { s with flash := { s.flash with patrol := (b + 1) % 4096 } } →
    s1 = { s0 with flash := { s0.flash with reads := setCount b (countAt b s.flash.reads + 1) s.flash.reads } } →
    (b ∈ s.flash.lostBlocks ∨ b ∈ s.flash.factory → exec (.flashPatrol bits retry) s = .next s0) ∧
    (b ∉ s.flash.lostBlocks → b ∉ s.flash.factory →
      (refreshRuns s = true →
        ((blockHeld b s = true ∧ 1826 * 86400 * 32768 ≤ extTimer s - countAt b s.flash.dates) ∨ 8 < bits ∨ retry = true ∨
          100000 ≤ countAt b s.flash.reads + 1) →
        exec (.flashPatrol bits retry) s = .next (refreshBlock b s1)) ∧
      (refreshRuns s = false ∨ ((blockHeld b s = false ∨ extTimer s - countAt b s.flash.dates < 1826 * 86400 * 32768) ∧
          bits ≤ 8 ∧ retry = false ∧ countAt b s.flash.reads + 1 < 100000) →
        exec (.flashPatrol bits retry) s = .next s1))) ∧
  (∀ (block : Nat) (s : State), s.pwr.powered.getLsbD 1 = true → block < 4096 →
    (block ∈ s.flash.lostBlocks ∨ block ∈ s.flash.factory → exec (.flashBlockFail block) s = .next s) ∧
    (block ∉ s.flash.lostBlocks → block ∉ s.flash.factory → 64 < s.flash.spare →
      (logStores (s.flash.stage.length + 1) (extTimer s) (retire block s.flash)).2 = [] →
      ∃ t, exec (.flashBlockFail block) s = .next t ∧ t.flash.spare = s.flash.spare - 1 ∧ t.flash.retired = s.flash.retired + 1 ∧
        t.flash.retiredBlocks = s.flash.retiredBlocks ++ [block] ∧ t.flash.lostBlocks = s.flash.lostBlocks ∧
        t = { s with flash := t.flash, aon := t.aon }))

/-- FW.STAGE writes its page to the slot that does not run, erased first when it still holds an image, and answers NO_RESOURCE where
the block of that page is lost (R75); FW.COMMIT makes a staged image that
verifies the trial of the next boot, and refuses one below the fuse count (R77, R79). FW.ACTIVATE answers and then restarts, from step 3
of R33 or the warden alone; FW.CONFIRM makes the running trial slot preferred and blows the fuses up to its security version and never
back, of which there are 64; LOG.READ returns entries from the first wanted on (R77 to R79, R83). -/
def Obligations.FirmwareAndLog : Prop :=
  (∀ (h : Hdr) (offset : Word) (s : State), admitted 0x0D01 s = .accept → offset.toNat % 4096 = 0 → h.buf = true →
    offset.toNat + h.length.toNat ≤ 512 * 262144 →
    ∀ block s1, block = slotBlock (stageSlot s) + offset.toNat / 262144 → s1 = stageBlock block (stageErase s) →
    (block ∉ s.flash.lostBlocks →
      exec (.fwStage h offset) s = .next (done 0x0D01 h { s1 with flash := { s1.flash with
        mem := memWriteN 0xFF s1.flash.mem (slotBlock (stageSlot s) * 262144 + offset.toNat) (bufData h s),
        staged := setCount (offset.toNat / 4096) h.length.toNat s1.flash.staged, committed := false } })) ∧
    (block ∈ s.flash.lostBlocks → exec (.fwStage h offset) s = .next (refuse 0x0D01 h .noResource s))) ∧
  (∀ (h : Hdr) (head : List Byte) (total : Nat) (s s1 : State), admitted 0x0D02 s = .accept → s1 = readSlot total s →
    head = memReadN 0xFF s.flash.mem (slotBlock (stageSlot s) * 262144) 256 →
    total = 256 + Config.headerField 4 head + Config.signatureBytes →
    Config.headerField 0 head = 0x4E414954 → total ≤ 512 * 262144 → stagedWhole total s = true →
    Config.signatureVerifies (memReadN 0xFF s.flash.mem (slotBlock (stageSlot s) * 262144) total) = true →
    Config.headerField 3 head = 2 →
    (s.ident.fuses ≤ Config.headerField 2 head →
      exec (.fwCommit h) s = .next (reply 0x0D02 h
        [fld 16 4 (Config.headerField 1 head % 2 ^ 32), fld 20 1 (Config.headerField 2 head)]
        { setSlotImage (stageSlot s) (some ⟨BitVec.ofNat 32 (Config.headerField 1 head), Config.headerField 2 head, 2,
            decide (Config.headerField 5 head ≠ 0), true⟩) s1 with
          aon := { s.aon with trial := true },
          flash := { (setSlotImage (stageSlot s) (some ⟨BitVec.ofNat 32 (Config.headerField 1 head), Config.headerField 2 head, 2,
            decide (Config.headerField 5 head ≠ 0), true⟩) s1).flash with committed := true } })) ∧
    (Config.headerField 2 head < s.ident.fuses → exec (.fwCommit h) s = .next (refuse 0x0D02 h .refused s1))) ∧
  (∀ (h : Hdr) (s : State), admitted 0x0D03 s = .accept → s.flash.committed = true → schedPending s = false →
    exec (.fwActivate h 0) s = .next { restartFromStep3 (done 0x0D03 h s) with
      flash := { (restartFromStep3 (done 0x0D03 h s)).flash with
        awaiting := true, awaitFrom := (restartFromStep3 (done 0x0D03 h s)).time.wardenNs } }) ∧
  (∀ (h : Hdr) (i : Image) (s : State), admitted 0x0D03 s = .accept → s.flash.committed = true → schedPending s = false →
    s.hif.recovery = false → slotImage (stageSlot s) s = some i →
    (i.hitless = true → exec (.fwActivate h 1) s = .next { restartWarden (done 0x0D03 h s) with
      flash := { (restartWarden (done 0x0D03 h s)).flash with awaiting := true, awaitFrom := s.time.wardenNs } }) ∧
    (i.hitless = false → exec (.fwActivate h 1) s = .next (refuse 0x0D03 h .refused s))) ∧
  (∀ (h : Hdr) (s : State), admitted 0x0D04 s = .accept →
    (s.flash.trialRuns = true → s.aon.running ≠ s.aon.pref →
      exec (.fwConfirm h) s = .next (reply 0x0D04 h [fld 16 1 (min 64 (max s.ident.fuses (runningSecurity s)))]
        { s with
          ident := { s.ident with fuses := min 64 (max s.ident.fuses (runningSecurity s)) },
          aon := { s.aon with pref := s.aon.running }, flash := { s.flash with trialRuns := false } })) ∧
    (s.flash.trialRuns = false ∨ s.aon.running = s.aon.pref → exec (.fwConfirm h) s = .next (refuse 0x0D04 h .badState s))) ∧
  (∀ (h : Hdr) (first : Sf) (count : Byte) (last : LogEntry) (es : List LogEntry) (s : State), admitted 0x0D10 s = .accept →
    h.buf = true → 1 ≤ count.toNat → count.toNat ≤ 64 → (s.flash.log ++ s.flash.stage).getLast? = some last →
    first.toNat ≤ last.seq.toNat →
    es = ((s.flash.log ++ s.flash.stage).filter fun e => decide (first.toNat ≤ e.seq.toNat)).take count.toNat →
    ∃ gone bad, exec (.logRead h first count) s = .next (respond 0x0D10 h .ok
      (result [fld 16 6 ((es.map fun e => e.seq.toNat).headD 0), fld 22 1 es.length, fld 23 1 (boolBit gone 0 + boolBit bad 1)])
      (some (es.flatMap fun e => logBytes (s.flash.badChecks.contains e.seq.toNat) e)) (readLog first.toNat count.toNat s)) ∧
      (gone = true ↔ ∃ e, (s.flash.log ++ s.flash.stage).head? = some e ∧ first.toNat < e.seq.toNat) ∧
      (bad = true ↔ ∃ e ∈ es, e.seq.toNat ∈ s.flash.badChecks))

/-- SEDGE_TASK_START starts a task at the superframe boundary at which its next start has come, and not before (R23); R106, R107: a task that
completes next starts at the largest of the boundary after, half a period after its start and its own
next nominal start; a start whose deficit is more than four periods, or any deficit of a task of period 1, is written off to the
skipped periods and re-anchors the task there. -/
def Obligations.TaskSchedule : Prop :=
  (∀ (t : Task) (x : TaskSt) (s : State), s.dbg.frozen = false → taskAt t s = some x → x.running = true → x.halted = false →
    ∃ u, exec (.sedgeTaskComplete t) s = .next u ∧
      taskAt t u = some { x with running := false, next := BitVec.ofNat 48 (max (s.time.lts.sf.toNat + 1)
        (max (x.start.toNat + (x.period + 1) / 2) (x.anchor.toNat + x.n * x.period))) } ∧
      (∀ v, v ≠ t → taskAt v u = taskAt v s) ∧ u = { s with sedge := { s.sedge with tasks := u.sedge.tasks } }) ∧
  (∀ (t : Task) (w : TaskInput) (x : TaskSt) (s : State), atBoundary s = true → inRun s = true → taskAt t s = some x →
    x.running = false → x.halted = false → taskHeld t s = false →
    (x.next.toNat ≤ s.time.lts.sf.toNat →
      exec (.sedgeTaskStart t w) s = .next (taskWork t w (modTask t (fun _ => taskBegin s.time.lts.sf x) s))) ∧
    (s.time.lts.sf.toNat < x.next.toNat → exec (.sedgeTaskStart t w) s = .next s)) ∧
  (∀ (t : Task) (w : TaskInput) (s : State), s.time.lts.sym ≠ 0 → exec (.sedgeTaskStart t w) s = .next s) ∧
  (∀ (b : Sf) (x : TaskSt),
    ((x.period = 1 ∧ x.anchor.toNat + x.n < b.toNat) ∨
        (x.period ≠ 1 ∧ x.anchor.toNat + x.n * x.period + 4 * x.period < b.toNat) →
      taskBegin b x = { x with
        skipped := addSkipped ((b.toNat - (x.anchor.toNat + x.n * x.period)) / x.period) x.skipped,
        anchor := b, n := 1, start := b, running := true }) ∧
    ((x.period = 1 ∧ b.toNat ≤ x.anchor.toNat + x.n) ∨
        (x.period ≠ 1 ∧ b.toNat ≤ x.anchor.toNat + x.n * x.period + 4 * x.period) →
      taskBegin b x = { x with n := x.n + 1, start := b, running := true }))

/-- ENGINE_HALT stops the tasks its engine serves, is logged, and may be the armed freeze trigger; ENGINE_RESTART takes the engine out
of the halt, draws its seed anew, and starts again at the next boundary, no later than 16 superframes after the halt, the tasks that no
halted engine serves, with the missed periods skipped (R26, R391, R397). That a halt stops the whole task, and what the work of each
task is, is the model's reading (log entry 32). -/
def Obligations.EngineHalts : Prop :=
  (∀ (w : TaskInput) (s : State), taskWork .estimation w s = s ∧ taskWork .framing w s = refreshRaws s ∧
    taskWork .laser w s = laserMove s ∧ (∀ b, taskWork .bias (.bias b) s = biasTask b s) ∧
    (∀ ms, taskWork .references (.refs ms) s = refEvaluate ms s) ∧
    taskWork .tallies w s = gatherTallies s ∧ taskWork .power w s = revote s ∧
    taskWork .calibration w s = if s.pwr.shed < 2 then inServiceCal s else s) ∧
  (∀ (e : BitVec 6) (c : HaltCause) (s : State), s.pwr.powered.getLsbD 1 = true → s.dbg.frozen = false →
    (∀ x ∈ s.sedge.halted, x.1 ≠ e.toNat) →
    exec (.engineHalt e c) s = .next (logEntry 12 (BitVec.ofNat 16 (0x0100 + e.toNat)) none
      ([BitVec.ofNat 8 e.toNat, BitVec.ofNat 8 (haltCode c)]) (freezeTrip .engineHalt { s with sedge := { s.sedge with
        halted := s.sedge.halted ++ [(e.toNat, s.time.lts.sf)],
        tasks := s.sedge.tasks.map (fun x =>
          if taskServed e.toNat x.task then { x with halted := true, running := false } else x) } })) ∧
    ∃ t, exec (.engineHalt e c) s = .next t ∧
      t = { s with sedge := { s.sedge with halted := t.sedge.halted, tasks := t.sedge.tasks }, flash := t.flash, aon := t.aon,
                   dbg := { s.dbg with trip := t.dbg.trip } }) ∧
  (∀ (e : BitVec 6) (seed : Word) (s : State), (∃ x ∈ s.sedge.halted, x.1 = e.toNat) →
    ∃ t, exec (.engineRestart e seed) s = .next t ∧ t.sedge.halted = s.sedge.halted.filter (fun x => decide (x.1 ≠ e.toNat)) ∧
      (e.toNat, seed) ∈ t.sedge.seeds ∧
      (s.sedge.halted.all (fun x => decide (x.1 = e.toNat)) = true →
        t.sedge.tasks = s.sedge.tasks.map fun x =>
          if taskServed e.toNat x.task && x.halted then
            taskRestart (BitVec.ofNat 48 (min (Lts.ceilSf s.time.lts).sf.toNat (heldUntil x.task s))) x else x) ∧
      t = { s with sedge := t.sedge }) ∧
  (∀ (b : Sf) (x : TaskSt), taskRestart b x = { x with
    skipped := addSkipped ((b.toNat - x.next.toNat) / x.period) x.skipped, anchor := b, n := 0, next := b, running := false,
    halted := false })

/-- LOS_COMPARE: the tap reading is kept, and the raw condition sets below the threshold and clears more than 1.0 dB above it; a reading in
between leaves it (R128). ADC_OVERRANGE counts its samples on its channel, saturating, sets the channel's sticky bit, and steps an
automatic gain down by 1.0 dB in the next superframe when the count of the superframe passes OVR_STEP and the chain runs (R130, R132,
R138); a symbol already marked is not counted as disturbed again (R139). GAIN_STEP_APPLY applies the steps due together, within 0 to 24
dB, at most one in a superframe to a polarisation, at symbol index 32,768 while there are received superframes, and marks 2,048 symbols
disturbed; with the chain stopped none is applied (R130 to R132). SLICE_FAILURE marks the slice failed, and
nothing else while a spare is left to replace it; without one the ADC's samples are substituted, logged and reported, the DAC's slice
reported (R135, R137, R187). A slice the channel does not have is a fault. -/
def Obligations.FrontEndEvents : Prop :=
  (∀ (power : Int) (s : State), ticking s = true →
    ∃ t, exec (.losCompare power) s = .next t ∧ t.fe.power = power ∧
      (power < 10 * s.fe.losThr → t.fe.rawLos = true) ∧
      (10 * s.fe.losThr + 100 < power → t.fe.rawLos = false) ∧
      (10 * s.fe.losThr ≤ power → power ≤ 10 * s.fe.losThr + 100 → t.fe.rawLos = s.fe.rawLos) ∧
      t.tf.los.raw = t.fe.rawLos ∧
      t = { s with
        fe := { s.fe with power := power, rawLos := t.fe.rawLos },
        tf := { s.tf with los := t.tf.los, loa := t.tf.loa, losf := t.tf.losf, oof := t.tf.oof, lof := t.tf.lof } }) ∧
  (∀ (ch : BitVec 2) (high : Bool) (n : Nat) (rx : RxAt) (s : State), ticking s = true → 0 < n →
    ∃ t, exec (.adcOverrange ch high n rx) s = .next t ∧ t.fe.sticky = s.fe.sticky ||| 1 <<< ch.toNat ∧
      t.fe.ovr = s.fe.ovr.set ch (min 0xFFFFFFFF (s.fe.ovr.get ch + n)) ∧
      (s.line.rxChain = true → s.fe.mode = 0 → (rxStamp rx s).sf ≠ s.fe.ovrAt → s.fe.ovrStep < n → ch.toNat < 2 →
        t.fe.stepX = -2 ∧ t.fe.stepFromX = (rxStamp rx s).sf + 1 ∧ t.fe.stepY = s.fe.stepY) ∧
      (s.line.rxChain = true → s.fe.mode = 0 → (rxStamp rx s).sf ≠ s.fe.ovrAt → s.fe.ovrStep < n → 2 ≤ ch.toNat →
        t.fe.stepY = -2 ∧ t.fe.stepFromY = (rxStamp rx s).sf + 1 ∧ t.fe.stepX = s.fe.stepX) ∧
      ((s.line.rxChain = false ∨ s.fe.mode ≠ 0 ∨ ((rxStamp rx s).sf ≠ s.fe.ovrAt ∧ n ≤ s.fe.ovrStep)) →
        t.fe.stepX = s.fe.stepX ∧ t.fe.stepY = s.fe.stepY) ∧
      t.hs.acc.disturbed = s.hs.acc.disturbed + (burstSymbols (rateNow s) n -
        spanWithin (rxStamp rx s).toNat ((rxStamp rx s).toNat + burstSymbols (rateNow s) n) s.fe.marked) ∧
      t = { s with fe := t.fe, eq := t.eq, hs := t.hs, win := t.win, hif := t.hif, q := t.q, flash := t.flash, aon := t.aon }) ∧
  (∀ (rx : RxAt) (x y : Bool) (sf : Sf) (s : State), sf = (rxStamp rx s).sf →
    (x = true ↔ s.fe.stepX ≠ 0 ∧ s.fe.stepFromX.toNat ≤ sf.toNat ∧ s.fe.stepSfX ≠ some sf) →
    (y = true ↔ s.fe.stepY ≠ 0 ∧ s.fe.stepFromY.toNat ≤ sf.toNat ∧ s.fe.stepSfY ≠ some sf) →
    (s.line.rxChain = true → s.dbg.frozen = false → (s.eq.rawLosf = true ∨ rx.s = 32768) → (x = true ∨ y = true) →
      exec (.gainStepApply rx) s = .next (capMark 0 (disturb (rxStamp rx s) 2048 { s with fe := { s.fe with
        xGain := if x then (max 0 (min 48 ((s.fe.xGain : Int) + s.fe.stepX))).toNat else s.fe.xGain,
        yGain := if y then (max 0 (min 48 ((s.fe.yGain : Int) + s.fe.stepY))).toNat else s.fe.yGain,
        stepX := if x then 0 else s.fe.stepX, stepY := if y then 0 else s.fe.stepY,
        stepSfX := if x then some sf else s.fe.stepSfX, stepSfY := if y then some sf else s.fe.stepSfY,
        gainSteps := s.fe.gainSteps + BitVec.ofNat 32 ((if x then 1 else 0) + (if y then 1 else 0)) } }))) ∧
    (s.line.rxChain = false ∨ s.dbg.frozen = true ∨ (s.eq.rawLosf = false ∧ rx.s ≠ 32768) ∨ (x = false ∧ y = false) →
      exec (.gainStepApply rx) s = .next s)) ∧
  (∀ (conv : Conv) (ch : BitVec 2) (slice : Byte) (c : Chan) (s : State), c = chanOf conv ch s →
    (c.slices[slice.toNat]? = none → exec (.sliceFailure conv ch slice) s = .fault .noSuchPart) ∧
    (∀ x, c.slices[slice.toNat]? = some x →
      (x.st ≠ .active ∨ 0 < sparesOf c →
        exec (.sliceFailure conv ch slice) s =
          .next (setChan conv ch { c with slices := c.slices.set slice.toNat { x with failed := true } } s)) ∧
      (x.st = .active → sparesOf c = 0 → conv = .adc →
        exec (.sliceFailure conv ch slice) s = .next (sliceEvent .adc ch slice.toNat 0 true
          (logEntry 1 (0x0400 + BitVec.ofNat 16 ch.toNat) (some 0x0441) [slice, 0, 1]
            (setChan .adc ch { c with slices := c.slices.set slice.toNat { x with failed := true }, substituted := true } s)))) ∧
      (x.st = .active → sparesOf c = 0 → conv = .dac →
        exec (.sliceFailure conv ch slice) s = .next (sliceEvent .dac ch slice.toNat 0 false
          (setChan .dac ch { c with slices := c.slices.set slice.toNat { x with failed := true } } s)))))

/-- FE.CONFIG, FE.STATUS and FE.SLICES: the settings within the bounds of the card take effect, a manual gain as a step due from the
present or next boundary on (that fixed gain drops a step that is due is the model's choice, log entry 40); a value outside them answers
BAD_ARG; the status reports and, when asked, clears the sticky bits (R129, R130, R148). -/
def Obligations.FrontEndCommands : Prop :=
  (∀ (h : Hdr) (mode : Byte) (xGain yGain : Half) (rms : Byte) (ovrStep losThr : Half) (flags : Byte) (s : State),
    admitted 0x0440 s = .accept →
    (mode.toNat ≤ 2 → xGain.toNat ≤ 48 → yGain.toNat ≤ 48 → 16 ≤ rms.toNat → rms.toNat ≤ 40 → ovrStep ≠ 0 →
      -300 ≤ s16 losThr → s16 losThr ≤ -120 → flags &&& 0xFE = 0 →
      exec (.feConfig h mode xGain yGain rms ovrStep losThr flags) s = .next (done 0x0440 h { s with fe := { s.fe with
        mode := mode.toNat, rms := rms.toNat, ovrStep := ovrStep.toNat, losThr := s16 losThr, notify := flags.getLsbD 0,
        stepX := if mode = 2 then (xGain.toNat : Int) - s.fe.xGain else if mode = 1 then 0 else s.fe.stepX,
        stepY := if mode = 2 then (yGain.toNat : Int) - s.fe.yGain else if mode = 1 then 0 else s.fe.stepY,
        stepFromX := if mode = 2 then (boundaryStamp s).sf else s.fe.stepFromX,
        stepFromY := if mode = 2 then (boundaryStamp s).sf else s.fe.stepFromY } })) ∧
    ((2 < mode.toNat ∨ 48 < xGain.toNat ∨ 48 < yGain.toNat ∨ rms.toNat < 16 ∨ 40 < rms.toNat ∨ ovrStep = 0 ∨
        s16 losThr < -300 ∨ -120 < s16 losThr ∨ flags &&& 0xFE ≠ 0) →
      exec (.feConfig h mode xGain yGain rms ovrStep losThr flags) s = .next (refuse 0x0440 h .badArg s))) ∧
  (∀ (h : Hdr) (flags : Byte) (s : State), admitted 0x0441 s = .accept → flags &&& 0xFE = 0 →
    ∃ fs, exec (.feStatus h flags) s = .next (reply 0x0441 h fs
        (if flags.getLsbD 0 then { s with fe := { s.fe with sticky := 0 } } else s)) ∧
      fld 16 1 s.fe.stages ∈ fs ∧ fld 24 4 (rhoQ30 (rateNow s)) ∈ fs ∧ fldI 28 4 s.fe.timingPpb ∈ fs ∧
      fld 40 4 (s.fe.ovr.get 1) ∈ fs ∧ fld 44 4 (s.fe.ovr.get 2) ∈ fs ∧
      fld 17 1 s.fe.mode ∈ fs ∧ fld 18 2 s.fe.xGain ∈ fs ∧ fld 20 2 s.fe.yGain ∈ fs ∧ fld 23 1 s.fe.sticky.toNat ∈ fs ∧
      fld 32 2 (powerField s.fe.power) ∈ fs ∧ fld 36 4 (s.fe.ovr.get 0) ∈ fs ∧ fld 48 4 (s.fe.ovr.get 3) ∈ fs ∧
      fld 56 4 s.fe.gainSteps.toNat ∈ fs) ∧
  (∀ (h : Hdr) (flags : Byte) (s : State), admitted 0x0441 s = .accept → flags &&& 0xFE ≠ 0 →
    exec (.feStatus h flags) s = .next (refuse 0x0441 h .badArg s)) ∧
  (∀ (h : Hdr) (ch : Byte) (s : State), admitted 0x0442 s = .accept → (3 < ch.toNat ∨ h.buf = false) →
    exec (.feSlices h ch) s = .next (refuse 0x0442 h .badArg s)) ∧
  (∀ (h : Hdr) (ch : Byte) (s : State), admitted 0x0442 s = .accept → ch.toNat ≤ 3 → h.buf = true →
    exec (.feSlices h ch) s = .next (respond 0x0442 h .ok
      (result [fld 16 1 (sparesOf (s.fe.adc.get (BitVec.ofNat 2 ch.toNat))),
        fld 17 1 (retiredOf (s.fe.adc.get (BitVec.ofNat 2 ch.toNat))),
        fld 18 6 (s.fe.adc.get (BitVec.ofNat 2 ch.toNat)).lastSwap.toNat])
      (some (sliceBytes (s.fe.adc.get (BitVec.ofNat 2 ch.toNat)))) s))

/-- FE.COEF_SET: action 2 reverts a set, action 0 stores one whose check value and sums hold, action 1 also stops the receive chain at
the boundary, and MODE_CHANGE_LOAD one superframe later restarts it with the new set and answers (R144 to R146, R149). -/
def Obligations.CoefficientSets : Prop :=
  (∀ (h : Hdr) (set : Byte) (check : Word) (s : State), admitted 0x0443 s = .accept → set.toNat ≤ 1 → h.buf = false →
    busyChanging s = false →
    exec (.feCoefSet h set 2 check) s = .next (reply 0x0443 h [fld 16 1 0xFF] (storeCoef set none s))) ∧
  (∀ (h : Hdr) (set : Byte) (check : Word) (s : State), admitted 0x0443 s = .accept → set.toNat ≤ 1 → h.buf = true →
    (bufData h s).length = (if set = 0 then 3072 else 24) → busyChanging s = false → check0 (bufData h s) = check.toNat →
    coefSums set (i16s (bufData h s)) = true →
    exec (.feCoefSet h set 0 check) s =
      .next (reply 0x0443 h [fld 16 1 0xFF] (storeCoef set (some (i16s (bufData h s))) s)) ∧
    (s.line.cur.isSome = true → s.line.rxChain = true → changeHere s = false →
      ∃ t, exec (.feCoefSet h set 1 check) s = .next t ∧ t.line.rxChain = false ∧
        t.fe.restart = some ⟨boundaryNow s, h, decide (s.q.acting = some true)⟩ ∧
        (set = 0 → t.fe.resampler = some (i16s (bufData h s)) ∧ t.fe.halfband = s.fe.halfband) ∧
        (set = 1 → t.fe.halfband = some (i16s (bufData h s)) ∧ t.fe.resampler = s.fe.resampler) ∧
        t.hif.rqTail = s.hif.rqTail)) ∧
  (∀ (h : Hdr) (set : Byte) (check : Word) (s : State), admitted 0x0443 s = .accept → set.toNat ≤ 1 → h.buf = true →
    (bufData h s).length = (if set = 0 then 3072 else 24) → busyChanging s = false → check0 (bufData h s) ≠ check.toNat →
    exec (.feCoefSet h set 0 check) s = .next (refuse 0x0443 h .integrity s)) ∧
  (∀ (r : Restart) (s s0 : State), ticking s = true → s.line.change = none → s.line.cur.isSome = true → s.line.rxChain = false →
    s.fe.restart = some r → s.tx.restart = none → r.c.toNat + 1 ≤ s.time.lts.sf.toNat →
    s0 = { s with fe := { s.fe with restart := none } } →
    exec .modeChangeLoad s = .next (answerLate r.late (reply 0x0443 r.hdr [fld 16 1 (stagesNow s0)]) (startRx (rateNow s0) 3 s0)) ∧
    ∃ t, exec .modeChangeLoad s = .next t ∧ t.line.rxChain = true ∧ t.fe.resHost = s.fe.resampler.isSome ∧
      t.fe.hbHost = s.fe.halfband.isSome ∧ t.fe.restart = none)

/-- How a move of the equaliser leaves it: in its new state from the superframe boundary on; on leaving TRACK the setting, the offset and
the taps are kept for a warm entry and the decoder loses its alignment; on entering TRACK the entry is counted, the failed passes end and
the decoder's search starts (R166 to R168, R210). Acquisition, at superframe boundaries while the engines run: from A0 with light,
oscillator and chain the warm entry to A2 or the cold one to A1; each state that meets its condition moves to the next, A7 to TRACK; a
held adaptation keeps A2, A5 and A6; a state whose time is over tries the next candidate or fails the pass, which starts again at A1
(R165 to R168). That every move waits for a boundary is the model's reading (log entry 40). -/
def Obligations.Acquisition : Prop :=
  (∀ (new reason : Nat) (warm : Bool) (s : State),
    (eqMove new reason warm s).eq.st = new ∧ (eqMove new reason warm s).eq.since = (boundaryStamp s).sf ∧
    (reason ≠ 0 → (eqMove new reason warm s).eq.reason = reason) ∧
    (s.eq.st = 8 → new ≠ 8 → (eqMove new reason warm s).eq.trackOut = (boundaryStamp s).sf ∧
      (eqMove new reason warm s).eq.warmOk = true ∧ (eqMove new reason warm s).eq.cdStored = s.eq.cd ∧
      (eqMove new reason warm s).eq.cfoStored = s.eq.cfo ∧ (eqMove new reason warm s).eq.tapStored = s.eq.tapVals ∧
      (eqMove new reason warm s).fec.st ≠ 2) ∧
    (s.eq.st ≠ 8 → new = 8 → (eqMove new reason warm s).eq.trackIn = (boundaryStamp s).sf ∧
      (eqMove new reason warm s).eq.failed = 0 ∧ (eqMove new reason warm s).eq.entries = s.eq.entries + 1 ∧
      (s.fec.st = 1 → (eqMove new reason warm s).fec = { s.fec with searchFrom := (boundaryStamp s).sf, l := s.fec.lSet })) ∧
    (s.eq.st ≠ 8 → (new ≠ 8 ∨ s.fec.st ≠ 1) → (eqMove new reason warm s).fec = s.fec)) ∧
  (∀ (s : State), s.eq.st = 0 → acqReady s = true → eqMoves s = true →
    (s.eq.warmOk = true → withinWarm s = true → exec .acqEntry s =
      .next (eqMove 2 0 true { s with
        fe := { s.fe with invalid := 0 },
        eq := { s.eq with cands := [], cd := s.eq.cdStored, cfo := s.eq.cfoStored, tapVals := s.eq.tapStored } })) ∧
    ((s.eq.warmOk = false ∨ withinWarm s = false) → exec .acqEntry s =
      .next (eqMove 1 0 false { s with
        fe := { s.fe with invalid := 0 }, eq := { s.eq with cands := [], sweepWin := sweepWindow s } }))) ∧
  (∀ (c : Int) (cands found : List Int) (cfo : Int) (s : State), eqMoves s = true → s.eq.st = 1 →
    sweepKeeps (rateNow s) s.eq.sweepWin found = c :: cands →
    exec (.acqStateComplete found cfo) s =
      .next (eqMove 2 0 false { s with eq := { s.eq with cd := c, cands := cands, sweepWin := none } })) ∧
  (∀ (rate : Nat) (win : Option (Int × Int)) (found : List Int), (sweepKeeps rate win found).length ≤ 3 ∧
    ∀ c ∈ sweepKeeps rate win found, c ∈ found) ∧
  (∀ (cands : List Int) (cfo : Int) (s : State), eqMoves s = true →
    (s.eq.st = 2 → s.eq.held = false → s.eq.locked = true →
      exec (.acqStateComplete cands cfo) s = .next (eqMove 3 0 s.eq.warm s)) ∧
    (s.eq.st = 3 → cfo.natAbs ≤ 3600000 → exec (.acqStateComplete cands cfo) s =
      .next (eqMove 4 0 s.eq.warm { s with eq := { s.eq with cfo := cfo, a3Done := true } })) ∧
    (s.eq.st = 4 → 2 ≤ s.eq.foundRun → exec (.acqStateComplete cands cfo) s = .next (eqMove 5 0 s.eq.warm s)) ∧
    (s.eq.st = 5 → s.eq.held = false → 8 ≤ s.eq.foundRun → s.eq.sForm = true →
      exec (.acqStateComplete cands cfo) s = .next (senseReset (eqMove 6 0 s.eq.warm s))) ∧
    (s.eq.st = 6 → s.eq.held = false → 16 ≤ s.eq.pilotRun →
      exec (.acqStateComplete cands cfo) s = .next (eqMove 7 0 s.eq.warm s)) ∧
    (s.eq.st = 7 → 256 ≤ s.eq.snrRun → exec (.acqStateComplete cands cfo) s = .next (eqMove 8 0 s.eq.warm s)) ∧
    ((s.eq.held = true ∧ (s.eq.st = 2 ∨ s.eq.st = 5 ∨ s.eq.st = 6)) ∨ (s.eq.st = 2 ∧ s.eq.locked = false) ∨
        (s.eq.st = 3 ∧ 3600000 < cfo.natAbs) ∨ (s.eq.st = 4 ∧ s.eq.foundRun < 2) ∨
        (s.eq.st = 5 ∧ (s.eq.foundRun < 8 ∨ s.eq.sForm = false)) ∨ (s.eq.st = 6 ∧ s.eq.pilotRun < 16) ∨
        (s.eq.st = 7 ∧ s.eq.snrRun < 256) →
      exec (.acqStateComplete cands cfo) s = .next s)) ∧
  (∀ (s : State), eqMoves s = true → 1 ≤ s.eq.st → s.eq.st ≤ 7 → acqTimeout s.eq.st ≤ sfSince s.eq.since s →
    (∀ c rest, s.eq.st ≠ 1 → s.eq.warm = false → s.eq.cands = c :: rest → exec .acqStateTimeout s =
      .next (eqMove 2 (acqReason s.eq.st) false { s with eq := { s.eq with cd := c, cands := rest } })) ∧
    ((s.eq.st = 1 ∨ s.eq.warm = true ∨ s.eq.cands = []) →
      ∃ t, exec .acqStateTimeout s = .next t ∧ t.eq.st = 1 ∧ t.eq.failed = s.eq.failed + 1 ∧ t.eq.cands = [] ∧
        t.eq.sweepWin = none ∧ t.eq.reason = acqReason s.eq.st)) ∧
  (∀ (s : State), eqMoves s = true ↔ ticking s = true ∧ s.time.lts.sym = 0 ∧ taskHeld .eqSupervision s = false) ∧
  (acqTimeout 1 = 512 ∧ acqTimeout 2 = 128 ∧ acqTimeout 3 = 64 ∧ acqTimeout 4 = 256 ∧ acqTimeout 5 = 512 ∧ acqTimeout 6 = 64 ∧
    acqTimeout 7 = 512)

/-- The exits: without light, oscillator or chain the equaliser is in A0; in TRACK, at a boundary, a condition of R169 that holds leads to
the warm entry of its row, the earliest state first and among those the highest row (R168 to R170). CYCLE_SLIP: two pilots in a row with
the same quadrant offset are a slip, which turns the polarisation's phase back, is counted, and erases 63 symbols unless erasure is
off; no offset, two different ones or a disturbed pilot changes nothing (R160, R161). -/
def Obligations.TrackEvents : Prop :=
  (∀ (s : State), s.dbg.frozen = false → s.eq.st ≠ 0 → (s.time.running = false ∨ eqMoves s = true) →
    (s.fe.rawLos = true → exec (.acqReturnA0 .noLight) s = .next (eqMove 0 1 false s)) ∧
    (loPresent s = false → exec (.acqReturnA0 .noLo) s = .next (eqMove 0 2 false s)) ∧
    (s.line.rxChain = false → exec (.acqReturnA0 .chainStop) s = .next (eqMove 0 0x0D false s))) ∧
  (∀ (timing cfo frame snr slips : Bool) (s u : State), eqMoves s = true → s.eq.st = 8 →
    u = { s with eq := { s.eq with cands := [] } } →
    (timing = true ↔ 16 ≤ s.eq.limitRun) → (cfo = true ↔ 3600000 < s.eq.cfo.natAbs) →
    (frame = true ↔ 8 ≤ s.eq.missX ∨ 8 ≤ s.eq.missY) → (snr = true ↔ 16 ≤ s.eq.lowRun) →
    (slips = true ↔ (256 < s.eq.slipSfX ∨ 256 < s.eq.slipSfY) ∧ sfSince s.eq.slipSf s ≤ 1) →
    (timing = true → exec .trackExit s = .next (eqMove 2 4 true u)) ∧
    (timing = false → cfo = true → exec .trackExit s = .next (eqMove 3 5 true u)) ∧
    (timing = false → cfo = false → frame = true → exec .trackExit s = .next (eqMove 4 0x0A true u)) ∧
    (timing = false → cfo = false → frame = false → snr = true → exec .trackExit s = .next (eqMove 4 9 true u)) ∧
    (timing = false → cfo = false → frame = false → snr = false → slips = true →
      exec .trackExit s = .next (eqMove 4 0x0B true u)) ∧
    (timing = false → cfo = false → frame = false → snr = false → slips = false → exec .trackExit s = .next s)) ∧
  (∀ (s : State), (s.eq.st ≠ 8 ∨ eqMoves s = false) → exec .trackExit s = .next s) ∧
  (∀ (polY : Bool) (r1 r2 : Int) (rx : RxAt) (s : State), ticking s = true → 6 ≤ s.eq.st → pilotAt rx.s.toNat s = true →
    (quadrant r1 ≠ 0 → quadrant r2 = quadrant r1 →
      spanHits (rxStamp rx s).toNat ((rxStamp rx s).toNat + 1) s.fe.marked = false →
      ∃ t, exec (.cycleSlip polY r1 r2 rx) s = .next t ∧
        t.eq.slipsX = (if polY then s.eq.slipsX else s.eq.slipsX + 1) ∧
        t.eq.slipsY = (if polY then s.eq.slipsY + 1 else s.eq.slipsY) ∧ t.eq.slipTotal = s.eq.slipTotal + 1 ∧
        t.eq.quadX = (if polY then s.eq.quadX else s.eq.quadX - quadrant r1) ∧
        t.eq.quadY = (if polY then s.eq.quadY - quadrant r1 else s.eq.quadY) ∧
        (∀ w, w = slipErased (rxStamp rx s).toNat rx s →
          t.eq.erasedX = (if polY || s.eq.noErase then s.eq.erasedX
            else spanFrom (w.1 - 4 * 2 ^ 24) (spanAdd w.1 w.2 s.eq.erasedX)) ∧
          t.eq.erasedY = (if !polY || s.eq.noErase then s.eq.erasedY
            else spanFrom (w.1 - 4 * 2 ^ 24) (spanAdd w.1 w.2 s.eq.erasedY))) ∧
        t.eq.st = s.eq.st ∧
        t = { s with eq := t.eq, hs := t.hs, win := t.win, hif := t.hif, q := t.q, flash := t.flash, aon := t.aon,
                     dbg := { s.dbg with trip := t.dbg.trip } }) ∧
    ((quadrant r1 = 0 ∨ quadrant r2 ≠ quadrant r1 ∨
        spanHits (rxStamp rx s).toNat ((rxStamp rx s).toNat + 1) s.fe.marked = true) →
      exec (.cycleSlip polY r1 r2 rx) s = .next s)) ∧
  (∀ (r : Int), -8192 ≤ r → r ≤ 8192 → quadrant r = 0) ∧
  (∀ (a : Nat) (rx : RxAt) (s : State), zrNow s = false → rx.s.toNat % 65536 ≠ 512 → slipErased a rx s = (a - 63, a))

/-- The equaliser's commands: EQ.CONFIG sets what its card names within its bounds and answers BAD_ARG outside them, EQ.NLC its mode and
scale, EQ.HOLD the hold; EQ.REACQUIRE enters A4 warm, or A1 cold also where A3 has not completed since the start, and BAD_STATE without a
mode, a chain or a state to leave; the status commands report (R157, R162, R165, R172, R174, R436, R437). The scale that EQ.NLC reports
while the compensator is off is open, and free (log entry 40). -/
def Obligations.EqualiserCommands : Prop :=
  (∀ (h : Hdr) (taps profile bw flags : Byte) (hint window : Word) (floor warmHold : Half) (s : State),
    admitted 0x0401 s = .accept →
    (((taps = 0 ∨ (15 ≤ taps.toNat ∧ taps.toNat ≤ 63 ∧ taps.toNat % 2 = 1)) ∧ profile.toNat ≤ 1 ∧ bw.toNat ≤ 3 ∧
        flags &&& 0xF8 = 0 ∧ -600000 ≤ s32 hint ∧ s32 hint ≤ 600000 ∧ window.toNat ≤ 1200000 ∧
        (floor = 0 ∨ (50 ≤ floor.toNat ∧ floor.toNat ≤ 250)) ∧ (warmHold = 0 ∨ 256 ≤ warmHold.toNat)) →
      exec (.eqConfig h taps profile bw flags hint window floor warmHold) s = .next (done 0x0401 h { s with eq := { s.eq with
        tapsSet := if taps = 0 then s.eq.tapsSet else taps.toNat, profile := profile.toNat, bw := bw.toNat,
        useHint := flags.getLsbD 0, noErase := flags.getLsbD 1, notifySlips := flags.getLsbD 2, hint := s32 hint,
        window := window.toNat, floor := floor.toNat, warmHold := if warmHold = 0 then 16384 else warmHold.toNat } })) ∧
    (¬ ((taps = 0 ∨ (15 ≤ taps.toNat ∧ taps.toNat ≤ 63 ∧ taps.toNat % 2 = 1)) ∧ profile.toNat ≤ 1 ∧ bw.toNat ≤ 3 ∧
        flags &&& 0xF8 = 0 ∧ -600000 ≤ s32 hint ∧ s32 hint ≤ 600000 ∧ window.toNat ≤ 1200000 ∧
        (floor = 0 ∨ (50 ≤ floor.toNat ∧ floor.toNat ≤ 250)) ∧ (warmHold = 0 ∨ 256 ≤ warmHold.toNat)) →
      exec (.eqConfig h taps profile bw flags hint window floor warmHold) s = .next (refuse 0x0401 h .badArg s))) ∧
  (∀ (h : Hdr) (s : State), admitted 0x0402 s = .accept → ∃ fs, exec (.eqStatus h) s = .next (reply 0x0402 h fs s) ∧
    fld 16 1 s.eq.st ∈ fs ∧ fld 17 1 s.eq.reason ∈ fs ∧ fld 18 1 (eqFlags s) ∈ fs ∧ fld 19 1 s.eq.taps ∈ fs ∧
    fld 20 4 s.eq.failed.toNat ∈ fs ∧ fld 24 6 s.eq.trackIn.toNat ∈ fs ∧ fld 30 6 s.eq.trackOut.toNat ∈ fs ∧
    fld 36 4 s.eq.slipsX.toNat ∈ fs ∧ fld 40 4 s.eq.slipsY.toNat ∈ fs ∧ fld 44 4 (excludedLast s) ∈ fs ∧
    fld 48 4 s.eq.entries.toNat ∈ fs) ∧
  (∀ (h : Hdr) (s : State), admitted 0x0403 s = .accept → ∃ fs, exec (.eqEstimates h) s = .next (reply 0x0403 h fs s) ∧
    fldI 16 4 s.eq.est.cd ∈ fs ∧ fld 20 2 s.eq.est.dgdMean ∈ fs ∧ fldI 36 4 s.eq.est.cfoKhz ∈ fs ∧
    fld 42 2 s.eq.est.snrX ∈ fs ∧ fld 44 2 s.eq.est.snrY ∈ fs ∧ fld 52 6 s.eq.estSf.toNat ∈ fs ∧ fld 58 1 (estFlags s) ∈ fs ∧
    fld 59 1 s.eq.st ∈ fs) ∧
  (∀ (h : Hdr) (mode : Byte) (scale : Half) (s : State), admitted 0x0404 s = .accept →
    (mode.toNat ≤ 2 → ∃ used, (mode = 2 → used = scale.toNat) ∧ (mode = 1 → used = s.eq.nlcUsed.toNat) ∧
      exec (.eqNlc h mode scale) s = .next (reply 0x0404 h [fld 16 2 used, fldI 18 2 s.eq.est.nlcGain]
        (nextDraw { s with eq := { s.eq with
          nlcMode := mode.toNat, nlcScale := scale, nlcUsed := if mode = 2 then scale else s.eq.nlcUsed } }))) ∧
    (2 < mode.toNat → exec (.eqNlc h mode scale) s = .next (refuse 0x0404 h .badArg s))) ∧
  (∀ (h : Hdr) (s : State), admitted 0x0405 s = .accept → s.line.cur.isSome = true → s.line.rxChain = true → s.eq.st ≠ 0 →
    (∃ u, exec (.eqReacquire h 1) s = .next (reply 0x0405 h [fld 16 1 1] u) ∧ u.eq.st = 1 ∧ u.eq.cands = [] ∧
      u.eq.taps = s.eq.tapsSet) ∧
    (s.eq.st = 8 ∨ s.eq.a3Done = true →
      ∃ u, exec (.eqReacquire h 0) s = .next (reply 0x0405 h [fld 16 1 4] u) ∧ u.eq.st = 4 ∧ u.eq.warm = true) ∧
    (s.eq.st ≠ 8 → s.eq.a3Done = false →
      ∃ u, exec (.eqReacquire h 0) s = .next (reply 0x0405 h [fld 16 1 1] u) ∧ u.eq.st = 1)) ∧
  (∀ (h : Hdr) (entry : Byte) (s : State), admitted 0x0405 s = .accept → entry.toNat ≤ 1 →
    (s.line.cur = none ∨ s.line.rxChain = false ∨ s.eq.st = 0) →
    exec (.eqReacquire h entry) s = .next (refuse 0x0405 h .badState s)) ∧
  (∀ (h : Hdr) (hold : Byte) (s : State), admitted 0x0406 s = .accept →
    (hold.toNat ≤ 1 → exec (.eqHold h hold) s = .next (done 0x0406 h { s with eq := { s.eq with held := decide (hold = 1) } })) ∧
    (1 < hold.toNat → exec (.eqHold h hold) s = .next (refuse 0x0406 h .badArg s)))

/-- TX.LASER within the variant's range: a change of at most 100 MHz with the laser locked is made in light, at 10 MHz/ms, any other is a
dark tune, and without light the frequency is set for the next tune; a power is set as asked; what its checks refuse changes nothing,
and in ZR400 a frequency that is no centre of the grid is REFUSED. TX.ENABLE: "dark" leaves every state but SHUT for DARK, whose latch it
clears, "blank" leaves LIT and NULL for BLANK, and "enable" starts the tune from DARK (R190, R192, R196 to R198). -/
def Obligations.LaserCommands : Prop :=
  (∀ (h : Hdr) (grid fine power : Half) (s : State), admitted 0x0501 s = .accept →
    firstFail (txLaserCheck (zrNow s) grid fine power 1 s) = none →
    (loPresent s = true → s.tx.freqSet = true →
      (laserMhz (s16 grid) (s16 fine) = laserMhz s.tx.grid s.tx.fine →
        exec (.txLaser h grid fine power 1) s = .next (reply 0x0501 h [fld 16 1 (optCode s.tx.st), fld 17 1 2] s)) ∧
      (0 < (laserMhz (s16 grid) (s16 fine) - laserMhz s.tx.grid s.tx.fine).natAbs →
        (laserMhz (s16 grid) (s16 fine) - laserMhz s.tx.grid s.tx.fine).natAbs ≤ 100 →
        exec (.txLaser h grid fine power 1) s = .next (reply 0x0501 h [fld 16 1 (optCode s.tx.st), fld 17 1 0] { s with
          tx := { (laserMove s).tx with grid := s16 grid, fine := s16 fine, freqSet := true, rampAt := s.time.wardenNs },
          eq := { s.eq with warmOk := false, cdKept := false } })) ∧
      (100 < (laserMhz (s16 grid) (s16 fine) - laserMhz s.tx.grid s.tx.fine).natAbs →
        ∃ u, exec (.txLaser h grid fine power 1) s = .next (reply 0x0501 h [fld 16 1 1, fld 17 1 1] u) ∧ u.tx.st = .tuning ∧
          u.tx.grid = s16 grid ∧ u.tx.fine = s16 fine ∧ u.eq.warmOk = false)) ∧
    (loPresent s = false → ∃ u k, exec (.txLaser h grid fine power 1) s =
        .next (reply 0x0501 h [fld 16 1 (optCode u.tx.st), fld 17 1 k] u) ∧
      u.tx.grid = s16 grid ∧ u.tx.fine = s16 fine ∧ u.tx.freqSet = true ∧ (k = 1 ↔ u.tx.st = .tuning))) ∧
  (∀ (s : State), (laserMhz s.tx.grid s.tx.fine - (laserMove s).tx.freq).natAbs =
    (laserMhz s.tx.grid s.tx.fine - s.tx.freq).natAbs - (s.time.wardenNs - s.tx.rampAt) / 100000) ∧
  (∀ (h : Hdr) (grid fine power : Half) (flags : Byte) (st : St) (s : State), admitted 0x0501 s = .accept →
    firstFail (txLaserCheck (zrNow s) grid fine power flags s) = some st →
    exec (.txLaser h grid fine power flags) s = .next (refuse 0x0501 h st s)) ∧
  (∀ (h : Hdr) (grid fine power : Half) (s : State), admitted 0x0501 s = .accept → zrNow s = true → s.tx.st ≠ .shut →
    inWatch s = false → s.aon.coppice < 4 → s.pwr.failed.getLsbD 3 = false →
    (zrCentre (s16 grid) (s16 fine) = false ∨ laserRange s.ident.variant (s16 grid) (s16 fine) = false) →
    exec (.txLaser h grid fine power 1) s = .next (refuse 0x0501 h .refused s)) ∧
  (∀ (h : Hdr) (grid fine power : Half) (s : State), admitted 0x0501 s = .accept →
    firstFail (txLaserCheck (zrNow s) grid fine power 2 s) = none →
    exec (.txLaser h grid fine power 2) s = .next (reply 0x0501 h [fld 16 1 (optCode s.tx.st), fld 17 1 2]
      { s with tx := { s.tx with power := s16 power } })) ∧
  (∀ (h : Hdr) (s : State), admitted 0x0502 s = .accept →
    (s.tx.st ≠ .shut → ∃ u, exec (.txEnable h 0) s = .next (reply 0x0502 h [fld 16 1 0] u) ∧ u.tx.st = .dark ∧ u.tx.request = 0) ∧
    (s.tx.st = .shut → ∃ u, exec (.txEnable h 0) s = .next (reply 0x0502 h [fld 16 1 0] u) ∧ u.tx.st = .dark ∧ u.aon.shut = false ∧
      u.tx.rearmed = false) ∧
    (s.tx.st = .lit ∨ s.tx.st = .null →
      ∃ u, exec (.txEnable h 2) s = .next (reply 0x0502 h [fld 16 1 2] u) ∧ u.tx.st = .blank ∧ u.tx.request = 2) ∧
    (s.tx.st = .dark → s.tx.freqSet = true → inWatch s = false → s.aon.coppice < 4 → s.aon.shut = false → domWorks .opt s = true →
      ∃ u, exec (.txEnable h 1) s = .next (reply 0x0502 h [fld 16 1 1] u) ∧ u.tx.st = .tuning ∧ u.tx.request = 1) ∧
    (s.tx.st = .lit → ∃ u, exec (.txEnable h 1) s = .next (reply 0x0502 h [fld 16 1 4] u) ∧
      u = { s with tx := { s.tx with request := 1, rearmed := true } })) ∧
  (∀ (h : Hdr) (request : Byte) (s : State), admitted 0x0502 s = .accept → 2 < request.toNat →
    exec (.txEnable h request) s = .next (refuse 0x0502 h .badArg s))

/-- TX.SHAPING stores its settings, of which pre-distortion and clipping are in force at once; action 1 stops the transmit chain, whose
restart by MODE_CHANGE_LOAD one superframe later answers; TX.SAFETY sets the shutdown's times, and turning it on or off with dLOS set
blanks the output or lets it light again; the two status commands report (R182, R183, R197, R199, R201). -/
def Obligations.TransmitCommands : Prop :=
  (∀ (h : Hdr) (beta flags : Byte) (cd : Word) (scale : Half) (clip : Byte) (s : State), admitted 0x0503 s = .accept →
    firstFail (txShapingCheck (zrNow s) (rateNow s) beta 0 flags cd clip) = none → busyChanging s = false →
    exec (.txShaping h beta 0 flags cd scale clip) s = .next (done 0x0503 h { s with tx := { s.tx with
      stored := ⟨beta.toNat, flags.getLsbD 0, s32 cd, s16 scale, clip.toNat⟩,
      now := { s.tx.now with nlOn := flags.getLsbD 0, nlScale := s16 scale, clip := clip.toNat } } })) ∧
  (∀ (h : Hdr) (beta flags : Byte) (cd : Word) (scale : Half) (clip : Byte) (s : State), admitted 0x0503 s = .accept →
    firstFail (txShapingCheck (zrNow s) (rateNow s) beta 1 flags cd clip) = none → busyChanging s = false →
    changeHere s = false → s.line.cur.isSome = true →
    ∃ t, exec (.txShaping h beta 1 flags cd scale clip) s = .next t ∧ t.line.txChain = false ∧
      t.tx.restart = some ⟨boundaryNow s, h, decide (s.q.acting = some true)⟩ ∧ t.tx.stored.beta = beta.toNat ∧
      t.tx.st ≠ .lit ∧ t.hif.rqTail = s.hif.rqTail) ∧
  (∀ (h : Hdr) (beta action flags : Byte) (cd : Word) (scale : Half) (clip : Byte) (st : St) (s : State),
    admitted 0x0503 s = .accept → firstFail (txShapingCheck (zrNow s) (rateNow s) beta action flags cd clip) = some st →
    exec (.txShaping h beta action flags cd scale clip) s = .next (refuse 0x0503 h st s)) ∧
  (∀ (r : Restart) (s s0 : State), ticking s = true → s.line.change = none → s.line.cur.isSome = true → s.line.txChain = false →
    s.tx.restart = some r → s.fe.restart = none → r.c.toNat + 1 ≤ s.time.lts.sf.toNat →
    s0 = { s with tx := { s.tx with restart := none } } →
    exec .modeChangeLoad s = .next (answerLate r.late (done 0x0503 r.hdr) (txAdvance 9 (txStream (startTx (boundaryNow s) s0))))) ∧
  (∀ (h : Hdr) (on : Byte) (interval : Half) (pulse : Byte) (s s1 : State), admitted 0x0505 s = .accept →
    s1 = { s with tx := { s.tx with
      als := decide (on = 1), alsInterval := if interval = 0 then 100 else interval.toNat,
      alsPulse := if pulse = 0 then 2 else pulse.toNat } } →
    ((on.toNat ≤ 1 ∧ (interval = 0 ∨ (60 ≤ interval.toNat ∧ interval.toNat ≤ 300)) ∧ pulse.toNat ≤ 4) →
      ((on = 1 ∧ (s.tf.los.set = false ∨ s.tx.als = true)) ∨ (on = 0 ∧ s.tx.als = false) →
        exec (.txSafety h on interval pulse) s = .next (done 0x0505 h s1)) ∧
      (on = 1 → s.tf.los.set = true → s.tx.als = false → s.tx.st = .lit →
        ∃ u, exec (.txSafety h on interval pulse) s = .next (done 0x0505 h u) ∧ u.tx.st = .blank ∧
          u.tx.alsFrom = (boundaryStamp s).sf) ∧
      (on = 0 → s.tx.als = true → s.tx.st = .blank → s.line.cur.isSome = true → s.tx.freqSet = true → s.tx.request = 1 →
        s.line.txChain = true → domWorks .opt s = true →
        ∃ u, exec (.txSafety h on interval pulse) s = .next (done 0x0505 h u) ∧
          u.tx.st = (if s.tx.converged = 0x3F then .lit else .null))) ∧
    (¬ (on.toNat ≤ 1 ∧ (interval = 0 ∨ (60 ≤ interval.toNat ∧ interval.toNat ≤ 300)) ∧ pulse.toNat ≤ 4) →
      exec (.txSafety h on interval pulse) s = .next (refuse 0x0505 h .badArg s))) ∧
  (∀ (h : Hdr) (s : State), admitted 0x0504 s = .accept → ∃ fs, exec (.txStatus h) s = .next (reply 0x0504 h fs (drawMany 5 s)) ∧
    fld 16 1 (optCode s.tx.st) ∈ fs ∧ fld 17 1 s.tx.reason ∈ fs ∧ fldI 18 2 s.tx.grid ∈ fs ∧ fldI 20 2 s.tx.fine ∈ fs ∧
    fldI 22 2 s.tx.power ∈ fs ∧ fld 32 1 s.tx.converged.toNat ∈ fs ∧ fld 33 1 (alsCode s) ∈ fs ∧ fld 38 1 s.tx.now.beta ∈ fs ∧
    fldI 40 4 s.tx.now.cd ∈ fs) ∧
  (∀ (h : Hdr) (ch : Byte) (s : State), admitted 0x0506 s = .accept → ch.toNat ≤ 3 → h.buf = true →
    exec (.txSlices h ch) s = .next (respond 0x0506 h .ok
      (result [fld 16 1 (sparesOf (s.tx.dac.get (BitVec.ofNat 2 ch.toNat))),
        fld 17 1 (retiredOf (s.tx.dac.get (BitVec.ofNat 2 ch.toNat))),
        fld 18 6 (s.tx.dac.get (BitVec.ofNat 2 ch.toNat)).lastSwap.toNat])
      (some (sliceBytes (s.tx.dac.get (BitVec.ofNat 2 ch.toNat)))) s))

/-- The optical states move as the laser and the loops do: a lock leaves TUNING for BLANK, and on to NULL when light is allowed; the
convergence of all six loops leaves NULL for LIT when it is; over-power cuts to SHUT from every state, latched in the always-on domain;
the shutdown's pulses begin and end at their times; a loop's alarm is given at its limit, 2,048 superframes in NULL or 256 beyond its
target in LIT, at most once in 16,384 superframes (R188, R189, R192, R195, R197 to R199). -/
def Obligations.OpticalEvents : Prop :=
  (∀ (s : State), s.tx.st = .tuning → atBoundary s = true → domWorks .opt s = true → taskHeld .laser s = false →
    (litAllowed s = false → ∃ t, exec .laserLock s = .next t ∧ t.tx.st = .blank) ∧
    (litAllowed s = true → ∃ t, exec .laserLock s = .next t ∧ t.tx.st = .null ∧ t.tx.converged = 0)) ∧
  (∀ (loops : BitVec 6) (s : State), s.tx.st = .null → atBoundary s = true → domWorks .opt s = true → taskHeld .bias s = false →
    ∃ t, exec (.biasConverged loops) s = .next t ∧ t.tx.converged = s.tx.converged ||| loops ∧
      t.tx.st = (if litAllowed s = true ∧ s.tx.converged ||| loops = 0x3F then .lit else .null)) ∧
  (∀ (peak : Int) (s : State), 300 < peak → s.tx.st ≠ .shut → s.pins.vsbValid = true →
    ∃ t, exec (.overpowerTrip peak) s = .next t ∧ t.tx.st = .shut ∧ t.tx.reason = 4 ∧ t.aon.shut = true) ∧
  (∀ (s : State), atBoundary s = true → s.tx.als = true → s.tf.los.set = true → s.tx.alsPulsing = false →
    s.tx.alsInterval * 16384 ≤ sfSince s.tx.alsFrom s → s.tx.st = .blank →
    ∃ t, exec .alsPulseStart s = .next t ∧ t.tx.alsPulsing = true ∧ t.tx.alsFrom = s.time.lts.sf ∧
      (s.line.cur.isSome = true → s.tx.freqSet = true → s.tx.request = 1 → s.line.txChain = true → domWorks .opt s = true →
        t.tx.st = (if s.tx.converged = 0x3F then .lit else .null))) ∧
  (∀ (s : State), atBoundary s = true → s.tx.alsPulsing = true → s.tx.alsPulse * 16384 ≤ sfSince s.tx.alsFrom s → s.tx.st = .lit →
    exec .alsPulseEnd s = .next { s with tx := { s.tx with
      alsPulsing := false, st := .blank, reason := 3, beyond := [none, none, none, none, none, none] } }) ∧
  (∀ (loop : BitVec 3) (last : Option Sf) (s : State), ticking s = true → s.tx.alarmed[loop.toNat]? = some last →
    (∀ a, last = some a → 16384 ≤ sfSince a s) →
    (∀ a, s.tx.st = .lit → s.tx.beyond.getD loop.toNat none = some a → 256 ≤ sfSince a s →
      exec (.biasConvergeLimit loop true) s = .next (notify 0x0503 (BitVec.ofNat 16 loop.toNat) none (ev [fld 20 1 1])
      { s with tx := { s.tx with alarmed := s.tx.alarmed.set loop.toNat (some s.time.lts.sf) } })) ∧
    (s.tx.st = .null → s.tx.converged.getLsbD loop.toNat = false → 2048 ≤ sfSince s.tx.tuneFrom s →
      exec (.biasConvergeLimit loop false) s = .next (notify 0x0503 (BitVec.ofNat 16 loop.toNat) none (ev [fld 20 1 0])
        { s with tx := { s.tx with alarmed := s.tx.alarmed.set loop.toNat (some s.time.lts.sf), reason := 7 } })))

/-- The decoder: a search whose lowest fraction is below 0.42 aligns at that candidate's phases at a boundary after its start,
any other repeats; four aligned superframes above 0.42 lose the alignment; a codeword enters the window until L are in flight, and then
one is delivered for each and counts once, uncorrectable when its inner syndrome stays or its outer one cannot be resolved (R210, R211,
R213, R215). -/
def Obligations.DecoderEvents : Prop :=
  (∀ (fs : List Nat) (rxSf : Sf) (k f : Nat) (s : State), atBoundary s = true → s.fec.st = 1 → s.eq.st = 8 → zrNow s = false →
    s.fec.searchFrom ≠ s.time.lts.sf → fs.length = 5 * cycleLen s → lowest fs = some (k, f) →
    (f < 4200 → ∃ t, exec (.fecAlignDecision fs rxSf) s = .next t ∧ t.fec.st = 2 ∧ t.fec.phase = k % 5 ∧ t.fec.refSf = rxSf ∧
      t.fec.cycle = (if cycleLen s = 23 then k / 5 else 0xFF) ∧ t.fec.alignedAt = s.time.lts.sf ∧ t.tf.st = 1 ∧
      t.tf.hunts = s.tf.hunts + 1) ∧
    (4200 ≤ f → exec (.fecAlignDecision fs rxSf) s =
      .next { s with fec := { s.fec with searchFrom := s.time.lts.sf } })) ∧
  (∀ (fs : List Nat) (k f : Nat), lowest fs = some (k, f) → fs[k]? = some f ∧ ∀ x ∈ fs, f ≤ x) ∧
  (∀ (fs : List Nat) (s : State), atBoundary s = true → s.fec.st = 2 → zrNow s = false → 4 ≤ sfSince s.fec.alignedAt s →
    fs.length = 4 → (∀ f ∈ fs, 4200 < f) →
    ∃ t, exec (.fecAlignLoss fs) s = .next t ∧ t.fec.st = 1 ∧ t.fec.losses = s.fec.losses + 1 ∧ t.tf.st = 0) ∧
  (∀ (c : Codeword) (rx : RxAt) (s : State), ticking s = true → s.fec.st = 2 → zrNow s = false → s.fec.flight < s.fec.l →
    exec (.codewordDeliver c rx) s = .next { s with fec := { s.fec with flight := s.fec.flight + 1 } }) ∧
  (∀ (c : Codeword) (rx : RxAt) (s : State), ticking s = true → s.fec.st = 2 → zrNow s = false → s.fec.l ≤ s.fec.flight →
    c.sf = s.fec.curSf →
    ∃ t, exec (.codewordDeliver c rx) s = .next t ∧ t.fec.cw = s.fec.cw + 1 ∧
      (c.innerZeroAfter = true → c.outerErrors ≤ 8 →
        t.fec.unc = s.fec.unc ∧ t.fec.corr = s.fec.corr + BitVec.ofNat 64 (c.innerChanged + c.outerErrors) ∧
        t.fec.outer = (if 0 < c.outerErrors then s.fec.outer + 1 else s.fec.outer)) ∧
      (c.innerZeroAfter = false ∨ 8 < c.outerErrors → t.fec.unc = s.fec.unc + 1 ∧ t.fec.corr = s.fec.corr) ∧
      t = { s with fec := t.fec, tf := { s.tf with unc := t.tf.unc }, hs := t.hs })

/-- The decoder's commands: FEC.CONFIG keeps L, or sets it for the next search (ZR400 ignores it), with the notification and the threshold,
starts a search anew when asked, and answers BAD_ARG outside its card; FEC.INJECT
turns the injection on and off; the reports give the counters, which FEC.COUNTERS clears when asked (R211, R215 to R219). -/
def Obligations.DecoderCommands : Prop :=
  (∀ (h : Hdr) (l : Half) (flags : Byte) (deg : Word) (s : State), admitted 0x0601 s = .accept →
    ((l.toNat % 256 = 0 ∧ l.toNat ≤ 4096) ∨ zrNow s = true → flags &&& 0xFD = 0 →
      (deg = 0 ∨ (100 ≤ deg.toNat ∧ deg.toNat ≤ 500000)) →
      exec (.fecConfig h l flags deg) s = .next (done 0x0601 h { s with fec := { s.fec with
        lSet := if l = 0 ∨ zrNow s = true then s.fec.lSet else l.toNat, notify := flags.getLsbD 1, deg := deg.toNat } })) ∧
    ((zrNow s = false ∧ (l.toNat % 256 ≠ 0 ∨ 4096 < l.toNat)) ∨ flags &&& 0xFC ≠ 0 ∨
        (deg ≠ 0 ∧ (deg.toNat < 100 ∨ 500000 < deg.toNat)) →
      exec (.fecConfig h l flags deg) s = .next (refuse 0x0601 h .badArg s))) ∧
  (∀ (h : Hdr) (s : State), admitted 0x0601 s = .accept → s.line.cur.isSome = true → s.line.rxChain = true →
    ∃ u, exec (.fecConfig h 0 1 0) s = .next (done 0x0601 h u) ∧ u.fec.st = 1 ∧ u.fec.l = s.fec.lSet) ∧
  (∀ (h : Hdr) (s : State), admitted 0x0602 s = .accept → ∃ fs, exec (.fecStatus h) s = .next (reply 0x0602 h fs (drawMany 3 s)) ∧
    fld 16 1 s.fec.st ∈ fs ∧ fld 18 2 s.fec.l ∈ fs ∧ fld 24 4 s.fec.estimate ∈ fs ∧ fld 34 6 s.fec.alignedAt.toNat ∈ fs ∧
    fld 40 4 s.fec.losses.toNat ∈ fs) ∧
  (∀ (h : Hdr) (s : State), admitted 0x0603 s = .accept →
    exec (.fecCounters h 1) s = .next (reply 0x0603 h
      [fld 16 8 s.fec.cw.toNat, fld 24 8 s.fec.corr.toNat, fld 32 8 s.fec.outer.toNat, fld 40 8 s.fec.unc.toNat,
       fld 48 6 s.fec.since.toNat, fld 56 4 s.fec.lastCw, fld 60 4 s.fec.lastCorr]
      { s with fec := { s.fec with cw := 0, corr := 0, outer := 0, unc := 0, since := s.time.lts.sf } }) ∧
    exec (.fecCounters h 0) s = .next (reply 0x0603 h
      [fld 16 8 s.fec.cw.toNat, fld 24 8 s.fec.corr.toNat, fld 32 8 s.fec.outer.toNat, fld 40 8 s.fec.unc.toNat,
       fld 48 6 s.fec.since.toNat, fld 56 4 s.fec.lastCw, fld 60 4 s.fec.lastCorr] s)) ∧
  (∀ (h : Hdr) (ber : Word) (s : State), admitted 0x0604 s = .accept → s.line.cur.isSome = true →
    (1 ≤ ber.toNat → ber.toNat ≤ 500000 → exec (.fecInject h 1 ber) s =
      .next (done 0x0604 h { s with fec := { s.fec with inject := true, injectBer := ber.toNat } })) ∧
    exec (.fecInject h 0 ber) s = .next (done 0x0604 h { s with fec := { s.fec with inject := false } }))

/-- The framer's input: an overhead whose check fails or that is marked leaves the frame bytes to the one before it, if that was the
superframe before, a usable one sets them and gives a header's place (R224, R230); a good header at the expected position keeps the frame,
a third bad one in a row loses it, a marked one is passed over (R230, R231). TF_TRANSMIT sends, when a frame is due, a header whose first
bytes are the frame number and whose last are its check, with the mode and BDI, and the number rises (R226, R227); FBYTES of a
superframe is what has been produced since the first, to the byte (R223; zero before the first is the model's choice, log entry 48). In
ZR400 of the frame only the backward indication is sent (R122). -/
def Obligations.TransportFrames : Prop :=
  (∀ (bytes : List Byte) (rxSf : Sf) (ok : Bool) (s : State), ticking s = true → slotModeNow s = true → s.fec.st = 2 →
    bytes.length = 16 → (ok = true ↔ sfohCheck bytes = true ∧ bitsMarked rxSf 0 128 s = false) →
    ∃ t, exec (.sfohReceive bytes rxSf) s = .next t ∧
      (ok = true → t.tf.fbytes = beNat (slice bytes 0 4) ∧ t.tf.usable = true ∧ t.tf.fnext = some (beNat (slice bytes 4 4)) ∧
        t.tf.ptr = (if bitOf (byteAt bytes 11) 0 then some (s.tf.base + s.tf.fbytes + beNat (slice bytes 8 2)) else none)) ∧
      (ok = false → t.tf.fbytes = (if rxSf = s.tf.rxSf + 1 then s.tf.fnext.getD s.tf.fbytes else s.tf.fbytes) ∧
        t.tf.usable = false ∧ t.tf.fnext = none ∧ t.tf.ptr = none) ∧
      t.tf.base = s.tf.base + s.tf.fbytes ∧ t.tf.rxSf = rxSf ∧
      t.tf.sfohFails = (if sfohCheck bytes then s.tf.sfohFails else s.tf.sfohFails + 1)) ∧
  (∀ (m : LMode) (f : TfRx) (rx : RxAt) (s : State), s.line.cur = some m → isZr m = false → ticking s = true → s.fec.st = 2 →
    f.header.length = 16 → s.tf.st = 3 →
    (f.pos ≠ s.tf.pos → exec (.tfHeaderReceive f rx) s = .next s) ∧
    (f.pos = s.tf.pos → bytesMarked f.pos 16 s = false → headerPasses m.code f.header = true → headerTfn f.header = s.tf.tfn →
      ∃ t, exec (.tfHeaderReceive f rx) s = .next t ∧ t.tf.st = 3 ∧ t.tf.badRun = 0 ∧ t.tf.tfn = s.tf.tfn + 1 ∧
        t.tf.pos = s.tf.pos + 65536 ∧ t.tf.rxTfn = s.tf.tfn ∧ t.tf.bad = s.tf.bad) ∧
    (f.pos = s.tf.pos → bytesMarked f.pos 16 s = false →
      (headerPasses m.code f.header = false ∨ headerTfn f.header ≠ s.tf.tfn) →
      ∃ t, exec (.tfHeaderReceive f rx) s = .next t ∧ t.tf.bad = s.tf.bad + 1 ∧
        (2 ≤ s.tf.badRun → t.tf.st = 1 ∧ t.tf.oofCause = 0 ∧ t.tf.hunts = s.tf.hunts + 1) ∧
        (s.tf.badRun < 2 → t.tf.st = 3 ∧ t.tf.badRun = s.tf.badRun + 1)) ∧
    (f.pos = s.tf.pos → bytesMarked f.pos 16 s = true → s.tf.badRun < 3 →
      ∃ t, exec (.tfHeaderReceive f rx) s = .next t ∧ t.tf.st = 3 ∧
        t.tf.badRun = s.tf.badRun ∧ t.tf.tfn = s.tf.tfn + 1 ∧ t.tf.bad = s.tf.bad)) ∧
  (∀ (m : LMode) (fills : List ClientFill) (s : State), s.line.cur = some m → isZr m = false → isSlotMode m = true →
    (tfDue s = true →
      ∃ t, exec (.tfTransmit fills) s = .next t ∧ t.tf.txTfn = s.tf.txTfn + 1 ∧ t.tf.txLast = s.tf.txTfn ∧
        t.tf.txHead.take 4 = beBytes 4 s.tf.txTfn.toNat ∧ byteAt t.tf.txHead 4 = m.code ∧
        byteAt t.tf.txHead 8 = boolByte (sendBdi s) ∧
        (t.tf.txHead.drop 12).take 4 = leBytes 4 (check0 (t.tf.txHead.take 12)) ∧
        t.tribs = s.tribs.map (txTake m fills s) ∧
        t.tf.txFbytes = fbytesOf m s.tf.origin s.time.lts.sf.toNat ∧
        t.tf.txFnext = fbytesOf m s.tf.origin (s.time.lts.sf.toNat + 1) ∧
        t = { s with
          tf := { s.tf with
            txHead := t.tf.txHead, txFrame := t.tf.txFrame, txBdi := sendBdi s, txLast := t.tf.txLast, txTfn := t.tf.txTfn,
            txCount := s.tf.txCount + 1, txSf := t.tf.txSf, txFbytes := t.tf.txFbytes, txFnext := t.tf.txFnext,
            txTsp := t.tf.txTsp, txSfoh := t.tf.txSfoh },
          tribs := t.tribs, hl := { s.hl with ports := t.hl.ports },
          fec := { s.fec with injectPos := t.fec.injectPos } }) ∧
    (tfDue s = false → exec (.tfTransmit fills) s = .next s)) ∧
  (∀ (s : State), tfDue s = true ↔ ticking s = true ∧ s.line.txChain = true ∧ 0 < slotsNow s ∧ (tfAt s).le s.time.lts = true) ∧
  (∀ (m : LMode) (origin : Lts) (k : Nat),
    (List.range k).foldl (fun a i => a + fbytesOf m origin (origin.sf.toNat + i)) 0 = framerBytes m k) ∧
  (∀ (m : LMode) (fills : List ClientFill) (s : State), s.line.cur = some m → isZr m = true → ticking s = true →
    s.line.txChain = true → exec (.tfTransmit fills) s = .next { s with tf := { s.tf with txBdi := sendBdi s } })

/-- While the engine that integrates a defect runs, the defect sets, with its notification and what follows from it, once its raw condition
has held for the set time or the set run of its row, and clears after the clear time or run; before, nothing changes, and nothing changes
in freeze, for a defect the variant lacks, or while that engine's tasks are held by a halt. The stamp of the notification is that at
which the integration ended (R22, R26, R234 to R236, R249). -/
def Obligations.DefectIntegration : Prop :=
  (∀ (d : Defect) (s : State), integrates d s = true →
    (∀ t, setsAt d s = some t → exec (.defectSet d) s = .next (defectFollow d true t (moveDefect d true t s))) ∧
    (setsAt d s = none → exec (.defectSet d) s = .next s) ∧
    (∀ t, clearsAt d s = some t → exec (.defectClear d) s = .next (defectFollow d false t (moveDefect d false t s))) ∧
    (clearsAt d s = none → exec (.defectClear d) s = .next s)) ∧
  (∀ (d : Defect) (s : State), (s.dbg.frozen = true ∨ defectExists d s = false ∨
      taskHeld (match d with | .ref _ => .references | _ => .framing) s = true) → exec (.defectSet d) s = .next s ∧ exec (.defectClear d) s = .next s) ∧
  (∀ (s : State), s.tf.los.set = false → s.tf.los.raw = true →
    (s.tf.los.since.toNat + 16777216 ≤ s.time.lts.toNat →
      setsAt .los s = some (Lts.ofNat (s.tf.los.since.toNat + 16777216)) ∧ (moveDefect .los true s.time.lts s).tf.los.set = true) ∧
    (s.time.lts.toNat < s.tf.los.since.toNat + 16777216 → setsAt .los s = none)) ∧
  (∀ (s : State), s.tf.loa.set = false → s.tf.loa.raw = true →
    (setsAt .loa s = none ↔ s.time.lts.toNat < s.tf.loa.since.toNat + 16 * 16777216)) ∧
  (∀ (s : State), s.tf.losf.set = false → s.tf.losf.raw = true →
    (setsAt .losf s = none ↔ s.time.lts.toNat < s.tf.losf.since.toNat + 16 * 16777216)) ∧
  (∀ (s : State), s.tf.lof.set = false → s.tf.lof.raw = true →
    (setsAt .lof s = none ↔ s.time.lts.toNat < s.tf.lof.since.toNat + 816000000)) ∧
  (∀ (s : State), s.tf.oof.set = false → s.tf.oof.raw = true → setsAt .oof s = some s.tf.oof.since) ∧
  (∀ (s : State), s.tf.unc.set = false → s.tf.unc.raw = true → setsAt .unc s = some s.tf.unc.since) ∧
  (∀ (s : State), s.tf.deg.set = false → s.tf.deg.raw = true → (setsAt .deg s = none ↔ s.tf.deg.run < 16384)) ∧
  (∀ (s : State), s.tf.bdi.set = false → s.tf.bdi.raw = true → s.tf.st = 3 → (setsAt .bdi s = none ↔ s.tf.bdi.run < 5)) ∧
  (∀ (i : Byte) (x : Trib) (s : State), tribAt i s = some x → s.tf.st = 3 →
    (x.csf.set = false → x.csf.raw = true → (setsAt (.csf i) s = none ↔ x.csf.run < 5)) ∧
    (x.plm.set = false → x.plm.raw = true → (setsAt (.plm i) s = none ↔ x.plm.run < 5)) ∧
    (x.csf.set = true → x.csf.raw = false → (clearsAt (.csf i) s = none ↔ x.csf.run < 5)) ∧
    (x.plm.set = true → x.plm.raw = false → (clearsAt (.plm i) s = none ↔ x.plm.run < 5))) ∧
  (∀ (i : Byte) (x : Trib) (s : State), tribAt i s = some x →
    (x.auth.set = false → x.auth.raw = true → (setsAt (.auth i) s = none ↔ x.auth.run < 1)) ∧
    (x.auth.set = true → x.auth.raw = false → (clearsAt (.auth i) s = none ↔ x.auth.run < 16)) ∧
    (x.key.set = false → x.key.raw = true → setsAt (.key i) s = some x.key.since) ∧
    (x.key.set = true → x.key.raw = false → clearsAt (.key i) s = some x.key.since)) ∧
  (∀ (s : State), s.tf.los.set = true → s.tf.los.raw = false →
    (clearsAt .los s = none ↔ s.time.lts.toNat < s.tf.los.since.toNat + 15 * 16777216)) ∧
  (∀ (s : State), s.tf.loa.set = true → (clearsAt .loa s = none ↔ s.eq.st ≠ 8)) ∧
  (∀ (s : State), s.tf.losf.set = true → s.tf.losf.raw = false → clearsAt .losf s = some s.tf.losf.since) ∧
  (∀ (s : State), s.tf.oof.set = true → s.tf.oof.raw = false → clearsAt .oof s = some s.tf.oof.since) ∧
  (∀ (s : State), s.tf.lof.set = true → s.tf.lof.raw = false → s.tf.oof.raw = false →
    (clearsAt .lof s = none ↔ s.time.lts.toNat < s.tf.oof.since.toNat + 816000000)) ∧
  (∀ (s : State), s.tf.deg.set = true → s.tf.deg.raw = false → (clearsAt .deg s = none ↔ s.tf.deg.run < 16384)) ∧
  (∀ (s : State), s.tf.unc.set = true → s.tf.unc.raw = false → (clearsAt .unc s = none ↔ s.tf.unc.run < 16384)) ∧
  (∀ (s : State), s.tf.bdi.set = true → s.tf.bdi.raw = false → s.tf.st = 3 → (clearsAt .bdi s = none ↔ s.tf.bdi.run < 5))

/-- The tributary commands: TRIB.DEFINE takes the lowest unused entry for slots and a port that are free, and answers the first of its
refusals that holds otherwise; TRIB.REMOVE releases the tributary with its port; TRIB.STATUS gives the counters of a tributary, and
clears them when asked; TRIB.REMOVE and TRIB.STATUS refuse a TID without a tributary. TF.STATUS reports the framer's state and counts
(R238, R240, R247, R248, R256). -/
def Obligations.TributaryCommands : Prop :=
  (∀ (h : Hdr) (tid client : Byte) (port : Half) (cipher : Byte) (s : State), admitted 0x0701 s = .accept →
    (firstFail (tribDefineCheck (slotModeNow s) (slotsNow s) tid client port cipher s) = none →
      ∃ u e, freeEntry s = some e ∧ exec (.tribDefine h tid client port cipher) s =
          .next (reply 0x0701 h [fld 16 1 e, fld 17 1 ((clientSlots client.toNat).getD 0)] u) ∧
        u.tribs.length = s.tribs.length + 1 ∧
        (∃ x ∈ u.tribs, x.tid = tid ∧ x.entry = e ∧ x.client = client.toNat ∧ x.port = port.toNat ∧ x.cipher = cipher.toNat ∧
          x.txCur = none ∧ x.rxCur = none)) ∧
    (∀ st, firstFail (tribDefineCheck (slotModeNow s) (slotsNow s) tid client port cipher s) = some st →
      exec (.tribDefine h tid client port cipher) s = .next (refuse 0x0701 h st s))) ∧
  (∀ (h : Hdr) (tid : Byte) (s : State), admitted 0x0702 s = .accept →
    (tribAt tid s = none → exec (.tribRemove h tid) s = .next (refuse 0x0702 h .badArg s)) ∧
    (∀ t, tribAt tid s = some t → ∃ u, exec (.tribRemove h tid) s = .next (done 0x0702 h u) ∧ (∀ x ∈ u.tribs, x.tid ≠ tid) ∧
      (∀ p ∈ u.hl.ports, p.num ≠ t.port))) ∧
  (∀ (h : Hdr) (tid flags : Byte) (s : State), admitted 0x0703 s = .accept → tribAt tid s = none →
    exec (.tribStatus h tid flags) s = .next (refuse 0x0703 h .badArg s)) ∧
  (∀ (h : Hdr) (tid : Byte) (t : Trib) (s : State), admitted 0x0703 s = .accept → tribAt tid s = some t →
    ∃ fs, exec (.tribStatus h tid 1) s = .next (reply 0x0703 h fs
        (modTrib tid (fun t => { t with joData := 0, joStuff := 0, mismatches := 0, retakes := 0, errBlocks := 0 }) s)) ∧
      exec (.tribStatus h tid 0) s = .next (reply 0x0703 h fs s) ∧ fld 16 1 t.entry ∈ fs ∧ fld 17 1 t.client ∈ fs ∧
      fld 19 1 t.rxPt ∈ fs ∧ fld 20 4 t.joData.toNat ∈ fs ∧ fld 24 4 t.joStuff.toNat ∈ fs ∧ fld 28 4 t.mismatches.toNat ∈ fs ∧
      fld 32 4 t.retakes.toNat ∈ fs ∧ fld 36 4 t.errBlocks.toNat ∈ fs ∧ fldI 40 4 (clientOffset t s) ∈ fs) ∧
  (∀ (h : Hdr) (s : State), admitted 0x0704 s = .accept → ∃ fs, exec (.tfStatus h) s = .next (reply 0x0704 h fs s) ∧
    fld 16 1 s.tf.st ∈ fs ∧ fld 17 1 (lineDefects s) ∈ fs ∧ fld 20 4 s.tf.rxTfn.toNat ∈ fs ∧ fld 36 4 s.tf.bad.toNat ∈ fs ∧
    fld 52 4 s.tf.txLast.toNat ∈ fs)

/-- Spans: once the next transmit boundary has been reached, the tributary commands that are due act, then the cipher's, and then loaded
keys settle, drained slots go and every encrypted tributary's span advances (R247, R257, R259, R274); before it nothing happens. A span
under a current key of a tributary that sends counts in its slot, and at span 2^40 the slot is SPENT and the tributary blocked (R271).
On the receive side a phase that stays continues the counter, one that changes with a usable receive next key takes that key at counter
zero, and one that changes with no receive next key blocks the tributary (R258, R270). -/
def Obligations.SpanBoundaries : Prop :=
  (∀ (s s0 s1 : State), s0 = { s with tf := { s.tf with spanNext := s.tf.spanNext + 1 } } →
    s1 = runAll pendLe tribDue s0.q.pend.length s0 → spansExist s = true → ticking s = true →
    ((spanAt s.tf.spanNext s).le s.time.lts = true →
      exec .txSpanBoundary s = .next (txSpanTick (runAll spanLe spanDue s1.q.pend.length s1))) ∧
    ((spanAt s.tf.spanNext s).le s.time.lts = false → exec .txSpanBoundary s = .next s)) ∧
  (∀ (s : State), spansExist s = false → exec .txSpanBoundary s = .next s) ∧
  (∀ (t : Trib) (i : Byte) (s : State), t.txCur = some i → txSilent t s = false → i.toNat < s.ciph.slots.length →
    t.txFresh = false →
    (2 ^ 40 ≤ t.txSpan + 1 → (slotAt i (txSpanOf t s)).st = .spent ∧
      (∀ x ∈ (txSpanOf t s).tribs, x.tid = t.tid → x.blockTx = true)) ∧
    (t.txSpan + 1 < 2 ^ 40 → (slotAt i (txSpanOf t s)).spans = t.txSpan + 2 ∧
      (∀ x ∈ (txSpanOf t s).tribs, x.tid = t.tid → x.txSpan = t.txSpan + 1))) ∧
  (∀ (t : Trib) (s : State), txSilent t s = true → txSpanOf t s = s) ∧
  (∀ (tid : Byte) (ph : Option Bool) (rx : RxAt) (t : Trib) (s s0 : State), tribAt tid s = some t → t.cipher ≠ 0 → s.tf.st = 3 →
    ticking s = true → cipherWorks s = true → t.adopt = false → t.rxCur.isSome = true →
    s0 = modTrib tid (fun t => { t with
        prevSpan := t.rxSpan, prevSlot := t.rxCur, prevConf := t.confirmed, lineRx := t.lineRx && !s.ciph.lineOk })
      ((List.range 256).foldl (fun s i => rxDrainAt tid i s) (failClose tid s)) →
    (ph.getD t.rxPhase = t.rxPhase → exec (.rxSpanStart tid ph rx) s =
      .next (refreshTribsAt (rxStamp rx s) (rxSpanOf tid false (rxStamp rx s) s0))) ∧
    (ph.getD t.rxPhase ≠ t.rxPhase → t.rxNext = none → ∃ u x, exec (.rxSpanStart tid ph rx) s = .next u ∧
      tribAt tid u = some x ∧ x.blockRx = true ∧ x.prevSpan = t.rxSpan ∧ x.prevSlot = t.rxCur) ∧
    (∀ n, ph.getD t.rxPhase ≠ t.rxPhase → t.rxNext = some n → usable (slotNow n s0) = true →
      ∃ u x, exec (.rxSpanStart tid ph rx) s = .next u ∧ tribAt tid u = some x ∧ x.rxCur = some n ∧ x.rxNext = none ∧
        x.rxSpan = 0 ∧ x.rxPhase = !t.rxPhase ∧ x.blockRx = false))

/-- A usable span record confirms or corrects the prediction, one that says BLOCKED marks the far end, one whose counter is 2^40 or more
spends the receive key, an unusable one changes nothing (R262, R263, R269, R271); a span whose tag matches is verified, one whose tag
does not fails, one not received whole under a confirmed counter is neither (R264, R267); a held span leaves the verify buffer 32 TFs
after its start, and replaces the client signal unless it is verified (R266); a recomputed tag that differs fails the line engine and
blocks every encrypted tributary (R280). -/
def Obligations.SpanRecordsAndTags : Prop :=
  (∀ (tid : Byte) (bytes : List Byte) (rx : RxAt) (marked : Bool) (t : Trib) (s : State), tribAt tid s = some t → t.cipher ≠ 0 →
    s.tf.st = 3 → ticking s = true → cipherWorks s = true → marked = bytesMarked (tagPlace (3 + t.rxEntry / 8) t s) 16 s →
    (recordUsable tid bytes marked = false → exec (.spanRecordReceive tid bytes rx) s = .next s) ∧
    (recordUsable tid bytes marked = true → bitOf (byteAt bytes 9) 0 = true → ∃ u x,
      exec (.spanRecordReceive tid bytes rx) s = .next u ∧ tribAt tid u = some x ∧ x.farBlocked = true) ∧
    (recordUsable tid bytes marked = true → bitOf (byteAt bytes 9) 0 = false → 2 ^ 40 ≤ beNat (slice bytes 0 8) →
      ∀ i, t.rxCur = some i → i.toNat < s.ciph.slots.length → ∃ u x, exec (.spanRecordReceive tid bytes rx) s = .next u ∧
        tribAt tid u = some x ∧ x.blockRx = true ∧ x.farBlocked = false ∧ (slotAt i u).st = .spent) ∧
    (recordUsable tid bytes marked = true → bitOf (byteAt bytes 9) 0 = false → beNat (slice bytes 0 8) < 2 ^ 40 →
      t.rxCur.isSome = true → ∃ u x,
      exec (.spanRecordReceive tid bytes rx) s = .next u ∧ tribAt tid u = some x ∧ x.farBlocked = false ∧
      (t.confirmed = true → t.rxSpan = beNat (slice bytes 0 8) → x.counterMiss = t.counterMiss ∧ x.confirmNext = t.confirmNext) ∧
      (t.confirmed = true → t.rxSpan ≠ beNat (slice bytes 0 8) →
        x.counterMiss = t.counterMiss + 1 ∧ x.confirmNext = some (beNat (slice bytes 0 8) + 1)) ∧
      (t.confirmed = false → x.confirmNext = some (beNat (slice bytes 0 8) + 1)))) ∧
  (∀ (tid : Byte) (data tag : List Byte) (rx : RxAt) (i : Byte) (t : Trib) (s : State),
    tribAt tid s = some t → t.cipher ≠ 0 → s.tf.st = 3 → ticking s = true → cipherWorks s = true → t.prevSlot = some i →
    rxBlocked t s = false →
    (t.prevConf = false → exec (.spanTagVerify tid data tag rx) s = .next (markHandled tid s)) ∧
    (t.prevConf = true → spanWhole t = false → ∃ u x, exec (.spanTagVerify tid data tag rx) s = .next u ∧ tribAt tid u = some x ∧
      x.verified = t.verified ∧ x.failedSpans = t.failedSpans ∧ x.incomplete = t.incomplete + 1) ∧
    (spanWhole t = true → t.farBlocked = false → ∃ u x,
      exec (.spanTagVerify tid data tag rx) s = .next u ∧ tribAt tid u = some x ∧
      (bytesMarked (tagPlace (t.rxEntry / 8) t s) 16 s = false ∧ expectedTag t i data s = tag →
        x.verified = t.verified + 1 ∧ x.failedSpans = t.failedSpans ∧ x.auth.raw = false) ∧
      (bytesMarked (tagPlace (t.rxEntry / 8) t s) 16 s = true ∨ expectedTag t i data s ≠ tag →
        x.verified = t.verified ∧ x.failedSpans = t.failedSpans + 1 ∧ x.auth.raw = true))) ∧
  (∀ (tid : Byte) (b : SpanHeld) (rest : List SpanHeld) (t : Trib) (s : State), tribAt tid s = some t → t.buffer = b :: rest →
    t.cipher = 2 → ticking s = true → cipherWorks s = true →
    (b.start.toNat + nearest (2 * spanNum s) (spanDen s) ≤ s.time.lts.toNat → ∃ u x, exec (.spanRelease tid) s = .next u ∧
      tribAt tid u = some x ∧ x.buffer = rest ∧ (b.verdict ≠ some true → x.replaced = true) ∧
      (b.verdict = some true → x.replaced = mustReplace { t with relBad := false } s) ∧
      x.errBlocks = (if t.relBad = decide (b.verdict ≠ some true) then t.errBlocks else t.errBlocks + 1)) ∧
    (s.time.lts.toNat < b.start.toNat + nearest (2 * spanNum s) (spanDen s) → exec (.spanRelease tid) s = .next s)) ∧
  (∀ (tid : Byte) (t : Trib) (s : State), tribAt tid s = some t → t.cipher ≠ 0 → ticking s = true → txSilent t s = false →
    ∃ u, exec (.tagRecomputeMismatch tid) s = .next u ∧ u.ciph.lineOk = false ∧
      (∀ x ∈ u.tribs, x.cipher ≠ 0 → x.key.raw = true ∧ txBlocked x u = true ∧ rxBlocked x u = true))

/-- The key commands: a wrapped key that passes fills an empty or loaded slot, one that fails the wrap leaves it, and a missing buffer or
another length is BAD_ARG (R253, R254); KEY.ERASE empties a loaded slot, and a current, draining or spent one only when forced (R255);
KEY.ASSIGN gives a tributary its next or receive current key or takes its next key away, or answers the first of its refusals that
holds (R256, R270); KEY.ACTIVATE makes the next key current, restarts the counter and inverts the phase, is refused without one, and
waits while no span boundary exists (R257, R439); KEY.KEK_INFO and KEY.STATUS report (R281). CIPH.TRIB_STATUS reports a tributary's keys
and counts and clears the counts when asked; CIPH.SELFTEST, while CIPH can be powered, answers OK when all engines pass and INTEGRITY
otherwise; CIPH.TRIB_MODE changes an encrypted tributary's receive behaviour and discards what the verify buffer holds (R268, R280,
R281). -/
def Obligations.KeyCommands : Prop :=
  (∀ (h : Hdr) (s : State), admitted 0x0801 s = .accept → exec (.keyKekInfo h) s = .next (reply 0x0801 h
    [(16, kcvOf s.ident.kek), fld 19 1 (boolBit s.ciph.lineOk 0 + boolBit s.ciph.mmOk 1)] s)) ∧
  (∀ (h : Hdr) (slot : Byte) (s : State), admitted 0x0802 s = .accept → (h.buf = false ∨ h.length ≠ 48) →
    exec (.keyLoad h slot) s = .next (refuse 0x0802 h .badArg s)) ∧
  (∀ (h : Hdr) (slot : Byte) (s : State), admitted 0x0802 s = .accept → h.buf = true → h.length = 48 →
    (kwUnwrap s.ident.kek (bufData h s) = none → exec (.keyLoad h slot) s = .next (refuse 0x0802 h .authFail s)) ∧
    (∀ p d, kwUnwrap s.ident.kek (bufData h s) = some p → keyPayload p = some d → d.usage ≠ 2 →
      ((slotAt slot s).st = .empty ∨ (slotAt slot s).st = .loaded) →
      exec (.keyLoad h slot) s = .next (reply 0x0802 h [fld 16 1 d.usage, (17, d.kcv), fld 24 6 (usableAt s).sf.toNat]
        (setSlot slot (settled s.time.lts { emptySlot with
          st := .loaded, data := ⟨[], [], d.usage, d.clearCtx, d.kcv⟩, coming := some (d, usableAt s) }) s))) ∧
    (∀ p d, kwUnwrap s.ident.kek (bufData h s) = some p → keyPayload p = some d →
      ((slotAt slot s).st = .current ∨ (slotAt slot s).st = .draining ∨ (slotAt slot s).st = .spent) →
      exec (.keyLoad h slot) s = .next (refuse 0x0802 h .busy s))) ∧
  (∀ (h : Hdr) (slot : Byte) (s : State), admitted 0x0803 s = .accept →
    ((slotAt slot s).st = .loaded → (slotAt slot s).data.usage ≠ 2 →
      exec (.keyErase h slot 0) s = .next (reply 0x0803 h [fld 16 1 1] (plainErase slot s))) ∧
    (((slotAt slot s).st = .current ∨ (slotAt slot s).st = .draining ∨ (slotAt slot s).st = .spent) →
      exec (.keyErase h slot 0) s = .next (refuse 0x0803 h .busy s) ∧
      exec (.keyErase h slot 1) s = .next (reply 0x0803 h [fld 16 1 (slotCode (slotAt slot s).st)] (forceErase slot s)))) ∧
  (∀ (h : Hdr) (tid ref slot : Byte) (st : St) (s : State), admitted 0x0804 s = .accept →
    firstFail (keyAssignCheck (zrNow s) tid ref slot s) = some st →
    exec (.keyAssign h tid ref slot) s = .next (refuse 0x0804 h st s)) ∧
  (∀ (h : Hdr) (tid slot : Byte) (t : Trib) (s : State), admitted 0x0804 s = .accept → tribAt tid s = some t →
    slot.toNat < s.ciph.slots.length →
    (firstFail (keyAssignCheck (zrNow s) tid 0 slot s) = none → ∃ u x, exec (.keyAssign h tid 0 slot) s = .next (done 0x0804 h u) ∧
      tribAt tid u = some x ∧ x.txNext = some slot ∧ (slotAt slot u).st = .next ∧ (slotAt slot u).owner = tid) ∧
    (firstFail (keyAssignCheck (zrNow s) tid 1 slot s) = none → ∃ u x, exec (.keyAssign h tid 1 slot) s = .next (done 0x0804 h u) ∧
      tribAt tid u = some x ∧ x.rxNext = some slot ∧ (slotAt slot u).st = .next ∧ (slotAt slot u).owner = tid) ∧
    (firstFail (keyAssignCheck (zrNow s) tid 2 slot s) = none → ∃ u x, exec (.keyAssign h tid 2 slot) s = .next (done 0x0804 h u) ∧
      tribAt tid u = some x ∧ x.rxCur = some slot ∧ x.blockRx = false ∧ x.confirmed = false ∧ (slotAt slot u).st = .current) ∧
    (firstFail (keyAssignCheck (zrNow s) tid 3 slot s) = none → ∃ u x, exec (.keyAssign h tid 3 slot) s = .next (done 0x0804 h u) ∧
      tribAt tid u = some x ∧ x.txNext = none ∧ x.rxNext = t.rxNext) ∧
    (firstFail (keyAssignCheck (zrNow s) tid 4 slot s) = none → ∃ u x, exec (.keyAssign h tid 4 slot) s = .next (done 0x0804 h u) ∧
      tribAt tid u = some x ∧ x.rxNext = none ∧ x.txNext = t.txNext)) ∧
  (∀ (h : Hdr) (tid : Byte) (t : Trib) (s : State), admitted 0x0805 s = .accept → tribAt tid s = some t → t.cipher ≠ 0 →
    zrNow s = false →
    (spansExist s = true → ∀ n, usableNext t s = some n → ∃ u x, exec (.keyActivate h tid) s =
        .next (reply 0x0805 h [fld 16 1 n.toNat, fld 17 1 (!t.txPhase).toNat, fld 24 6 (txStamp s).sf.toNat] u) ∧
      tribAt tid u = some x ∧ x.txCur = some n ∧ x.txNext = none ∧ x.txSpan = 0 ∧ x.txPhase = !t.txPhase ∧ x.blockTx = false) ∧
    (spansExist s = true → usableNext t s = none → exec (.keyActivate h tid) s = .next (refuse 0x0805 h .badState s)) ∧
    (spansExist s = false → ∃ p, exec (.keyActivate h tid) s =
        .next { s with q := { s.q with pend := s.q.pend ++ [p], ord := s.q.ord + 1 } } ∧ p.cmd = .keyActivate h tid)) ∧
  (∀ (h : Hdr) (slot : Byte) (s : State), admitted 0x0806 s = .accept → (slotNow slot s).data.usage ≠ 2 →
    exec (.keyStatus h slot) s = .next (reply 0x0806 h
      [fld 16 1 (slotCode (slotNow slot s).st), fld 17 1 (slotNow slot s).data.usage, fld 18 1 (slotNow slot s).owner.toNat,
       fld 19 1 (slotNow slot s).data.clearCtx.toNat, (20, padTo 3 (slotNow slot s).data.kcv), fld 24 6 (slotNow slot s).spans] s)) ∧
  (∀ (h : Hdr) (tid : Byte) (t : Trib) (s : State), admitted 0x0807 s = .accept → zrNow s = false → tribAt tid s = some t →
    ∃ fs, exec (.ciphTribStatus h tid 0) s = .next (reply 0x0807 h fs s) ∧
      exec (.ciphTribStatus h tid 1) s = .next (reply 0x0807 h fs
        (modTrib tid (fun t => { t with verified := 0, failedSpans := 0, incomplete := 0, counterMiss := 0 }) s)) ∧
      fld 16 1 t.cipher ∈ fs ∧ fld 17 1 (refByte t.txCur) ∈ fs ∧ fld 18 1 (refByte t.txNext) ∈ fs ∧ fld 19 1 (refByte t.rxCur) ∈ fs ∧
      fld 20 1 (refByte t.rxNext) ∈ fs ∧ fld 24 8 t.txSpan ∈ fs ∧ fld 32 8 t.rxSpan ∈ fs ∧ fld 40 4 t.verified.toNat ∈ fs ∧
      fld 44 4 t.failedSpans.toNat ∈ fs ∧ fld 48 4 t.incomplete.toNat ∈ fs ∧ fld 52 4 t.counterMiss.toNat ∈ fs) ∧
  (∀ (h : Hdr) (s : State), admitted 0x0808 s = .accept → cipherBarred s = false →
    ∃ st bits, exec (.ciphSelftest h) s = .next (respond 0x0808 h st (result [fld 16 1 bits]) none (raiseMmVote (runSelftests s))) ∧
      (st = .ok ↔ (runSelftests s).ciph.lineOk = true ∧ (runSelftests s).ciph.mmOk = true) ∧ (st = .ok ∨ st = .integrity) ∧
      (runSelftests s).ciph.tests = s.ciph.tests + 1) ∧
  (∀ (h : Hdr) (tid b : Byte) (t : Trib) (s : State), admitted 0x0809 s = .accept → zrNow s = false → tribAt tid s = some t →
    (t.cipher ≠ 0 → 1 ≤ b.toNat → b.toNat ≤ 2 → ∃ u x, exec (.ciphTribMode h tid b) s = .next (done 0x0809 h u) ∧
      tribAt tid u = some x ∧ x.cipher = b.toNat ∧ (t.cipher ≠ b.toNat → x.buffer = [] ∧ x.replaced = true)) ∧
    (t.cipher = 0 → 1 ≤ b.toNat → b.toNat ≤ 2 → exec (.ciphTribMode h tid b) s = .next (refuse 0x0809 h .badState s)) ∧
    ((b.toNat < 1 ∨ 2 < b.toNat) → exec (.ciphTribMode h tid b) s = .next (refuse 0x0809 h .badArg s)))

/-- Memory mode: MM.RUN queues a whole job or a start on an idle context, and a continue or finish on one that has started; MM_JOB_DONE
completes a job when the rotation among the ready jobs of the highest priority ends it first, and a GCM decryption whose tag does not
match returns AUTH_FAIL and zeros its buffer (R275 to R277); MM.CTX_SAVE takes the next serial and leaves the context idle, its clear
form being refused where the key does not allow it (R278); MM.CTX_RESTORE gives a context back once, clear or wrapped, and answers the
first of its refusals that holds; MM.READ reads the output area and releases it when asked (R279, R281). -/
def Obligations.MemoryMode : Prop :=
  (∀ (h : Hdr) (alg dir mode ctx slot prio : Byte) (aadLen : Half) (iv tag : List Byte) (j : MmJob) (s : State),
    admitted 0x0820 s = .accept →
    s.ciph.mmOk = true → ctx.toNat ≤ 11 → ctx.toNat < s.mm.length → cipherBarred s = false → (ctxAt ctx.toNat s).damaged = false →
    (ctxAt ctx.toNat s).job = none → mmRunBad h alg dir mode prio aadLen (bufData h s) = false →
    (slotNow slot s).data.usage = 2 → usable (slotNow slot s) = true →
    j = ⟨h, mode.toNat, (bufData h s).take aadLen.toNat, (bufData h s).drop aadLen.toNat, padTo 16 tag,
      decide (s.q.acting = some true), (bufData h s).length⟩ →
    (mode.toNat ≤ 1 → (ctxAt ctx.toNat s).busy = false → (ctxAt ctx.toNat s).out = [] → (bufData h s).length ≤ 4096 →
      ∃ u, exec (.mmRun h alg dir mode ctx slot prio aadLen iv tag) s = .next u ∧ (ctxAt ctx.toNat u).busy = true ∧
        (ctxAt ctx.toNat u).alg = alg.toNat ∧ (ctxAt ctx.toNat u).dir = dir.toNat ∧ (ctxAt ctx.toNat u).slot = slot ∧
        (ctxAt ctx.toNat u).prio = prio.toNat ∧ (ctxAt ctx.toNat u).job = some j ∧ u.pwr.mmVote = true ∧ u.hif = s.hif ∧
        u.win = s.win) ∧
    (2 ≤ mode.toNat → (ctxAt ctx.toNat s).busy = true → (ctxAt ctx.toNat s).alg = alg.toNat →
      (ctxAt ctx.toNat s).dir = dir.toNat → (ctxAt ctx.toNat s).slot = slot →
      (ctxAt ctx.toNat s).out.length + (bufData h s).length ≤ 16777216 →
      exec (.mmRun h alg dir mode ctx slot prio aadLen iv tag) s =
        .next (raiseMmVote (setCtx ctx.toNat { ctxAt ctx.toNat s with prio := prio.toNat, job := some j } s)))) ∧
  (∀ (ctx : BitVec 4) (j : MmJob) (left : List (Nat × Nat)) (key : List Byte) (s s1 : State), (ctxAt ctx.toNat s).job = some j →
    s.pwr.powered.getLsbD 5 = true → s.dbg.frozen = false →
    mmRotate 128 s.ciph.mmTurn (mmReady s) = some (ctx.toNat, left) →
    s1 = { s with mm := s.mm.mapIdx (mmLeft left), ciph := { s.ciph with mmTurn := ctx.toNat } } →
    key = (slotNow (ctxAt ctx.toNat s).slot s).data.key →
    (s.ciph.mmOk = false → exec (.mmJobDone ctx) s = .next (raiseMmVote (answerLate j.late
      (fun t => refuse 0x0820 j.hdr .integrity (setCtx ctx.toNat (idleCtx (ctxAt ctx.toNat s)) t)) s1))) ∧
    (s.ciph.mmOk = true →
      ((ctxAt ctx.toNat s).alg = 0 → exec (.mmJobDone ctx) s =
        .next (raiseMmVote (answerLate j.late (gcmDone ctx.toNat key (ctxAt ctx.toNat s) j) s1))) ∧
      ((ctxAt ctx.toNat s).alg = 1 → exec (.mmJobDone ctx) s =
        .next (raiseMmVote (answerLate j.late (ctrDone ctx.toNat key (ctxAt ctx.toNat s) j) s1))) ∧
      ((ctxAt ctx.toNat s).alg = 2 → exec (.mmJobDone ctx) s =
        .next (raiseMmVote (answerLate j.late (ecbDone ctx.toNat key (ctxAt ctx.toNat s) j) s1))) ∧
      ((ctxAt ctx.toNat s).alg = 3 → exec (.mmJobDone ctx) s =
        .next (raiseMmVote (answerLate j.late (kwDone ctx.toNat key (ctxAt ctx.toNat s) j) s1))))) ∧
  (∀ (ctx : BitVec 4) (s : State), (∀ left, mmRotate 128 s.ciph.mmTurn (mmReady s) ≠ some (ctx.toNat, left)) →
    exec (.mmJobDone ctx) s = .next s) ∧
  (∀ (n : Nat) (key : List Byte) (c : MmCtx) (j : MmJob) (s : State), j.mode = 0 →
    (c.dir = 0 → gcmDone n key c j s = mmReply j.hdr (gcmPart key c j).2.2 (c.dataBytes + j.data.length) 0
      (some (ctrRun incr32 key (blocks j.data) c.ctr).1) (setCtx n (idleCtx c) s)) ∧
    (c.dir = 1 → (gcmPart key c j).2.2 = j.tag → gcmDone n key c j s = mmReply j.hdr [] (c.dataBytes + j.data.length) 0
      (some (ctrRun incr32 key (blocks j.data) c.ctr).1) (setCtx n (idleCtx c) s)) ∧
    (c.dir = 1 → (gcmPart key c j).2.2 ≠ j.tag → gcmDone n key c j s =
      refuse 0x0820 j.hdr .authFail (zeroBuffer j.hdr (setCtx n (idleCtx c) s)))) ∧
  (∀ (h : Hdr) (ctx : Byte) (s : State), admitted 0x0821 s = .accept → s.ciph.mmOk = true → ctx.toNat ≤ 11 → h.buf = true →
    ctx.toNat < s.mm.length → (ctxAt ctx.toNat s).damaged = false → (ctxAt ctx.toNat s).busy = true →
    (ctxAt ctx.toNat s).job = none →
    (∀ form : Byte, (form = 1 ∨ form = 0 ∧ ((ctxAt ctx.toNat s).alg = 1 ∨ (slotNow (ctxAt ctx.toNat s).slot s).data.clearCtx = true)) →
      ∃ u blob, exec (.mmCtxSave h ctx form) s = .next (respond 0x0821 h .ok
          (result [fld 16 4 ((ctxAt ctx.toNat s).serial + 1).toNat, fld 20 2 blob.length]) (some blob) u) ∧
        (ctxAt ctx.toNat u).busy = false ∧ (ctxAt ctx.toNat u).serial = (ctxAt ctx.toNat s).serial + 1 ∧
        (ctxAt ctx.toNat u).restored = false ∧ (ctxAt ctx.toNat u).out = (ctxAt ctx.toNat s).out) ∧
    ((ctxAt ctx.toNat s).alg ≠ 1 → (slotNow (ctxAt ctx.toNat s).slot s).data.clearCtx = false →
      exec (.mmCtxSave h ctx 0) s = .next (refuse 0x0821 h .refused s))) ∧
  (∀ (h : Hdr) (ctx : Byte) (s : State), admitted 0x0822 s = .accept → s.ciph.mmOk = true → ctx.toNat ≤ 11 → h.buf = true →
    cipherBarred s = false → ctx.toNat < s.mm.length → (ctxAt ctx.toNat s).damaged = false →
    (h.length = 104 → kwUnwrap s.ident.kek (bufData h s) = none →
      exec (.mmCtxRestore h ctx) s = .next (refuse 0x0822 h .authFail s)) ∧
    (∀ b, (h.length = 96 ∧ b = bufData h s ∨ h.length = 104 ∧ kwUnwrap s.ident.kek (bufData h s) = some b) →
      (∀ st, firstFail (restoreCheck ctx (decide (h.length = 104)) b s) = some st →
        exec (.mmCtxRestore h ctx) s = .next (refuse 0x0822 h st s)) ∧
      (firstFail (restoreCheck ctx (decide (h.length = 104)) b s) = none →
        ∃ u, exec (.mmCtxRestore h ctx) s = .next (reply 0x0822 h [fld 16 4 (fieldAt b 8 4)] u) ∧
          (ctxAt ctx.toNat u).busy = true ∧ (ctxAt ctx.toNat u).alg = (byteAt b 0).toNat ∧
          (ctxAt ctx.toNat u).ctr = slice b 12 16 ∧ u.pwr.mmVote = true ∧
          ((byteAt b 2).toNat < s.mm.length → (ctxAt (byteAt b 2).toNat u).restored = true)))) ∧
  (∀ (h : Hdr) (ctx : Byte) (offset : Dword) (s : State), admitted 0x0823 s = .accept → s.ciph.mmOk = true → ctx.toNat ≤ 11 →
    h.buf = true → (ctxAt ctx.toNat s).damaged = false → (ctxAt ctx.toNat s).readable = true →
    offset.toNat ≤ (ctxAt ctx.toNat s).out.length →
    exec (.mmRead h ctx 0 offset) s = .next (respond 0x0823 h .ok
      (result [fld 16 2 (((ctxAt ctx.toNat s).out.drop offset.toNat).take 4096).length])
      (some (((ctxAt ctx.toNat s).out.drop offset.toNat).take 4096)) (raiseMmVote s)) ∧
    exec (.mmRead h ctx 1 offset) s = .next (respond 0x0823 h .ok
      (result [fld 16 2 (((ctxAt ctx.toNat s).out.drop offset.toNat).take 4096).length])
      (some (((ctxAt ctx.toNat s).out.drop offset.toNat).take 4096))
      (raiseMmVote (setCtx ctx.toNat (idleCtx (ctxAt ctx.toNat s)) s))))

/-- Osier lane frames: a good frame keeps a locked lane locked, adds its corrections, and is held until every lane has one of the same
LFC; then the frames' positions count at the ports that own them. The third frame in a row without its marks, or the eighth with an
uncorrectable codeword, ends the link-up state, and phase 1 starts (R288, R292 to R295, R301). A damaged STEP_ACK changes nothing and a
damaged ADVERTISE counts for none; an ADVERTISE wakes L2, a STEP_ACK names the host's switch, both switches make the step, a TRAIN is
applied and answered, LINK_UP from both sides on deskewed lanes is the link-up state, LP_REQ and LP_ACK lead to L1 or L2, FAULT to phase
1, and a phase's limit to the next attempt (R296 to R303). A port whose client fails carries the replacement signal with CSF on the
line from then on, and its client again when no cause has held for 16 superframes, or in a loopback within the module at once (R245,
R302, R305). -/
def Obligations.HostLaneEvents : Prop :=
  (∀ (f : LaneFrame) (l : Lane) (s : State), linkRuns s = true → f.lane.toNat < s.hl.n → s.hl.lanes[f.lane.toNat]? = some l →
    s.hl.link = .up → l.locked = true →
    (markGood f = true → f.laneField = f.lane → f.cw0Bad = false → f.cw1Bad = false →
      exec (.laneFrameReceive f) s = .next (deskew (modLane f.lane.toNat
        (fun l => { l with held := (l.held ++ [laneHeld f]).drop (l.held.length - 11) })
        (refreshRdi (frameSent f.lane.toNat (modLane f.lane.toNat (laneTake f) s))))) ∧
      (laneTake f l).locked = true ∧ (laneTake f l).corrected = l.corrected + f.corrected ∧ (laneTake f l).lfc = some f.lfc) ∧
    (markGood f = false → 2 ≤ l.badRun → ∃ u, exec (.laneFrameReceive f) s = .next u ∧ u.hl.link = .detect ∧ u.hl.rdi = true) ∧
    (markGood f = true → f.laneField = f.lane → (f.cw0Bad = true ∨ f.cw1Bad = true) → 7 ≤ l.badCwRun →
      ∃ u, exec (.laneFrameReceive f) s = .next u ∧ u.hl.link = .detect ∧ u.hl.rdi = true)) ∧
  (∀ (x : LaneHeld) (xs : List LaneHeld) (s : State), (s.hl.lanes.take s.hl.n).map (fun l => l.held.head?) = (x :: xs).map some →
    (∀ y ∈ xs, y.lfc = x.lfc) → (deskew s).hl.ports = s.hl.ports.map fun p => if nearLoop p s then p else portTake (x :: xs) p) ∧
  (∀ (frames : List LaneHeld) (p : Port), p.unserved = false → (∀ y ∈ frames, y.cw0Bad = false ∧ y.cw1Bad = false) →
    (portTake frames p).blocksIn =
      p.blocksIn + BitVec.ofNat 32 ((frames.map fun f => (f.tags.filter fun g => decide (g = p.num)).length).sum) ∧
    (portTake frames p).errBlocks = p.errBlocks) ∧
  (∀ (lane : BitVec 4) (blk : List Byte) (s : State), linkRuns s = true → lane.toNat < s.hl.n →
    (s.hl.link = .detect → s.hl.since.toNat ≤ s.time.lts.sf.toNat →
      (controlGood 0x01 blk = false → exec (.osierAdvertise lane blk) s =
        .next (modLane lane.toNat (fun l => { l with adverts := 0 }) s)) ∧
      (controlGood 0x01 blk = true → (byteAt blk 6 = 2 ∨ byteAt blk 6 = 3) → exec (.osierAdvertise lane blk) s =
        .next (phaseCheck (modLane lane.toNat (fun l => { l with adverts := l.adverts + 1 })
          { s with hl := { s.hl with hostStep := (byteAt blk 6).toNat, hostCaps := byteAt blk 7 } })))) ∧
    (s.hl.link = .switch →
      (controlGood 0x03 blk = true → (byteAt blk 6).toNat = s.hl.target → exec (.osierStepAck lane blk) s =
        .next { s with hl := { s.hl with rxSwitch := some (byteAt blk 7) } }) ∧
      (controlGood 0x03 blk = false → exec (.osierStepAck lane blk) s = .next s)) ∧
    (s.hl.link = .train → controlGood 0x04 blk = true → ∃ want : Byte, exec (.osierTrain lane blk) s =
      .next (phaseCheck (drawMany 3 (sendControl 0x04 (BitVec.ofNat 16 (2 ^ lane.toNat))
        [want, ((modAt s.hl.lanes lane.toNat fun l => { tapRequest (byteAt blk 6) l with peerReady := bitOf (byteAt blk 8) 0 }).getD
              lane.toNat {}).answer,
         boolByte ((modAt s.hl.lanes lane.toNat fun l => { tapRequest (byteAt blk 6) l with peerReady := bitOf (byteAt blk 8) 0 }).getD
              lane.toNat {}).ready]
        (modLane lane.toNat (fun l => { tapRequest (byteAt blk 6) l with peerReady := bitOf (byteAt blk 8) 0 }) s))))) ∧
    (s.hl.link = .bond → controlGood 0x05 blk = true → (byteAt blk 6).toNat = s.hl.step → s.hl.upSent = true →
      (deskewed s = true → ∃ u, exec (.osierLinkUp lane blk) s = .next u ∧ u.hl.link = .up ∧ u.hl.upAt = s.time.lts.sf ∧
        u.hl.lastStep = s.hl.step) ∧
      (deskewed s = false → exec (.osierLinkUp lane blk) s = .next { s with hl := { s.hl with upSeen := true } })) ∧
    (s.hl.link = .up →
      (controlGood 0x06 blk = true → s.hl.lp = none → (byteAt blk 6 = 1 ∨ byteAt blk 6 = 2) → ∃ u,
        exec (.osierLpReq lane blk) s = .next u ∧ u.hl.link = (if byteAt blk 6 = 1 then .l1 else .l2)) ∧
      (∀ st lfc late h, controlGood 0x07 blk = true → s.hl.lp = some (st, lfc, late, some h) → (byteAt blk 6).toNat = st → ∃ u,
        exec (.osierLpAck lane blk) s = .next (answerLate late (reply 0x0905 h [fld 16 1 st]) u) ∧
        u.hl.link = (if st = 1 then .l1 else .l2) ∧ u.hl.lp = none) ∧
      (controlGood 0x09 blk = true → ∃ u, exec (.osierFault lane blk) s = .next u ∧ u.hl.link = .detect ∧ u.hl.lp = none ∧
        u.hl.fast = decide (s.hl.lastStep ≠ 0)))) ∧
  (∀ (lane : BitVec 4) (blk : List Byte) (s : State), s.hl.osier = true → zrNow s = false → hostPowered s = true →
    ticking s = true → lane.toNat < s.hl.n → s.hl.link = .l2 → controlGood 0x01 blk = true →
    ∃ u, exec (.osierAdvertise lane blk) s = .next u ∧ u.hl.link = .detect ∧ u.hl.fast = decide (s.hl.lastStep ≠ 0)) ∧
  (∀ (s : State), linkRuns s = true →
    (s.hl.link = .switch → s.hl.rxSwitch.isSome = true → s.hl.rxSwitched = false →
      exec (.osierStepSwitch true) s = .next { s with hl := { s.hl with txSwitched := true } }) ∧
    (s.hl.link = .switch → s.hl.rxSwitch.isSome = true → s.hl.rxSwitched = true →
      exec (.osierStepSwitch true) s = .next (phaseCheck { s with hl := { s.hl with
        txSwitched := true, step := s.hl.target, lfc := if 2 ≤ s.hl.target then 0 else s.hl.lfc } })) ∧
    (s.hl.link = .switch → s.hl.rxSwitch.isSome = true → s.hl.txSwitched = false →
      exec (.osierStepSwitch false) s = .next (mapLanes laneRestart { s with hl := { s.hl with rxSwitched := true } })) ∧
    (s.hl.link = .train → s.hl.fast = true → 80 ≤ sfSince s.hl.since s → ∃ u, exec .osierPhaseLimit s = .next u ∧
      u.hl.link = .detect ∧ u.hl.fast = false ∧ u.hl.fulls = s.hl.fulls + 1) ∧
    (s.hl.link = .train → s.hl.fast = false → s.hl.step = 3 → 160 ≤ sfSince s.hl.since s → s.hl.retried = false →
      ∃ u, exec .osierPhaseLimit s = .next u ∧ u.hl.link = .train ∧ u.hl.retried = true ∧ u.hl.since = s.time.lts.sf) ∧
    (s.hl.link = .train → s.hl.fast = false → s.hl.step = 3 → 160 ≤ sfSince s.hl.since s → s.hl.retried = true →
      ∃ u, exec .osierPhaseLimit s = .next u ∧ u.hl.link = .switch ∧ u.hl.target = 2 ∧ u.hl.failedTop = true) ∧
    (s.hl.link = .bond → (16 ≤ sfSince s.hl.since s → ∃ u, exec .osierPhaseLimit s = .next u ∧ u.hl.link = .detect) ∧
      (sfSince s.hl.since s < 16 → exec .osierPhaseLimit s = .next s))) ∧
  (∀ (s : State), s.hl.osier = true → zrNow s = false → hostPowered s = true → ticking s = true → s.hl.link = .l1 →
    ∃ u, exec .osierL1Exit s = .next u ∧ u.hl.link = .up ∧ u.hl.lfc = 0) ∧
  (∀ (port : Byte) (cause : IngressCause) (p : Port) (s : State), s.hl.ports.find? (fun p => decide (p.num = port.toNat)) = some p →
    ingressHolds p cause s = true → nearLoop p s = false → ticking s = true → p.failed = none →
    ∃ u, exec (.ingressFail port cause) s = .next u ∧ (∀ t ∈ u.tribs, t.port = port.toNat → t.txCsf = true) ∧
      (∀ q ∈ u.hl.ports, q.num = port.toNat → q.failed = some cause) ∧
      u.tribs.map (fun t => t.tid) = s.tribs.map (fun t => t.tid)) ∧
  (∀ (port : Byte) (cause : IngressCause) (p : Port) (s : State), s.hl.ports.find? (fun p => decide (p.num = port.toNat)) = some p →
    (ingressHolds p cause s = false ∨ nearLoop p s = true) → exec (.ingressFail port cause) s = .next s) ∧
  (∀ (port : Byte) (p : Port) (s : State), s.hl.ports.find? (fun p => decide (p.num = port.toNat)) = some p →
    ticking s = true → (nearLoop p s = true ∨ 16 ≤ sfSince p.condAt s ∧
      (standardsNow s = true ∨ (s.hl.link = .up ∧ p.unserved = false ∧ 16 ≤ sfSince s.hl.upAt s))) →
    ∃ u, exec (.ingressRecover port) s = .next u ∧ (∀ t ∈ u.tribs, t.port = port.toNat → t.txCsf = false) ∧
      (∀ q ∈ u.hl.ports, q.num = port.toNat → q.failed = none))

/-- The host lane commands: HL.CONFIG sets the link and, with a new N or mode and no tributary, brings the lanes up anew, and is refused
with one; HL.POWER asks for L1 or L2 only while no admitted port carries a tributary, and returns from both; HL.LOOPBACK and
HL.RETRAIN act at once, a loopback at the host needing the link-up state and a host that has it; the reports give the lanes' and ports'
counts (R285, R300, R303, R305, R306). -/
def Obligations.HostLaneCommands : Prop :=
  (∀ (h : Hdr) (n step group flags : Byte) (inPol outPol : Half) (s : State), admitted 0x0901 s = .accept → zrNow s = false →
    1 ≤ n.toNat → n.toNat ≤ 16 → 2 ≤ step.toNat → step.toNat ≤ 3 → (group.toNat ≤ 3 ∨ group = 0xFF) → flags &&& 0xFE = 0 →
    bringingUp s = false → s.hl.osier = true →
    (n.toNat = s.hl.n → exec (.hlConfig h 1 n step group flags inPol outPol) s = .next (done 0x0901 h { s with hl := { s.hl with
      n := n.toNat, maxStep := step.toNat, group := if group = 0xFF then none else some group.toNat, notify := bitOf flags 0,
      inPol := inPol, outPol := outPol } })) ∧
    (n.toNat ≠ s.hl.n → s.tribs ≠ [] →
      exec (.hlConfig h 1 n step group flags inPol outPol) s = .next (refuse 0x0901 h .refused s)) ∧
    (n.toNat ≠ s.hl.n → s.tribs = [] → hostPowered s = true → ∃ u,
      exec (.hlConfig h 1 n step group flags inPol outPol) s = .next (done 0x0901 h u) ∧ u.hl.n = n.toNat ∧ u.hl.link = .detect ∧
      u.hl.fast = false ∧ u.hl.fulls = s.hl.fulls + 1) ∧
    (s.tribs = [] → ∃ u, exec (.hlConfig h 0 n step group flags inPol outPol) s = .next (done 0x0901 h u) ∧ u.hl.osier = false ∧
      u.hl.link = .off)) ∧
  (∀ (h : Hdr) (s : State), admitted 0x0902 s = .accept → ∃ fs, exec (.hlStatus h) s = .next (reply 0x0902 h fs (nextDraw s)) ∧
    fld 16 1 s.hl.osier.toNat ∈ fs ∧ fld 17 1 s.hl.n ∈ fs ∧ fld 18 1 (linkCode s.hl.link) ∈ fs ∧ fld 19 1 s.hl.step ∈ fs ∧
    fld 36 4 s.hl.fulls.toNat ∈ fs ∧ fld 40 4 s.hl.fasts.toNat ∈ fs ∧ fld 48 6 s.hl.upAt.toNat ∈ fs) ∧
  (∀ (h : Hdr) (lane : Byte) (s : State), admitted 0x0903 s = .accept →
    (lane.toNat ≤ 15 → ∃ fs, exec (.hlLaneStatus h lane) s = .next (reply 0x0903 h fs s) ∧
      fld 24 8 (s.hl.lanes.getD lane.toNat {}).corrected ∈ fs ∧
      fld 32 4 (s.hl.lanes.getD lane.toNat {}).uncorrectable.toNat ∈ fs) ∧
    (15 < lane.toNat → exec (.hlLaneStatus h lane) s = .next (refuse 0x0903 h .badArg s))) ∧
  (∀ (h : Hdr) (port : Byte) (p : Port) (s : State), admitted 0x0904 s = .accept →
    s.hl.ports.find? (fun p => decide (p.num = port.toNat)) = some p → ∃ fs,
    exec (.hlPort h port 0) s = .next (reply 0x0904 h fs s) ∧
    exec (.hlPort h port 1) s = .next (reply 0x0904 h fs (modPort p.num (fun p => { p with
      blocksIn := 0, blocksOut := 0, errBlocks := 0, overruns := 0, discarded := 0 }) s)) ∧
    fld 20 4 p.blocksIn.toNat ∈ fs ∧ fld 24 4 p.blocksOut.toNat ∈ fs ∧ fld 28 4 p.errBlocks.toNat ∈ fs) ∧
  (∀ (h : Hdr) (s : State), admitted 0x0905 s = .accept → standardsNow s = false → s.pwr.failed.getLsbD 4 = false →
    bringingUp s = false → s.hl.lp = none →
    (s.hl.link = .up → trafficAdmitted s = true → exec (.hlPower h 1) s = .next (refuse 0x0905 h .refused s) ∧
      exec (.hlPower h 2) s = .next (refuse 0x0905 h .refused s)) ∧
    (∀ st : Byte, (st = 1 ∨ st = 2) → s.hl.link = .up → trafficAdmitted s = false → ∃ u, exec (.hlPower h st) s = .next u ∧
      u.hl.lp = some (st.toNat, s.hl.lfc + 1, decide (s.q.acting = some true), some h) ∧ u.hl.link = .up ∧ u.hif = s.hif) ∧
    (s.hl.link = .l1 → ∃ u, exec (.hlPower h 0) s = .next (reply 0x0905 h [fld 16 1 0] u) ∧ u.hl.link = .up ∧ u.hl.lfc = 0) ∧
    (s.hl.link = .l2 → exec (.hlPower h 0) s = .next (reply 0x0905 h [fld 16 1 0] (bringUp true 0 0 s)))) ∧
  (∀ (h : Hdr) (kind : Byte) (lanes : Half) (s : State), admitted 0x0906 s = .accept → bringingUp s = false →
    (kind.toNat ≤ 2 → (s.hl.osier = false ∨ lanes = 0) → s.hl.loopback ≠ 3 → exec (.hlLoopback h kind lanes) s =
      .next (done 0x0906 h { s with hl := { s.hl with loopback := kind.toNat, loopLanes := lanes } })) ∧
    (standardsNow s = false → s.hl.link = .up → bitOf s.hl.hostCaps 2 = true → ∃ u, exec (.hlLoopback h 3 0) s =
      .next (done 0x0906 h u) ∧ u.hl.loopback = 3 ∧ u.hl.link = .up) ∧
    ((standardsNow s = true ∨ s.hl.link ≠ .up) → exec (.hlLoopback h 3 0) s = .next (refuse 0x0906 h .badState s))) ∧
  (∀ (h : Hdr) (s : State), admitted 0x0907 s = .accept → standardsNow s = false → s.pwr.failed.getLsbD 4 = false →
    (∃ u, exec (.hlRetrain h 0) s = .next (done 0x0907 h u) ∧ u.hl.link = .detect ∧ u.hl.fast = decide (s.hl.lastStep ≠ 0)) ∧
    (∃ u, exec (.hlRetrain h 1) s = .next (done 0x0907 h u) ∧ u.hl.link = .detect ∧ u.hl.fast = false))

/-- Clock references: activity lost on the selected input freezes the control word until an evaluation (R312); a slew that has reached
its target ends, at an evaluation, in the state it goes to (R319); a pulse stamps its input, is marked when its form is bad, and gives
the anchors that wait for it (R310, R322, R323); an anchor with no pulse within 2 s times out (R323); a PPSOUT edge that is due counts,
and a first edge on an input, the sixteenth in a row beyond 1 μs, and one after a new anchor are reported (R324, R325). At an evaluation
an offset beyond TOL fails an input, and one soaked for 163,840 superframes qualifies (R310, R311, R318). -/
def Obligations.ReferenceEvents : Prop :=
  (∀ (input : Byte) (r : RefIn) (s : State), inputExists input.toNat = true → refIn input.toNat s = some r →
    (r.st = .disabled → exec (.refActivityLoss input) s = .next s) ∧
    (r.st ≠ .disabled → ∃ u, exec (.refActivityLoss input) s = .next u ∧
      (s.ref.sel = some input.toNat → u.ref.frozenWord = true) ∧
      (s.ref.sel ≠ some input.toNat → u.ref.frozenWord = s.ref.frozenWord) ∧
      (∀ x ∈ u.ref.inputs, x.num = input.toNat → x.inactive = true))) ∧
  (∀ (input : Byte) (s : State), inputExists input.toNat = false → exec (.refActivityLoss input) s = .fault .noSuchPart) ∧
  (∀ (s : State), s.ref.clk = .locking →
    (atEvaluation s = true → offNow s = s.ref.target → ∃ u, exec .clockSlewComplete s = .next u ∧ u.ref.clk = s.ref.toState ∧ u.ref.off = s.ref.target ∧
      u.ref.sel = s.ref.sel) ∧
    ((atEvaluation s = false ∨ offNow s ≠ s.ref.target) → exec .clockSlewComplete s = .next s)) ∧
  (∀ (off : BitVec 16) (width last : Nat) (t : Lts) (s : State), s.time.running = true →
    t = (if s.dbg.frozen then s.time.lts else Lts.ofNat (s.time.lts.toNat + off.toNat)) → s.ref.todWait = [] →
    (100 ≤ width → width ≤ 500000000 → 999000000 ≤ last →
      exec (.ppsEdge 2 off width last) s = .next { s with ref := { s.ref with stampA := t } } ∧
      exec (.ppsEdge 3 off width last) s = .next { s with ref := { s.ref with stampB := t } }) ∧
    ((width < 100 ∨ 500000000 < width ∨ last < 999000000) → ∃ u, exec (.ppsEdge 2 off width last) s = .next u ∧ u.ref.stampA = t ∧
      (∀ x ∈ u.ref.inputs, x.num = 2 → x.badForm = true))) ∧
  (∀ (input : Byte) (off : BitVec 16) (width last : Nat) (s : State), input ≠ 2 → input ≠ 3 →
    exec (.ppsEdge input off width last) s = .fault .noSuchPart) ∧
  (∀ (off : BitVec 16) (width last : Nat) (h : Hdr) (secs : Sf) (ns from_ : Nat) (late : Bool) (t : Lts) (s : State),
    s.time.running = true → t = (if s.dbg.frozen then s.time.lts else Lts.ofNat (s.time.lts.toNat + off.toNat)) →
    s.ref.todWait = [(h, 2, secs, ns, from_, late)] → wardenPassed from_ 2 s = false →
    ∃ u, exec (.ppsEdge 2 off width last) s = .next u ∧ u.ref.anchor = some ⟨secs, ns, t⟩ ∧ u.ref.proj = some ⟨secs, ns, t⟩ ∧
      u.ref.todWait = [] ∧ u.ref.stampA = t) ∧
  (∀ (h : Hdr) (n : Nat) (secs : Sf) (ns from_ : Nat) (late : Bool) (s : State),
    s.ref.todWait = [(h, n, secs, ns, from_, late)] →
    (wardenPassed from_ 2 s = true → exec .todAnchorTimeout s =
      .next (refuse 0x0A07 h .timeout { s with ref := { s.ref with todWait := [] } })) ∧
    (wardenPassed from_ 2 s = false → exec .todAnchorTimeout s = .next s)) ∧
  (∀ (e : Int) (s s1 : State), s1 = { s with ref := { s.ref with ppsEdges := s.ref.ppsEdges + 1, ppsSec := ppsSecond s } } →
    (ppsDue s = false → exec (.ppsoutEdge e) s = .next s) ∧
    (ppsDue s = true → s.ref.ppsMode = 1 → s.ref.ppsAnchor = false → exec (.ppsoutEdge e) s =
      .next { s1 with ref := { s1.ref with ppsFirst := false } }) ∧
    (ppsDue s = true → s.ref.ppsMode = 1 → s.ref.ppsAnchor = true → exec (.ppsoutEdge e) s =
      .next (ppsStep 2 e { s1 with ref := { s1.ref with ppsAnchor := false, ppsFirst := false } })) ∧
    (ppsDue s = true → s.ref.ppsMode = 2 → qualified s.ref.ppsInput s = true → s.ref.ppsFirst = true → exec (.ppsoutEdge e) s =
      .next (ppsStep 0 e { s1 with ref := { s1.ref with ppsFirst := false, ppsErrRun := 0 } })) ∧
    (ppsDue s = true → s.ref.ppsMode = 2 → qualified s.ref.ppsInput s = true → s.ref.ppsFirst = false →
      (1000 < e.natAbs → s.ref.ppsErrRun = 15 → exec (.ppsoutEdge e) s =
        .next (ppsStep 1 e { s1 with ref := { s1.ref with ppsErrRun := 0 } })) ∧
      (e.natAbs ≤ 1000 → exec (.ppsoutEdge e) s = .next { s1 with ref := { s1.ref with ppsErrRun := 0 } })) ∧
    (ppsDue s = true → s.ref.ppsMode = 2 → qualified s.ref.ppsInput s = false → exec (.ppsoutEdge e) s = .next s1)) ∧
  (∀ (ms : List RefMeas) (k : Nat) (r : RefIn) (m : RefMeas) (s : State), refIn k s = some r → measOf k ms = some m → r.num = k →
    r.st = .qualified → sourcePresent k s = true → r.inactive = false → r.badForm = false → m.condition ≠ 1 → m.condition ≠ 6 →
    r.tol * 100000 < m.offset.natAbs → ∃ x, refIn k (failStep ms s k) = some x ∧ x.st = .failed ∧ x.cause = 2 ∧
      x.failures = r.failures + 1) ∧
  (∀ (k : Nat) (r : RefIn) (a : Sf) (s : State), refIn k s = some r → r.st = .soaking → r.soakFrom = some a → r.dref = false →
    (163840 ≤ sfSince a s → ∃ x, refIn k (soakStep s k) = some x ∧ x.st = .qualified) ∧
    (sfSince a s < 163840 → soakStep s k = s))

/-- The reference commands: REF.INPUT_CONFIG sets an input, which priority 0xFF disables and any other starts SOAKING when it was
disabled; REF.SELECT sets the mode for the next evaluation; REF.OUTPUT_CONFIG sets an output, which is low for 1 μs of the
resonator first; REF.PPS_CONFIG sets PPSOUT; REF.TOD_SET sets the anchor, or waits for an edge; the reports give what stands (R311,
R315, R323 to R328; that the 1 μs is exact is the model's reading, log entry 25). -/
def Obligations.ReferenceCommands : Prop :=
  (∀ (h : Hdr) (input prio freq : Byte) (tol drift off : Half) (s : State), admitted 0x0A01 s = .accept →
    inputExists input.toNat = true → (prio.toNat ≤ 7 ∨ prio = 0xFF) → freq.toNat ≤ 4 → tol.toNat ≤ 200 →
    (drift = 0 ∨ (5 ≤ drift.toNat ∧ drift.toNat ≤ 5000)) → off.toNat ≤ 460 → ∃ u fs,
    exec (.refInputConfig h input prio freq tol drift off) s = .next (reply 0x0A01 h fs u) ∧
    (∀ x ∈ u.ref.inputs, x.num = input.toNat → x.prio = prio.toNat ∧ x.tol = (if tol = 0 then 46 else tol.toNat) ∧
      x.driftLim = (if drift = 0 then 100 else drift.toNat) ∧ x.offLim = (if off = 0 then 50 else off.toNat) ∧
      (prio = 0xFF → x.st = .disabled ∧ x.dref = false) ∧ (prio ≠ 0xFF → x.st ≠ .disabled)) ∧
    u = { s with ref := { s.ref with inputs := u.ref.inputs } }) ∧
  (∀ (h : Hdr) (mode input flags : Byte) (s : State), admitted 0x0A02 s = .accept → mode.toNat ≤ 3 → flags &&& 0xFE = 0 →
    (mode = 2 → memOk s = true) → (mode = 1 → ∃ r, refIn input.toNat s = some r ∧ r.st ≠ .disabled) →
    exec (.refSelect h mode input flags) s = .next (reply 0x0A02 h [fld 16 1 (clkCode s.ref.clk), fld 17 1 (selByte s)]
      { s with ref := { s.ref with mode := mode.toNat, manual := if mode = 1 then input.toNat else s.ref.manual,
                                   revertive := bitOf flags 0, hostSel := true } })) ∧
  (∀ (h : Hdr) (s : State), admitted 0x0A03 s = .accept → ∃ fs, exec (.refStatus h) s = .next (reply 0x0A03 h fs s) ∧
    fld 16 1 (clkCode s.ref.clk) ∈ fs ∧ fld 17 1 (selByte s) ∈ fs ∧ fld 18 1 s.ref.mode ∈ fs ∧ fldI 32 4 s.ref.mem ∈ fs ∧
    fldI 36 4 (offNow s) ∈ fs ∧ fld 44 6 s.ref.lastSwitch.toNat ∈ fs) ∧
  (∀ (h : Hdr) (input : Byte) (s : State), admitted 0x0A04 s = .accept →
    (∀ r, inputExists input.toNat = true → refIn input.toNat s = some r → ∃ fs,
      exec (.refInputStatus h input) s = .next (reply 0x0A04 h fs s) ∧ fld 16 1 (refCode r.st) ∈ fs ∧ fld 17 1 r.prio ∈ fs ∧
      fld 18 1 r.cause ∈ fs ∧ fldI 20 4 r.offset ∈ fs ∧ fldI 28 4 r.drift ∈ fs ∧ fld 36 4 r.failures.toNat ∈ fs) ∧
    (inputExists input.toNat = false → exec (.refInputStatus h input) s = .next (refuse 0x0A04 h .badArg s))) ∧
  (∀ (h : Hdr) (output source lane freq flags : Byte) (s : State), admitted 0x0A05 s = .accept → output.toNat ≤ 1 →
    source.toNat ≤ 3 → freq.toNat ≤ 4 → (source = 3 → lane.toNat ≤ 15) → flags &&& 0xFE = 0 →
    exec (.refOutputConfig h output source lane freq flags) s = .next (done 0x0A05 h { s with ref :=
      if output = 0 then { s.ref with out0 := ⟨source.toNat, lane.toNat, freq.toNat, bitOf flags 0, s.time.resNs + 1000⟩ }
      else { s.ref with out1 := ⟨source.toNat, lane.toNat, freq.toNat, bitOf flags 0, s.time.resNs + 1000⟩ } })) ∧
  (∀ (o : ClkOut) (s : State), s.time.resNs < o.lowTo → clkOutLow o s = true) ∧
  (∀ (h : Hdr) (mode input : Byte) (offset width : Word) (s : State), admitted 0x0A06 s = .accept → mode.toNat ≤ 2 →
    (mode = 2 → input = 2 ∨ input = 3) → (s32 offset).natAbs ≤ 500000000 → 1 ≤ width.toNat → width.toNat ≤ 500000 →
    exec (.refPpsConfig h mode input offset width) s = .next (done 0x0A06 h { s with ref := { s.ref with
      ppsMode := mode.toNat, ppsInput := input.toNat, ppsOffset := s32 offset, ppsWidthUs := width.toNat, ppsFirst := true,
      ppsErrRun := 0, ppsAnchor := false, ppsSec := (todAt s.time.lts s - s32 offset) / 1000000000 } })) ∧
  (∀ (h : Hdr) (secs : Sf) (ns : Word) (anchor : Byte) (sf : Sf) (sym : Sym) (s : State), admitted 0x0A07 s = .accept →
    ns.toNat < 1000000000 →
    (anchor = 0 → ∃ u, exec (.refTodSet h secs ns anchor sf sym) s =
        .next (reply 0x0A07 h [fld 16 6 sf.toNat, fld 22 3 sym.toNat] u) ∧ u.ref.anchor = some ⟨secs, ns.toNat, ⟨sf, sym⟩⟩ ∧
      u.ref.proj = some ⟨secs, ns.toNat, ⟨sf, sym⟩⟩ ∧ u.hs.senseNew = true) ∧
    (anchor = 2 ∨ anchor = 3 → exec (.refTodSet h secs ns anchor sf sym) s = .next { s with ref := { s.ref with
      todWait := s.ref.todWait ++ [(h, anchor.toNat, secs, ns.toNat, s.time.wardenNs, decide (s.q.acting = some true))] } }) ∧
    (anchor ≠ 0 → anchor ≠ 2 → anchor ≠ 3 → exec (.refTodSet h secs ns anchor sf sym) s = .next (refuse 0x0A07 h .badArg s))) ∧
  (∀ (h : Hdr) (s : State), admitted 0x0A08 s = .accept → ∃ fs, exec (.refTodGet h) s = .next (reply 0x0A08 h fs s) ∧
    fld 40 6 s.ref.stampA.sf.toNat ∈ fs ∧ fld 50 6 s.ref.stampB.sf.toNat ∈ fs ∧ fld 60 4 (secondsOfDay s) ∈ fs ∧
    (∀ a, s.ref.anchor = some a → fld 16 6 a.secs.toNat ∈ fs ∧ fld 24 4 a.ns ∈ fs))

/-- A sensing input, one in a symbol frame, joins the record in progress and the chain's span, and the M-th in a row beyond a threshold
fires its trigger once (R173, R341, R346); an output of the chain goes to the ring as 16 bytes, one for each multiple of 1/f_out, and
one that comes while sensing is stopped is a gap (R343, R345); at a millisecond the record of 128 bytes is written while recording is
on, and SEQ advances by the milliseconds that have passed always (R340 to R342); a capture that is full is copied and is COMPLETE
(R347, R348). -/
def Obligations.HistoryEvents : Prop :=
  (∀ (i : SenseIn) (rx : RxAt) (s s1 : State),
    s1 = trainWord i rx { s with eq := { s.eq with lastWord := some (frameStart rx s) } } →
    ((ticking s = false ∨ s.eq.lastWord = some (frameStart rx s)) → exec (.senseInput i rx) s = .next s) ∧
    (ticking s = true → s.eq.lastWord ≠ some (frameStart rx s) → storeActive s = true → s.eq.rawLosf = false →
      exec (.senseInput i rx) s = .next (senseTake i (wordUsable rx s && decide (s.eq.st = 8)) (rxStamp rx s) s1)) ∧
    (ticking s = true → s.eq.lastWord ≠ some (frameStart rx s) → (storeActive s = false ∨ s.eq.rawLosf = true) →
      exec (.senseInput i rx) s = .next { s1 with hs := { s1.hs with lastGood := 0, sops := [] } })) ∧
  (∀ (i : SenseIn) (valid : Bool) (t : Lts) (p : Int × Int × Int) (s : State), s.hs.trigRate = false → s.hs.trigExc = false →
    p = (if valid then (i.s1, i.s2, i.s3) else s.hs.sops.headD (i.s1, i.s2, i.s3)) →
    ∃ peak, senseTake i valid t s = { s with hs := { s.hs with
      acc := accInput i valid (krad (turned p s.hs) s.time.rate) t s.hs.acc, lastGood := if valid then s.hs.lastGood + 1 else 0,
      sops := (p :: s.hs.sops).take 16, rotPeak := peak } }) ∧
  (∀ (t : Lts) (s : State), s.hs.rateFired = false →
    (s.hs.trigM ≤ s.hs.rateRun + 1 → (trigStep false true true t s).hs.rateFired = true ∧
      (trigStep false true true t s).hs.senseTrig = true) ∧
    (s.hs.rateRun + 1 < s.hs.trigM → (trigStep false true true t s).hs.rateFired = false ∧
      (trigStep false true true t s).hs.rateRun = s.hs.rateRun + 1) ∧
    (s.hs.rateRun + 1 < s.hs.trigM → (trigStep false true false t s).hs.rateFired = false) ∧
    (0 < s.hs.trigM → (trigStep false false true t s).hs.rateRun = 0)) ∧
  (∀ (s1 s2 s3 pr : Int) (dgd : Nat) (s : State),
    (sensing s = true → senseIdxNow s ≠ s.hs.senseIdx → ∃ u fl, exec (.senseSampleWrite s1 s2 s3 pr dgd) s = .next u ∧
      u.hs.sampleN = s.hs.sampleN + 1 ∧ u.hs.senseGap = false ∧ u.hs.senseTrig = false ∧ u.hs.senseIdx = senseIdxNow s ∧
      u.hs.mem = (storeWrite (sampleAddr s.hs.sampleN) (sampleBytes s.hs.sampleN s1 s2 s3 pr dgd fl) s).hs.mem ∧
      fl = boolBit (decide (senseSpan s.hs.stages ≤ s.hs.lastGood) && decide (s.hs.senseInvalid = 0) && decide (s.eq.st = 8)) 0
        + boolBit s.hs.senseTrig 1 + boolBit s.hs.senseGap 2) ∧
    (sensing s = true → senseIdxNow s = s.hs.senseIdx → exec (.senseSampleWrite s1 s2 s3 pr dgd) s = .next s) ∧
    (sensing s = false → ticking s = true → exec (.senseSampleWrite s1 s2 s3 pr dgd) s =
      .next { s with hs := { s.hs with senseGap := true, senseNew := true } })) ∧
  (∀ (s : State),
    (recording s = true → msPassed s ≠ 0 → ∃ u, exec .historyRecordClose s = .next u ∧ u.hs.seq = s.hs.seq + msPassed s ∧
      u.hs.gap = decide (1 < msPassed s) ∧
      u.hs.mem = (storeWrite (recordAddr s.hs.seq) (recordBytes s) s).hs.mem ∧ u.hs.acc = freshAcc s) ∧
    (recording s = false → ticking s = true → msPassed s ≠ 0 → exec .historyRecordClose s =
      .next { s with hs := { s.hs with seq := s.hs.seq + msPassed s, gap := true, acc := freshAcc s } }) ∧
    (msPassed s = 0 → exec .historyRecordClose s = .next s) ∧
    ((recordBytes s).length = 128 ∧ (recordBytes s).take 8 = leBytes 8 s.hs.seq ∧
      (recordBytes s).drop 124 = leBytes 4 (check0 ((recordBytes s).take 124)))) ∧
  (∀ (codes : List Byte) (s : State), ticking s = true → s.hs.capSt = 1 →
    (capFull s = true → exec (.captureFillDone codes) s = .next { s with hs := { s.hs with
      capSt := 2, capBuf := padTo 4194304 codes, slots := s.hs.slots.set s.hs.capSlot 2 } }) ∧
    (capFull s = false → exec (.captureFillDone codes) s = .next s)) ∧
  (∀ (s : State), ticking s = true → s.hs.capSt = 2 → ∃ u, exec .captureCopyDone s = .next u ∧ u.hs.capSt = 0 ∧ u.hs.capBuf = [] ∧
    u.hs.slots = s.hs.slots.set s.hs.capSlot 3 ∧ u.hs.capOrder = s.hs.capOrder ++ [s.hs.capSlot] ∧
    u.hs.mem = (storeWrite (4096 * slotPage s.hs.capSlot) s.hs.capBuf s).hs.mem)

/-- The store: an entry of the merge buffer goes to the store when it times out, a partial one after a read of the old word, whose
failure drops it and poisons the page (R334); a read counts a correction or a repair and poisons a page beyond repair, and an address
outside the store is a fault (R330, R333, R339); the cruiser checks the next page that holds data, repairs or poisons it, skips one that
does not hold any, and takes rank 3 when its window runs short (R336, R337); an initialised region holds no valid word (R332). -/
def Obligations.StoreEvents : Prop :=
  (∀ (w : Nat) (d : WordDecode) (p : Bool) (s : State), 2147483648 ≤ w → exec (.mergeBufferTimeout w d p) s = .fault .storeAddress ∧
    exec (.storeRead w d p) s = .fault .storeAddress) ∧
  (∀ (w : Nat) (m : Merge) (s : State), w < 2147483648 → s.hs.merge.find? (fun m => decide (m.word = w)) = some m → s.dbg.frozen = false →
    (∀ p, exec (.mergeBufferTimeout w .clean p) s = .next (mergeFlush m s)) ∧
    ((m.bytes.all fun b => b.isSome) = true → ∀ d p, exec (.mergeBufferTimeout w d p) s = .next (mergeFlush m s)) ∧
    ((m.bytes.any fun b => b.isNone) = true → wordValid w s = true → pagePoisoned (pageOf w) s = false →
      exec (.mergeBufferTimeout w .uncorrectable false) s = .next (poisonPage (pageOf w) 2
        { s with hs := { s.hs with merge := s.hs.merge.filter fun x => decide (x.word ≠ w) } })) ∧
    (∀ x ∈ (mergeFlush m s).hs.merge, x.word ≠ w) ∧
    (pagePoisoned (pageOf w) s = false → wordValid w (mergeFlush m s) = true)) ∧
  (∀ (w : Nat) (d : WordDecode) (p : Bool) (s : State), w < 2147483648 → s.hs.merge.find? (fun m => decide (m.word = w)) = none →
    exec (.mergeBufferTimeout w d p) s = .next s) ∧
  (∀ (w : Nat) (s : State), w < 2147483648 → s.hs.merge.find? (fun m => decide (m.word = w)) = none → s.pwr.powered.getLsbD 6 = true →
    exec (.storeRead w .clean true) s = .next s ∧
    (wordValid w s = true → pagePoisoned (pageOf w) s = false →
      exec (.storeRead w .corrected true) s = .next { s with hs := { s.hs with
        lap := { s.hs.lap with corrections := s.hs.lap.corrections + 1 } } } ∧
      exec (.storeRead w .uncorrectable true) s = .next { s with hs := { s.hs with
        lap := { s.hs.lap with repairs := s.hs.lap.repairs + 1 } } } ∧
      exec (.storeRead w .uncorrectable false) s = .next (poisonPage (pageOf w) 1 s)) ∧
    (wordValid w s = false → exec (.storeRead w .uncorrectable false) s = .next s)) ∧
  (∀ (c : Nat) (s : State), cruiserPaused s = false → sfSince s.hs.winFrom s < 1024 → s.hs.cruisePage + 1 < 4194304 →
    (pageHeld s.hs.cruisePage s = true → exec (.cruiserPageCheck c true true) s = .next { s with hs := { s.hs with
      lap := { s.hs.lap with checked := s.hs.lap.checked + 1, corrections := s.hs.lap.corrections + c },
      winChecked := s.hs.winChecked + 1, cruisePage := s.hs.cruisePage + 1 } }) ∧
    (pageHeld s.hs.cruisePage s = true → exec (.cruiserPageCheck c false true) s = .next { s with hs := { s.hs with
      lap := { s.hs.lap with checked := s.hs.lap.checked + 1, corrections := s.hs.lap.corrections + c,
                             repairs := s.hs.lap.repairs + 1 },
      winChecked := s.hs.winChecked + 1, cruisePage := s.hs.cruisePage + 1 } }) ∧
    (pageHeld s.hs.cruisePage s = true → ∀ t, t = poisonPage s.hs.cruisePage 0 { s with hs := { s.hs with
        lap := { s.hs.lap with checked := s.hs.lap.checked + 1, corrections := s.hs.lap.corrections + c },
        winChecked := s.hs.winChecked + 1 } } →
      exec (.cruiserPageCheck c false false) s = .next { t with hs := { t.hs with cruisePage := s.hs.cruisePage + 1 } }) ∧
    (pageHeld s.hs.cruisePage s = false → exec (.cruiserPageCheck c true true) s = .next { s with hs := { s.hs with
      lap := { s.hs.lap with skipped := s.hs.lap.skipped + 1 }, cruisePage := s.hs.cruisePage + 1 } })) ∧
  (∀ (s : State), cruiserPaused s = false → sfSince s.hs.winFrom s < 1024 → s.hs.boosted = false →
    (896 ≤ sfSince s.hs.winFrom s → s.hs.winChecked < s.hs.minRate → exec .cruiserBoost s = .next { s with hs := { s.hs with
      boosted := true, lap := { s.hs.lap with boosts := s.hs.lap.boosts + 1 } } }) ∧
    ((sfSince s.hs.winFrom s < 896 ∨ s.hs.minRate ≤ s.hs.winChecked) → exec .cruiserBoost s = .next s)) ∧
  (∀ (s : State), s.pwr.powered.getLsbD 6 = true → ∃ u, exec .regionInitDone s = .next u ∧ u.hs.initing = [] ∧
    (∀ r ∈ s.hs.initing, ∀ w ∈ u.hs.valid, ¬ (regionFirst r.1 ≤ pageOf w ∧ pageOf w < regionFirst (r.1 + 1))))

/-- The store's commands: recording and sensing are turned on and off above no coppicing level only; the triggers and the cruiser take
their settings; a capture starts in the lowest EMPTY slot, answers BUSY and counts when one runs, and NO_RESOURCE with no slot to take;
the reads give what the region holds, from the oldest record or sample kept on; an initialisation waits to be done, and is BUSY while a
capture runs (R340 to R350). -/
def Obligations.HistoryCommands : Prop :=
  (∀ (h : Hdr) (start : Byte) (s : State), admitted 0x0B01 s = .accept → start.toNat ≤ 1 →
    (s.aon.coppice = 0 → exec (.hsHistory h start) s = .next (reply 0x0B01 h [fld 16 8 s.hs.seq]
      { s with hs := { s.hs with wanted := decide (start = 1) } })) ∧
    (0 < s.aon.coppice → exec (.hsHistory h start) s = .next (refuse 0x0B01 h .badState s))) ∧
  (∀ (h : Hdr) (first : Dword) (count : Byte) (s : State), admitted 0x0B02 s = .accept → 1 ≤ count.toNat → count.toNat ≤ 32 →
    h.buf = true → first.toNat < s.hs.seq → ∃ a n missing,
    exec (.hsHistoryRead h first count) s = .next (respond 0x0B02 h .ok
      (result [fld 16 8 a, fld 24 1 n, fld 25 1 (decide (first.toNat < oldestSeq s)).toNat, fld 28 4 missing])
      (some ((List.range n).flatMap fun i => recordAt (a + i) s)) s) ∧
    a = max first.toNat (oldestSeq s) ∧ n = min count.toNat (s.hs.seq - a)) ∧
  (∀ (h : Hdr) (rate : Byte) (s : State), admitted 0x0B03 s = .accept → rate.toNat ≤ 5 → s.aon.coppice = 0 → ∃ u fs,
    exec (.hsSenseConfig h rate) s = .next (reply 0x0B03 h fs u) ∧ u.hs.rate = rate.toNat ∧
    (rate.toNat = s.hs.rate → u = s) ∧ (rate.toNat ≠ s.hs.rate → u.hs.senseGap = true)) ∧
  (∀ (h : Hdr) (first : Dword) (count : Half) (s : State), admitted 0x0B04 s = .accept → h.buf = true →
    (1 ≤ count.toNat → count.toNat ≤ 256 → first.toNat < s.hs.sampleN → ∃ fs a n,
      exec (.hsSenseRead h first count) s = .next (respond 0x0B04 h .ok (result fs) (some ((List.range n).flatMap fun i =>
        wordBytes (sampleAddr (a + i) / 8) s ++ wordBytes (sampleAddr (a + i) / 8 + 1) s)) s) ∧
      a = max first.toNat (max s.hs.firstSample (s.hs.sampleN - 67108864)) ∧ n = min count.toNat (s.hs.sampleN - a) ∧
      fld 16 8 a ∈ fs ∧ fld 24 2 n ∈ fs) ∧
    (s.hs.sampleN ≤ first.toNat → exec (.hsSenseRead h first count) s = .next (refuse 0x0B04 h .badArg s))) ∧
  (∀ (h : Hdr) (enables m action : Byte) (rateThr : Word) (excThr : Half) (s : State), admitted 0x0B05 s = .accept →
    enables &&& 0xFC = 0 → action.toNat ≤ 2 → (rateThr = 0 ∨ (50 ≤ rateThr.toNat ∧ rateThr.toNat ≤ 20000)) →
    (excThr = 0 ∨ (50 ≤ excThr.toNat ∧ excThr.toNat ≤ 3141)) →
    exec (.hsTriggerConfig h enables m action rateThr excThr) s = .next (done 0x0B05 h { s with hs := { s.hs with
      trigRate := enables.getLsbD 0, trigExc := enables.getLsbD 1, trigM := if m = 0 then 8 else m.toNat,
      trigAction := action.toNat, rateThr := if rateThr = 0 then 500 else rateThr.toNat,
      excThr := if excThr = 0 then 500 else excThr.toNat, rateRun := 0, excRun := 0, rateFired := false,
      excFired := false, capArmed := decide (action ≠ 0) } })) ∧
  (∀ (h : Hdr) (s : State), admitted 0x0B06 s = .accept →
    exec (.hsCaptureCmd h 1 0) s = .next (reply 0x0B06 h [fld 16 1 0xFF, fld 17 1 0]
      { s with hs := { s.hs with capArmed := false, overwrite := false } }) ∧
    (s.line.cur.isSome = true → s.hs.capSt ≠ 0 → exec (.hsCaptureCmd h 0 0) s =
      .next (refuse 0x0B06 h .busy { s with hs := { s.hs with missed := s.hs.missed + 1 } })) ∧
    (s.line.cur.isSome = true → s.hs.capSt = 0 → s.aon.coppice = 0 → ∀ k, k < 256 → s.hs.slots.getD k 0 = 0 →
      (∀ j, j < k → s.hs.slots.getD j 0 ≠ 0) → ∃ u, exec (.hsCaptureCmd h 0 0) s =
        .next (reply 0x0B06 h [fld 16 1 k, fld 17 1 1] u) ∧ u.hs.capSt = 1 ∧ u.hs.capSlot = k ∧ u.hs.capAt = s.time.lts ∧
        u.hs.slots = s.hs.slots.set k 1) ∧
    (s.line.cur.isSome = true → s.hs.capSt = 0 → (∀ k, k < 256 → s.hs.slots.getD k 0 ≠ 0) → exec (.hsCaptureCmd h 0 0) s =
      .next (refuse 0x0B06 h .noResource s))) ∧
  (∀ (h : Hdr) (slot : Byte) (s : State), admitted 0x0B07 s = .accept → h.buf = true →
    (3 ≤ s.hs.slots.getD slot.toNat 0 → ∃ out, exec (.hsCaptureRead h slot 0 0) s = .next (respond 0x0B07 h .ok
      (result [fld 16 1 (s.hs.slots.getD slot.toNat 0), fld 17 1 (pagePoisoned (slotPage slot.toNat) s).toNat, fld 18 2 4096])
      (some out) s)) ∧
    (s.hs.slots.getD slot.toNat 0 ≤ 2 → exec (.hsCaptureRead h slot 0 0) s = .next (refuse 0x0B07 h .badState s))) ∧
  (∀ (h : Hdr) (rate : Half) (flags : Byte) (s : State), admitted 0x0B08 s = .accept →
    (rate = 0 ∨ (16 ≤ rate.toNat ∧ rate.toNat ≤ 4096)) → flags &&& 0xFE = 0 →
    exec (.hsCruiser h rate flags) s = .next (done 0x0B08 h { s with hs := { s.hs with
      minRate := if rate = 0 then 128 else rate.toNat, notifyLap := flags.getLsbD 0 } })) ∧
  (∀ (h : Hdr) (s : State), admitted 0x0B09 s = .accept → ∃ fs, exec (.hsStoreStatus h) s = .next (reply 0x0B09 h fs s) ∧
    fld 16 4 s.hs.lastLap.num ∈ fs ∧ fld 32 4 s.hs.lastLap.checked ∈ fs ∧ fld 44 4 s.hs.lastLap.poisoned ∈ fs ∧
    fld 56 2 s.hs.poison.length ∈ fs ∧ fld 60 4 s.hs.missed.toNat ∈ fs) ∧
  (∀ (h : Hdr) (region : Byte) (s : State), admitted 0x0B0A s = .accept → region.toNat ≤ 1 →
    (s.hs.capSt = 0 → exec (.hsRegionInit h region) s = .next { s with hs := { s.hs with
      initing := s.hs.initing ++ [(region.toNat, some (h, decide (s.q.acting = some true)))] } }) ∧
    (s.hs.capSt ≠ 0 → exec (.hsRegionInit h region) s = .next (refuse 0x0B0A h .busy s)))

/-- Calibration: a slot opens at a superframe whose count is a multiple of 1,024 below C2, once, and a swap that still waits from the slot
before is skipped; a swap takes place at a superframe start in the slot's first half and puts the target into CALIB, is deferred by a
capture, by the acquisition, by a gain step's marks and, in the transmitter, outside LIT, or is skipped; after 256 superframes the slice
is SPARE again with its corrections, RETIRED after the third bad result in a row; an item older than its limit is stale (R28, R135,
R136, R186, R377 to R381); the resonator's calibration moves towards the day's mean offset by at most 0.1 ppm (R377). -/
def Obligations.CalibrationEvents : Prop :=
  (∀ (s : State), ticking s = true → taskHeld .calibration s = false → inRun s = true → s.pwr.shed < 2 →
    s.time.lts.sf.toNat % 1024 = 0 →
    (s.cal.lastSlot ≠ s.time.lts.sf → exec .calSlotOpen s =
      .next (nextSlot .dac (nextSlot .adc { s with cal := { s.cal with lastSlot := s.time.lts.sf } }))) ∧
    (s.cal.lastSlot = s.time.lts.sf → exec .calSlotOpen s = .next s)) ∧
  (∀ (s : State), (2 ≤ s.pwr.shed ∨ s.time.lts.sf.toNat % 1024 ≠ 0 ∨ taskHeld .calibration s = true) →
    exec .calSlotOpen s = .next s) ∧
  (∀ (conv : Conv) (s : State), (swapOf conv s = none → nextSlot conv s = openSlot conv s) ∧
    ((swapOf conv s).isSome = true → nextSlot conv s = openSlot conv (skipSlot conv s)) ∧
    (∀ w, inCal conv s = none → chooseSwap conv (rotOf conv s) s = some w → openSlot conv s = putSwap conv (some w) s) ∧
    (inCal conv s = none → chooseSwap conv (rotOf conv s) s = none → openSlot conv s = advanceRot conv s)) ∧
  (∀ (conv : Conv) (ch : BitVec 2) (sp i : Nat) (s : State), oldestIn .spare (chanOf conv ch s) = some sp →
    (failedIn (chanOf conv ch s) = some i → chooseSwap conv ch s = some ⟨ch, i, some sp, s.time.lts.sf⟩) ∧
    (failedIn (chanOf conv ch s) = none → askedFor conv ch s = none → oldestIn .active (chanOf conv ch s) = some i →
      chooseSwap conv ch s = some ⟨ch, i, some sp, s.time.lts.sf⟩)) ∧
  (∀ (conv : Conv) (s : State), (s.hs.capSt = 1 → swapDeferred conv s = true) ∧
    (1 ≤ s.eq.st → s.eq.st ≤ 7 → swapDeferred conv s = true) ∧ (stepMarks s.time.lts.sf s = true → swapDeferred conv s = true) ∧
    (s.tx.st ≠ .lit → swapDeferred .dac s = true)) ∧
  (∀ (conv : Conv) (w : Swap) (s : State), swapOf conv s = some w → ticking s = true → s.pwr.shed < 2 →
    (s.time.lts.sym = 0 → sfSince w.slot s ≤ 511 → swapDeferred conv s = false → ∃ u, exec (.sliceSwap conv) s = .next u ∧
      swapOf conv u = none ∧ inCal conv u = some (w.ch, w.target, s.time.lts.sf) ∧
      chanOf conv w.ch u = swapSlices w s.time.lts.sf (chanOf conv w.ch s) ∧ rotOf conv u = rotOf conv s + 1) ∧
    (swapDeferred conv s = true → exec (.sliceSwap conv) s = .next s) ∧
    (511 < sfSince w.slot s → exec (.swapSlotSkip conv) s = .next (skipSlot conv s)) ∧
    (sfSince w.slot s ≤ 511 → exec (.swapSlotSkip conv) s = .next s)) ∧
  (∀ (s : State), skipSlot .adc s = { s with cal := { s.cal with adcSwap := none, adcSkipped := s.cal.adcSkipped + 1 } } ∧
    skipSlot .dac s = { s with cal := { s.cal with dacSwap := none, dacSkipped := s.cal.dacSkipped + 1 } }) ∧
  (∀ (conv : Conv) (ch : BitVec 2) (i : Nat) (from_ : Sf) (o g k n : Int) (x : Slice) (s : State),
    inCal conv s = some (ch, i, from_) → ticking s = true → taskHeld .calibration s = false → redoOf conv s = false →
    s.pwr.shed < 2 → (chanOf conv ch s).slices[i]? = some x →
    (256 ≤ sfSince from_ s → ∃ u, exec (.sliceCalDone conv o g k n) s = .next u ∧ inCal conv u = none ∧
      (chanOf conv ch u).slices[i]? =
        some (sliceCalibrated ⟨o, g, k, n⟩ (medianNoise (chanOf conv ch s)) s.time.lts.sf x)) ∧
    (sfSince from_ s < 256 → exec (.sliceCalDone conv o g k n) s = .next s)) ∧
  (∀ (v : SliceFound) (median : Int) (sf : Sf) (x : Slice),
    (inRange v = true → v.noise ≤ median + 300 → (sliceCalibrated v median sf x).st = .spare ∧
      (sliceCalibrated v median sf x).last = sf ∧ (sliceCalibrated v median sf x).offset = v.offset ∧
      (sliceCalibrated v median sf x).gain = v.gain ∧ (sliceCalibrated v median sf x).skew = v.skew) ∧
    (inRange v = false → x.rangeRun = 2 → (sliceCalibrated v median sf x).st = .retired) ∧
    (median + 300 < v.noise → x.noiseRun = 2 → (sliceCalibrated v median sf x).st = .retired) ∧
    (x.rangeRun < 2 → x.noiseRun < 2 → (sliceCalibrated v median sf x).st = .spare)) ∧
  (∀ (dom : Byte) (item : Half) (s : State),
    (domItems dom.toNat ≤ item.toNat → exec (.calibrationStale dom item) s = .fault .noSuchPart) ∧
    (item.toNat < domItems dom.toNat → ticking s = true → s.cal.stale.getD dom.toNat 0 ≠ 0 →
      (itemOf dom.toNat item.toNat s).stale = false →
      (itemOlder dom.toNat item.toNat (s.cal.stale.getD dom.toNat 0) s = true →
        s.cal.notify.getD dom.toNat false = false → exec (.calibrationStale dom item) s =
          .next (modItem dom.toNat item.toNat (fun x => { x with stale := true }) s)) ∧
      (itemOlder dom.toNat item.toNat (s.cal.stale.getD dom.toNat 0) s = false →
        exec (.calibrationStale dom item) s = .next s))) ∧
  (∀ (d i n : Nat) (s : State), (d ≠ 5 → (itemOlder d i n s = true ↔ n * domCycle d < sfSince (itemOf d i s).last s)) ∧
    (itemOlder 5 i n s = true ↔ s.ref.calAt + n * 86400000000000 < s.time.wardenNs)) ∧
  (∀ (input : Byte) (s : State),
    (2 ≤ input.toNat → exec (.resonatorCalUpdate input) s = .fault .noSuchPart) ∧
    (input.toNat < 2 → ticking s = true → s.ref.sel = some input.toNat → s.ref.clk = .locked →
      wardenPassed s.ref.lockedFrom 86400 s = true → wardenPassed s.ref.calAt 86400 s = true → taskHeld .calibration s = false →
      ∃ u, exec (.resonatorCalUpdate input) s = .next u ∧
        u.ref.calFreq = s.ref.calFreq + max (-100000) (min 100000 (calMean s))))

/-- The monitor converter's conversions alternate between the system's scan and the host's, and an over-range code reads 0xFFF (R384,
R385); an interval's bins close at its boundary, after the superframe that ended there has been gathered (R97, R98, R389); a codeword
blaze is taken only while aligned, and once in a period (R392); the age accrues by its factor, in whole seconds or over a pause, and less
than 10 ps of slack raises the core offset at once (R393, R395); the daily step keeps the day's points, and moves the guardband by the
day's least slack (R394, R395). -/
def Obligations.HealthEvents : Prop :=
  (∀ (raw : Nat) (ov : Bool) (s : State), s.dbg.frozen = false → s.pwr.powered.getLsbD 1 = true →
    (s.mon.hostTurn = false → exec (.monConversion raw ov) s = .next (monConvert s.mon.sysPos raw ov false
      { s with mon := { s.mon with hostTurn := true, sysPos := (s.mon.sysPos + 1) % 32 } })) ∧
    (s.mon.hostTurn = true → s.mon.legacy = false → ∀ k, nextMasked s.mon.mask s.mon.hostPos = some k →
      exec (.monConversion raw ov) s = .next (monConvert k raw ov true
        { s with mon := { s.mon with hostTurn := false, hostPos := k } })) ∧
    (s.mon.hostTurn = true → s.mon.legacy = false → s.mon.mask = 0 →
      exec (.monConversion raw ov) s = .next { s with mon := { s.mon with hostTurn := false } })) ∧
  (∀ (ch raw : Nat) (ov host : Bool) (s : State), ∃ r, (monConvert ch raw ov host s).mon.latest = s.mon.latest.set ch r ∧
    (host = true → s.mon.fifo.length < 1024 → (monConvert ch raw ov host s).mon.fifo = s.mon.fifo ++ [r]) ∧
    (host = true → 1024 ≤ s.mon.fifo.length → (monConvert ch raw ov host s).mon.fifo = s.mon.fifo ∧
      (monConvert ch raw ov host s).mon.overflow = true) ∧
    (host = false → (monConvert ch raw ov host s).mon.fifo = s.mon.fifo)) ∧
  (∀ (c : MonCh) (raw : Nat), monCode c raw true = 0xFFF ∧ monCode c raw false ≤ 0xFFF ∧
    (c.offset = 0 → c.gain = 32768 → raw ≤ 0xFFF → monCode c raw false = raw)) ∧
  (∀ (s : State),
    (intervalOver 900 s.health.start15 s = true → ∃ u, exec (.intervalBoundary false) s = .next u ∧
      u.health.start15 = s.time.lts.sf ∧
      u.health.tallies = (gatherTallies s).health.tallies.map (close15 s.health.cause15 s.time.lts.sf) ∧
      u.health.start24 = s.health.start24) ∧
    (intervalOver 900 s.health.start15 s = false → exec (.intervalBoundary false) s = .next s) ∧
    (intervalOver 86400 s.health.start24 s = true → ∃ u, exec (.intervalBoundary true) s = .next u ∧
      u.health.start24 = s.time.lts.sf ∧
      u.health.tallies = (gatherTallies s).health.tallies.map (close24 s.health.cause24 s.time.lts.sf) ∧
      u.health.lastCause24 = s.health.cause24 ∧ u.health.start15 = s.health.start15 ∧ u.health.dayDue = true) ∧
    (intervalOver 86400 s.health.start24 s = false → exec (.intervalBoundary true) s = .next s)) ∧
  (∀ (bs : List Byte) (s : State), ticking s = true → s.health.blazePeriod ≠ 0 → s.pwr.shed < 3 → inRun s = true →
    s.health.blazeKinds.testBit 0 = true →
    (s.fec.st = 2 → s.health.blazeCw ≠ blazePeriodNow s → exec (.blazeSample (some (bs, false)) none) s =
      .next (blazePut bs { s with health := { s.health with blazeCw := blazePeriodNow s } })) ∧
    (blazePut bs s).health.blazeNext = s.health.blazeNext + 1 ∧
    ((s.fec.st ≠ 2 ∨ s.health.blazeCw = blazePeriodNow s) → exec (.blazeSample (some (bs, false)) none) s = .next s)) ∧
  (∀ (temp : Int) (s : State), ageRuns s = true →
    (s.health.agePaused = false → exec (.ageAccrue temp) s = .next { s with
      health := { s.health with age := s.health.age + ageTicks s / 32768 * Config.ageFactor temp },
      aon := { s.aon with ageTimer := (s.aon.ageTimer + ageTicks s / 32768 * 32768) % 2 ^ 48 } }) ∧
    (s.health.agePaused = true → exec (.ageAccrue temp) s = .next { s with
      health := { s.health with
        age := s.health.age + ageOver (ageTicks s) (if s.health.ageScan then temp else s.aon.ageTemp),
        agePaused := false, ageScan := false },
      aon := { s.aon with ageTimer := extTimer s } })) ∧
  (∀ (x : Int) (s : State), ageRuns s = true → atBoundary s = true → s.health.slackNow = some x →
    (x < 20 → s.health.coreOffset < 12 → ∃ u, exec .coreSlackEmergency s = .next u ∧
      u.health.coreOffset = s.health.coreOffset + 1 ∧ u.health.emergency = true ∧ u.health.slackNow = none) ∧
    (20 ≤ x → exec .coreSlackEmergency s = .next s)) ∧
  (∀ (s : State), s.health.slackNow = none → exec .coreSlackEmergency s = .next s) ∧
  (∀ (s : State), s.health.dayDue = false → exec .ageingDaily s = .next s) ∧
  (∀ (s : State), ageRuns s = true → ticking s = true → s.health.dayDue = true → ∃ u, exec .ageingDaily s = .next u ∧
    (16 ≤ s.flash.spare → u.health.points.length = s.health.points.length + 1) ∧ u.health.slack = none ∧
    u.health.emergency = false ∧ u.health.dayDue = false ∧
    (s.health.slack = none → u.health.coreOffset = s.health.coreOffset ∧ u.health.clockMhz = s.health.clockMhz) ∧
    (∀ x, s.health.slack = some x →
      (80 ≤ x → x ≤ 160 → u.health.coreOffset = s.health.coreOffset ∧ u.health.clockMhz = s.health.clockMhz) ∧
      (x < 80 → s.health.coreOffset < 12 → u.health.coreOffset = s.health.coreOffset + 1) ∧
      (x < 80 → 12 ≤ s.health.coreOffset → u.health.coreOffset = s.health.coreOffset ∧
        u.health.clockMhz = max 800 (s.health.clockMhz - 50)) ∧
      (160 < x → u.health.coreOffset = s.health.coreOffset - 1)))

/-- The commands of calibration, the monitor converter, ageing, tallies and blazes: each setting within its card's bounds is taken, CAL.RUN
asks for a slice's slot, a report gives what stands, a FIFO read takes what it returns, TALLY.CLEAR clears one cumulative count or all,
and a blaze read answers INTEGRITY once after records were lost (R385, R386, R389, R390, R392, R396, R402). -/
def Obligations.HealthCommands : Prop :=
  (∀ (h : Hdr) (dom : Byte) (item : Half) (s : State), admitted 0x0C01 s = .accept → item.toNat < domItems dom.toNat → ∃ fs,
    exec (.calStatus h dom item) s = .next (reply 0x0C01 h fs s) ∧ fld 20 4 (itemOf dom.toNat item.toNat s).count.toNat ∈ fs ∧
    fld 24 6 (itemOf dom.toNat item.toNat s).last.toNat ∈ fs ∧ fld 30 1 (s.cal.stale.getD dom.toNat 0) ∈ fs) ∧
  (∀ (h : Hdr) (dom flags stale : Byte) (s : State), admitted 0x0C02 s = .accept → dom.toNat ≤ 5 → flags &&& 0xFE = 0 → stale ≠ 0 →
    exec (.calConfig h dom flags stale) s = .next (done 0x0C02 h { s with cal := { s.cal with
      stale := s.cal.stale.set dom.toNat stale.toNat, notify := s.cal.notify.set dom.toNat (flags.getLsbD 0) } })) ∧
  (∀ (h : Hdr) (slice_ : Half) (x : Slice) (s : State), admitted 0x0C03 s = .accept → slice_.toNat < 272 → s.aon.coppice < 2 →
    (chanOf .adc (BitVec.ofNat 2 (slice_.toNat / 68)) s).slices[slice_.toNat % 68]? = some x → x.st ≠ .retired →
    sparesOf (chanOf .adc (BitVec.ofNat 2 (slice_.toNat / 68)) s) ≠ 0 →
    exec (.calRun h 0 slice_) s = .next (reply 0x0C03 h [fld 16 6 (nextSlotOf .adc (BitVec.ofNat 2 (slice_.toNat / 68)) s)] { s with cal := { s.cal with
      asked := s.cal.asked ++ [(.adc, BitVec.ofNat 2 (slice_.toNat / 68), slice_.toNat % 68)] } })) ∧
  (∀ (h : Hdr) (mode : Byte) (mask : Word) (s : State), admitted 0x0C10 s = .accept → mode.toNat ≤ 1 →
    exec (.monConfig h mode mask) s = .next (done 0x0C10 h { s with mon := { s.mon with
      legacy := decide (mode = 1), mask := mask, hostPos := 31, tablePos := 0, tableRep := 0, tableWait := 0 } })) ∧
  (∀ (h : Hdr) (ch ref : Byte) (offset gain : Half) (s : State), admitted 0x0C11 s = .accept → ch.toNat ≤ 31 → ref.toNat ≤ 2 →
    exec (.monChannel h ch ref 0 0 offset gain) s = .next (done 0x0C11 h { s with mon := { s.mon with
      chans := modAt s.mon.chans ch.toNat fun c =>
        { c with ref := ref.toNat, range := 0, override := false, settle := if 0 = c.range then c.settle else 2 } } })) ∧
  (∀ (h : Hdr) (entries : Byte) (s : State), admitted 0x0C12 s = .accept → 1 ≤ entries.toNat → entries.toNat ≤ 16 → h.buf = true →
    h.length.toNat = 4 * entries.toNat → (∀ e ∈ monEntries entries.toNat (bufData h s), e.1 ≤ 31) →
    exec (.monTable h entries) s = .next (done 0x0C12 h { s with mon := { s.mon with
      table := monEntries entries.toNat (bufData h s), tablePos := 0, tableRep := 0, tableWait := 0 } })) ∧
  (∀ (h : Hdr) (count : Byte) (s : State), admitted 0x0C13 s = .accept → h.buf = true →
    exec (.monRead h 0 count) s = .next (respond 0x0C13 h .ok (result [fld 16 1 32, fld 17 1 s.mon.overflow.toNat])
      (some (s.mon.latest.flatMap id)) s) ∧
    (count ≠ 0 → exec (.monRead h 1 count) s = .next (respond 0x0C13 h .ok
      (result [fld 16 1 (s.mon.fifo.take count.toNat).length, fld 17 1 s.mon.overflow.toNat])
      (some ((s.mon.fifo.take count.toNat).flatMap id))
      { s with mon := { s.mon with fifo := s.mon.fifo.drop count.toNat, overflow := false } }))) ∧
  (∀ (h : Hdr) (metric : Byte) (s : State), admitted 0x0C20 s = .accept → (metric.toNat ≤ 7 ∨ metric = 0xFF) → ∃ fs,
    exec (.ageReport h metric) s = .next (reply 0x0C20 h fs (if s.health.slack.isNone then nextDraw s else s)) ∧
    fld 16 4 (ageSeconds s / 86400) ∈ fs ∧ fld 20 4 ((ratedSeconds - ageSeconds s) / 86400) ∈ fs ∧
    fld 33 1 s.health.coreOffset ∈ fs ∧ fld 34 2 s.health.clockMhz ∈ fs ∧ (∀ x, s.health.slack = some x → fldI 36 2 (x / 2) ∈ fs)) ∧
  (∀ (h : Hdr) (margin : Half) (flags : Byte) (s : State), admitted 0x0C21 s = .accept → margin.toNat ≤ 500 → flags &&& 0xFE = 0 →
    exec (.ageConfig h margin flags) s = .next (done 0x0C21 h { s with health := { s.health with
      eolMargin := margin.toNat, ageNotify := flags.getLsbD 0 } })) ∧
  (∀ (h : Hdr) (id : Half) (t : Tally) (s : State), admitted 0x0C30 s = .accept → tallyOf id.toNat s = some t →
    (tallyKind t.id = .count → exec (.tallyRead h id 0xFF) s =
      .next (reply 0x0C30 h [fld 16 8 t.cum, fld 32 1 t.cumInvalid.toNat] s)) ∧
    (∃ fs, exec (.tallyRead h id 0) s = .next (reply 0x0C30 h fs s) ∧ fld 28 4 t.cur15.samples ∈ fs ∧
      fld 34 6 t.cur15.start.toNat ∈ fs ∧ (tallyKind t.id ≠ .gauge → fld 16 8 t.cur15.value ∈ fs) ∧
      (tallyKind t.id = .gauge → fldI 16 8 t.cur15.sum ∈ fs))) ∧
  (∀ (h : Hdr) (s : State), admitted 0x0C31 s = .accept → exec (.tallyClear h 0xFFFF) s = .next (done 0x0C31 h { s with
    health := { s.health with tallies := s.health.tallies.map fun t => { t with cum := 0, cumInvalid := false } } })) ∧
  (∀ (h : Hdr) (id : Half) (s : State), admitted 0x0C31 s = .accept → id ≠ 0xFFFF →
    ((tallyOf id.toNat s).isSome = true → exec (.tallyClear h id) s = .next (done 0x0C31 h { s with health := { s.health with
      tallies := s.health.tallies.map fun t => if t.id = id.toNat then { t with cum := 0, cumInvalid := false } else t } })) ∧
    (tallyOf id.toNat s = none → exec (.tallyClear h id) s = .next (refuse 0x0C31 h .badArg s))) ∧
  (∀ (h : Hdr) (period : Half) (flags : Byte) (s : State), admitted 0x0C40 s = .accept → flags &&& 0xFC = 0 →
    exec (.blazeConfig h period flags) s = .next (done 0x0C40 h { s with health := { s.health with
      blazePeriod := period.toNat, blazeKinds := flags.toNat, blazeCw := 0, blazeIns := 0 } })) ∧
  (∀ (h : Hdr) (first : Word) (count : Byte) (s : State), admitted 0x0C41 s = .accept → h.buf = true → 1 ≤ count.toNat →
    count.toNat ≤ 64 →
    (first.toNat < s.health.blazeNext → s.health.blazeDamaged = false → ∃ out a n, exec (.blazeRead h first count) s =
      .next (respond 0x0C41 h .ok (result [fld 16 4 a, fld 20 1 n,
        fld 21 1 (decide (first.toNat < s.health.blazeNext - 4096)).toNat]) (some out) s) ∧
      a = max first.toNat (s.health.blazeNext - 4096) ∧ n = min count.toNat (s.health.blazeNext - a)) ∧
    (first.toNat < s.health.blazeNext → s.health.blazeDamaged = true → exec (.blazeRead h first count) s =
      .next (refuse 0x0C41 h .integrity { s with health := { s.health with blazeDamaged := false } })) ∧
    (s.health.blazeNext ≤ first.toNat → exec (.blazeRead h first count) s = .next (refuse 0x0C41 h .badArg s)))

/-- Line modes: a LINE.MODE_SET without bundled commands is BAD_ARG when it names no mode, BUSY during another change or a transition,
REFUSED when the new mode has no room for what is defined, and else accepted for the next boundary (R114, R115, R119, R121); at C the chains stop and the new mode is in effect, at C + 1 the chains restart at the new
rate, or the code alone restarts, and at C + 1 or C + 2 the change is over and answered (R116, R117, R434, R435); LINE.FLEX_CHECK
reports a mode without taking it (R118, R121). -/
def Obligations.LineModes : Prop :=
  (∀ (h : Hdr) (code : Byte) (p : FlexReq) (s : State), admitted 0x0301 s = .accept → modeOf code p = none →
    exec (.lineModeSet h code 0 p) s = .next (refuse 0x0301 h .badArg s)) ∧
  (∀ (h : Hdr) (code : Byte) (p : FlexReq) (new : Option LMode) (ch : Change) (s : State), admitted 0x0301 s = .accept →
    modeOf code p = some new → h.buf = false → h.length = 0 →
    (setBlocked s = true → h.sched = false → exec (.lineModeSet h code 0 p) s = .next (refuse 0x0301 h .busy s)) ∧
    (setBlocked s = false → s.aon.coppice < 4 → s.pwr.failed = 0 → (code = 8 → inWatch s = false) → ch = setChange h code p s →
      (modeRefused (zrNow s) new (changeBegin ch s) = false →
        exec (.lineModeSet h code 0 p) s = .next { s with line := { s.line with change := some ch } }) ∧
      (modeRefused (zrNow s) new (changeBegin ch s) = true →
        exec (.lineModeSet h code 0 p) s = .next (refuse 0x0301 h .refused s)))) ∧
  (∀ (h : Hdr) (code : Byte) (p : FlexReq) (new : Option LMode) (s : State), modeOf code p = some new →
    (setChange h code p s).c = boundaryNow s ∧ (setChange h code p s).new = new ∧ (setChange h code p s).phase = 0 ∧
    (setChange h code p s).watch = decide (code = 8) ∧
    (∀ a b, s.line.cur = some a → new = some b → (setChange h code p s).sameB = decide (a.rate = b.rate)) ∧
    ((s.line.cur = none ∨ new = none) → (setChange h code p s).sameB = false)) ∧
  (∀ (ch : Change) (s : State), s.line.change = some ch → ticking s = true →
    (ch.phase = 0 → ch.c.toNat ≤ s.time.lts.sf.toNat → exec .modeChangeStart s =
      .next (changeLanes (zrNow s) (bundleApply ch.bundle (changeBegin ch (finishRestarts s))))) ∧
    (ch.phase = 0 → s.time.lts.sf.toNat < ch.c.toNat → exec .modeChangeStart s = .next s) ∧
    (ch.phase = 1 → ch.c.toNat + 1 ≤ s.time.lts.sf.toNat → exec .modeChangeLoad s = .next (finishRestarts (changeLoad ch s))) ∧
    (ch.phase = 2 → ch.c.toNat + (if ch.sameB then 2 else 1) ≤ s.time.lts.sf.toNat → exec .modeChangeComplete s =
      .next (serveHeld (changeAnswer ch { s with eq := { s.eq with
        base := match ch.new with | some m => m.base | none => s.eq.base } }))) ∧
    (ch.phase = 1 → s.time.lts.sf.toNat < ch.c.toNat + 1 → exec .modeChangeLoad s = .next (finishRestarts s)) ∧
    (ch.phase = 2 → s.time.lts.sf.toNat < ch.c.toNat + (if ch.sameB then 2 else 1) → exec .modeChangeComplete s = .next s)) ∧
  (∀ (ch : Change) (s : State), (changeBegin ch s).line.cur = ch.new ∧ (changeBegin ch s).line.lastC = ch.c ∧
    (changeBegin ch s).line.change = some { ch with phase := 1 } ∧
    (ch.sameB = false → (changeBegin ch s).line.rxChain = false ∧ (changeBegin ch s).line.txChain = false) ∧
    (changeAnswer ch s).line.change = none) ∧
  (∀ (ch : Change) (m : LMode) (s : State), ch.new = some m →
    (ch.sameB = true → (changeLoad ch s).fec.st = 1 ∧ (changeLoad ch s).fec.l = s.fec.lSet) ∧
    (ch.sameB = false → (changeLoad ch s).time.rate = m.rate ∧ (changeLoad ch s).line.rxChain = true ∧
      (changeLoad ch s).line.txChain = true)) ∧
  (∀ (h : Hdr) (s : State), admitted 0x0302 s = .accept → ∃ fs, exec (.lineModeGet h) s = .next (reply 0x0302 h fs s) ∧
    fld 16 1 (codeInEffect s) ∈ fs ∧ fld 17 1 (modeState s) ∈ fs ∧ fld 28 6 s.line.lastC.toNat ∈ fs) ∧
  (∀ (h : Hdr) (p : FlexReq) (s : State), admitted 0x0303 s = .accept →
    (flexMode p = none → exec (.lineFlexCheck h p) s = .next (refuse 0x0303 h .badArg s)) ∧
    (∀ m, flexMode p = some m → exec (.lineFlexCheck h p) s = .next (reply 0x0303 h
      [fld 16 1 m.slots, fld 17 1 (stagesOf m.rate), fld 20 4 (netMbps m), fld 24 4 (transMbps m), fld 28 4 (spareMbps m),
       fld 32 4 (cdCapacity m.rate), fld 36 4 (nearest (2 ^ 24 * 1000000) m.rate)] s)))

/-- Freeze: FREEZE_N low, DBG.FREEZE, or the armed trigger after its delay stops line time where freeze is allowed, with the source and
the stamp kept and the modulator at null; DBG.RELEASE ends it unless FREEZE_N is still low (R397 to R400, R403). The test access, while
VSB33 is valid: reset selects IDCODE, which shifts out 0x2240074D; BYPASS delays by one bit; SAMPLE/PRELOAD and, while frozen, EXTEST
take the boundary cells, and EXTEST delays by one bit otherwise; FRZ_SEL selects a chain and FRZ_DATA shifts zeros while the module is
not frozen; without VSB33 nothing shifts (R10, R401, R426). -/
def Obligations.FreezeAndTestAccess : Prop :=
  (∀ (k : Nat) (s : State), s.dbg.frozen = false → (freezeBegin k s).dbg.frozen = true ∧
    (freezeBegin k s).dbg.sources = (1 : BitVec 4) <<< k ∧ (freezeBegin k s).dbg.at_ = s.time.lts ∧ (freezeBegin k s).time.lts = s.time.lts ∧
    (s.tx.st = .lit → (freezeBegin k s).tx.st = .null) ∧ (freezeBegin k s).hs.merge = []) ∧
  (∀ (s : State),
    (freezeAllowed s = true → s.pins.resetLow = false →
      exec (.freezePin true) s = .next (freezeBegin 1 { s with pins := { s.pins with freezeLow := true } })) ∧
    (freezeAllowed s = false → exec (.freezePin true) s = .next { s with pins := { s.pins with freezeLow := true } }) ∧
    exec (.freezePin false) s = .next { s with pins := { s.pins with freezeLow := false } }) ∧
  (∀ (t : FreezeTrig) (s : State),
    (s.dbg.armed = some t → tripDue s = true → freezeAllowed s = true → s.dbg.frozen = false → exec (.freezeTrigger t) s =
      .next (freezeBegin 3 { s with dbg := { s.dbg with armed := none, trip := none } })) ∧
    ((s.dbg.armed ≠ some t ∨ tripDue s = false) → exec (.freezeTrigger t) s = .next s) ∧
    (s.dbg.armed = some t → s.dbg.trip = none → (freezeTrip t s).dbg.trip = some s.time.lts) ∧
    (∀ a, s.dbg.trip = some a →
      (tripDue s = true ↔ a.toNat + s.dbg.delay * s.time.rate / 1250000 < s.time.lts.toNat + 65536))) ∧
  (∀ (h : Hdr) (trigger : Byte) (delay : Half) (s : State), admitted 0x0F01 s = .accept →
    (freezeAllowed s = true →
      exec (.dbgFreezeCmd h 0 trigger delay) s = .next (freezeBegin 2 (done 0x0F01 h s)) ∧
      (∀ t, triggerOf trigger.toNat = some t → exec (.dbgFreezeCmd h 1 trigger delay) s =
        .next (done 0x0F01 h { s with dbg := { s.dbg with armed := some t, delay := delay.toNat, trip := none } })) ∧
      exec (.dbgFreezeCmd h 2 trigger delay) s = .next (done 0x0F01 h { s with dbg := { s.dbg with armed := none, trip := none } })) ∧
    (freezeAllowed s = false → exec (.dbgFreezeCmd h 0 trigger delay) s = .next (refuse 0x0F01 h .badState s))) ∧
  (∀ (h : Hdr) (s : State), admitted 0x0F02 s = .accept →
    (s.dbg.frozen = true → s.pins.freezeLow = false → ∃ u, exec (.dbgRelease h) s = .next u ∧ u.dbg.frozen = false) ∧
    (s.dbg.frozen = true → s.pins.freezeLow = true → exec (.dbgRelease h) s = .next (refuse 0x0F02 h .busy s)) ∧
    (s.dbg.frozen = false → exec (.dbgRelease h) s = .next (refuse 0x0F02 h .badState s))) ∧
  (∀ (h : Hdr) (s : State), admitted 0x0F03 s = .accept → ∃ fs, exec (.dbgStatus h) s = .next (reply 0x0F03 h fs s) ∧
    fld 16 1 (freezeFlags s) ∈ fs ∧ fld 18 6 s.dbg.at_.sf.toNat ∈ fs ∧ fld 24 3 s.dbg.at_.sym.toNat ∈ fs) ∧
  (∀ (tdi : List Bool) (n : Nat) (chain : Byte) (s : State), s.pins.vsbValid = false → exec .testLogicReset s = .next s ∧
    exec (.bypass tdi) s = .next s ∧ exec (.samplePreload tdi) s = .next s ∧ exec (.extest tdi) s = .next s ∧
    exec (.idcode n) s = .next s ∧ exec (.frzSel chain) s = .next s ∧ exec (.frzData n) s = .next s) ∧
  (∀ (s : State), s.pins.vsbValid = true →
    exec .testLogicReset s = .next { s with dbg := { s.dbg with ir := 0x01, extest := false } }) ∧
  (∀ (tdi : List Bool) (s : State), s.pins.vsbValid = true →
    (∃ o, exec (.bypass tdi) s = .next { s with dbg := { s.dbg with ir := 0xFF, extest := false, tdo := o } } ∧
      o.length = tdi.length ∧ (∀ k, k + 1 < tdi.length → o[k + 1]? = tdi[k]?) ∧ (tdi ≠ [] → o.head? = some false)) ∧
    (∃ u, exec (.samplePreload tdi) s = .next u ∧ u.dbg.ir = 0x02 ∧ u.dbg.cells = tdi ∧ u.dbg.extest = false ∧
      u.dbg.tdo.length = tdi.length) ∧
    (s.dbg.frozen = true → ∃ u, exec (.extest tdi) s = .next u ∧ u.dbg.ir = 0 ∧ u.dbg.cells = tdi ∧ u.dbg.extest = true) ∧
    (s.dbg.frozen = false → exec (.extest tdi) s = .next { s with dbg := { s.dbg with
      ir := 0, extest := false, tdo := bypassBits tdi } })) ∧
  (∀ (s : State), s.pins.vsbValid = true → ∃ o, exec (.idcode 32) s = .next { s with dbg := { s.dbg with ir := 0x01, extest := false, tdo := o } } ∧
    o.length = 32 ∧ (∀ i : Nat, i < 32 → o[i]? = some ((0x2240074D : BitVec 32).getLsbD i))) ∧
  (∀ (chain : Byte) (s : State), s.pins.vsbValid = true → ∃ u, exec (.frzSel chain) s = .next u ∧ u.dbg.chain = chain ∧
    u.dbg.ir = 0x10 ∧ u.dbg.extest = false) ∧
  (∀ (n : Nat) (s : State), s.pins.vsbValid = true →
    (s.dbg.frozen = false → exec (.frzData n) s = .next { s with dbg := { s.dbg with
      ir := 0x11, extest := false, tdo := List.replicate n false } }) ∧
    (s.dbg.frozen = true → s.dbg.chain.toNat ≤ 0x4B → ∃ u, exec (.frzData n) s = .next u ∧ u.dbg.ir = 0x11 ∧
      u.dbg.tdo.length = n ∧ u.hs = s.hs ∧ u.win = s.win))

/-- Domains: a domain that reports power-good is powered; one that does not opens and is tried again, three times, and then in a steady
state is left open as failed, and in a boot ends the cold start in OFF, with CODE 0x01; a fast oscillator that is not ready opens MGMT
and is tried again in the same way (R356, R357, R364); a memory-mode vote that has run out is withdrawn (R275, R356). -/
def Obligations.PowerDomains : Prop :=
  (∀ (d : Dom) (s : State), (rising d s = true → ∃ u, exec (.domainPowerGood d) s = .next u ∧ domIn u.pwr.powered d = true) ∧
    (rising d s = false → exec (.domainPowerGood d) s = .next s)) ∧
  (∀ (d : Dom) (s : State), rising d s = true →
    (s.pwr.attempts < 3 → ∃ u, exec (.powerGoodTimeout d false) s = .next u ∧ u.pwr.retryDue = true ∧
      u.pwr.attempts = s.pwr.attempts + 1 ∧ domIn u.pwr.closed d = false) ∧
    (∀ st, s.pwr.phase = .steady st → s.pwr.attempts = 3 → ∃ u, exec (.powerGoodTimeout d false) s = .next u ∧
      domIn u.pwr.failed d = true ∧ u.aon.valid = true ∧ u.aon.code = 0x01) ∧
    (∀ k, s.pwr.phase = .boot k → s.pwr.attempts = 3 → ∃ u, exec (.powerGoodTimeout d false) s = .next u ∧
      u.pwr.phase = .entry .off .off ∧ u.aon.valid = true ∧ u.aon.code = 0x01)) ∧
  (∀ (d : Dom) (s : State), (rising d s = false → exec (.powerGoodTimeout d false) s = .next s) ∧
    (d ≠ .mgmt → exec (.powerGoodTimeout d true) s = .next s)) ∧
  (∀ (s : State), awaitsWarden s = true → domIn s.pwr.powered .mgmt = true → s.pwr.attempts < 3 →
    ∃ u, exec (.powerGoodTimeout .mgmt true) s = .next u ∧ u.pwr.retryDue = true ∧ u.pwr.attempts = s.pwr.attempts + 1 ∧
      domIn u.pwr.closed .mgmt = false) ∧
  (∀ (s : State), s.pwr.retryDue = true → s.pins.resetLow = false → awaitsWarden s = true → ∃ u, exec .powerRetry s = .next u ∧
    domIn u.pwr.closed .mgmt = true ∧ u.pwr.retryDue = false) ∧
  (∀ (s : State), s.pwr.retryDue = false → exec .powerRetry s = .next s) ∧
  (∀ (e : Sf) (s : State), s.pwr.mmVoteEnd = some e → s.pwr.mmVote = true → ticking s = true → mmActive s = false →
    (e.toNat ≤ s.time.lts.sf.toNat → ∃ u, exec .mmVoteExpire s = .next u ∧ u.pwr.mmVote = false ∧ u.pwr.mmVoteEnd = none) ∧
    (s.time.lts.sf.toNat < e.toNat → exec .mmVoteExpire s = .next s))

/-- The steps of a cold start: step 1 clears the wake state, step 2 closes MGMT once VIN12 has held, step 3 starts the warden with the
slot preferred, or in the recovery state when neither image can boot, step 4 brings up the command path, step 5 line time at zero and
272 GBd, step 6 the first calibration, step 7 RUN (R33, R34, R77, R80, R428). -/
def Obligations.BootSteps : Prop :=
  (∀ (s : State), s.pwr.phase = .boot 1 → s.pins.vsbValid = true →
    (s.pins.resetLow = false → ∃ u, exec .coldStart s = .next u ∧ u.pwr.phase = .boot 2 ∧ u.pwr.wakeLatched = false) ∧
    (s.pins.resetLow = true → exec .coldStart s = .next s)) ∧
  (∀ (mv : Nat) (s : State), s.pwr.phase = .boot 2 → 11400 ≤ mv → s.pins.vsbValid = true → s.pins.resetLow = false →
    domIn s.pwr.closed .mgmt = false → s.pwr.retryDue = false → ∃ u, exec (.vin12HoldConfirmed mv) s = .next u ∧
    domIn u.pwr.closed .mgmt = true ∧ u.aon.coppice = 0 ∧ u.pins.vinMv = mv) ∧
  (∀ (s : State), s.pwr.phase = .boot 2 → domIn s.pwr.powered .mgmt = true → s.aon.coppice = 0 → s.pins.resetLow = false →
    s.flash.bootDue = false → s.aon.trial = false →
    (bootable s.aon.pref s = true → ∃ u, exec .wardenStart s = .next u ∧ u.pwr.phase = .boot 3 ∧ u.aon.running = s.aon.pref ∧
      u.hif.ready = false ∧ u.hif.recovery = false ∧ u.aon.boots = s.aon.boots + 1) ∧
    (bootable s.aon.pref s = false → bootable (!s.aon.pref) s = false → ∃ u, exec .wardenStart s = .next u ∧
      u.hif.recovery = true ∧ u.hif.ready = true ∧ u.aon.last = 2 ∧ u.aon.valid = true ∧ u.aon.code = 0x05)) ∧
  (∀ (s : State), s.pwr.phase = .boot 3 → s.hif.ready = false → s.hif.recovery = false → s.aon.coppice = 0 →
    s.flash.bootDue = false → ∃ u, exec .commandPathReady s = .next u ∧ u.pwr.phase = .boot 4 ∧ u.hif.ready = true ∧
    u.pwr.bootVote = true) ∧
  (∀ (s : State), s.pwr.phase = .boot 4 → s.ref.ovenFrom.isSome = true → domainsUp s = true → ∃ u, exec .lineTimeStart s = .next u ∧
    u.pwr.phase = .boot 5 ∧ u.time.running = true ∧ u.time.lts = Lts.zero ∧ u.time.rate = 272000000) ∧
  (∀ (s : State), s.pwr.phase = .boot 5 → s.aon.coppice = 0 → ∃ u, exec .firstCalibrationDone s = .next u ∧ u.pwr.phase = .boot 6) ∧
  (∀ (s : State), s.pwr.phase = .boot 6 → s.aon.coppice = 0 → s.pwr.heldReq = none → s.pins.freezeLow = false → ∃ u,
    exec .enterRun s = .next u ∧ u.pwr.phase = .steady .run ∧ u.hs.started = true ∧ u.pwr.bootVote = false) ∧
  (∀ (s : State), 0 < s.aon.coppice → s.pwr.phase = .boot 6 → exec .enterRun s = .next s)

/-- Resets and restarts: RESET_N low for 10 us acts at once and holds the module at step 1 until it is released, below 1 us it does
nothing (R416); VSB33 applied through 3.05 V gives the always-on domain its reset values, and lost below 2.90 V takes its content and the
sequencer's counts (R10, R51, R360); PERST resets the endpoint only (R417); an image that has been activated and is not READY within
10 s of the warden's clock falls back, and the watchdog falls back from a trial image, else records CODE 0x06 (R17, R53, R79). -/
def Obligations.Resets : Prop :=
  (∀ (n : Nat) (s : State), s.pins.vsbValid = true → s.pwr.phase ≠ .orderlyOff →
    (n < 1000 → exec (.resetAssert n) s = .next s) ∧
    (10000 ≤ n → ∃ u, exec (.resetAssert n) s = .next u ∧ u.pwr.phase = .boot 1 ∧ u.pins.resetLow = true ∧ u.hif.ready = false ∧
      u.time.running = false ∧ u.tribs = [] ∧ u.pwr.powered = 1)) ∧
  (∀ (s : State), s.pwr.phase = .boot 1 → s.pins.vsbValid = true → s.pins.resetLow = true → ∃ u, exec .resetRelease s = .next u ∧
    u.pwr.phase = .boot 2 ∧ u.pins.resetLow = false) ∧
  (∀ (mv : Nat) (s : State),
    (3050 ≤ mv → s.pins.vsbValid = false → ∃ u, exec (.vsb33Valid mv) s = .next u ∧ u.pwr.phase = .boot 1 ∧ u.pins.vsbValid = true ∧
      u.aon = {} ∧ u.pwr.sets = [0, 0, 0, 0, 0]) ∧
    ((s.pins.vsbValid = true ∨ mv < 3050) → exec (.vsb33Valid mv) s = .next { s with pins := { s.pins with vsbMv := mv } }) ∧
    (mv < 2900 → s.pins.vsbValid = true → ∃ u, exec (.vsb33Loss mv) s = .next u ∧ u.pwr.phase = .inert ∧ u.pins.vsbValid = false ∧
      u.aon = {} ∧ u.pwr.sets = [0, 0, 0, 0, 0] ∧ u.pins.lowestVin = s.pins.vinMv ∧ u.flash.log = s.flash.log) ∧
    (2900 ≤ mv → exec (.vsb33Loss mv) s = .next { s with pins := { s.pins with vsbMv := mv } })) ∧
  (∀ (b : Bool) (s : State), (s.pins.resetLow = false → s.pins.vsbValid = true → exec (.pciePerst b) s =
    .next { s with hif := { s.hif with msixEnable := b, msixMask := 0xF, msixPending := 0 } }) ∧
    (s.pins.resetLow = true → exec (.pciePerst b) s = .next s)) ∧
  (∀ (s : State), (s.flash.awaiting = true → s.hif.ready = false → wardenPassed s.flash.awaitFrom 10 s = true →
      ∃ u, exec .fwReadyTimeout s = .next u ∧ u.aon.trial = false ∧ u.flash.trialRuns = true ∧ u.hif.ready = false) ∧
    ((s.hif.ready = true ∨ wardenPassed s.flash.awaitFrom 10 s = false) → exec .fwReadyTimeout s = .next s)) ∧
  (∀ (s : State), wardenRuns s = true → s.hif.recovery = false → s.flash.bootDue = false → s.flash.trialRuns = true →
    ∃ u, exec .wardenWatchdogExpire s = .next u ∧ u.aon.trial = false ∧ u.hif.ready = false) ∧
  (∀ (s : State), wardenRuns s = true → s.hif.recovery = false → s.flash.bootDue = false → s.flash.trialRuns = false →
    exec .wardenWatchdogExpire s = .next (recordFault 0x06 0 s) ∧ (recordFault 0x06 0 s).aon.code = 0x06 ∧
    (recordFault 0x06 0 s).aon.valid = true)

/-- Wake sources: an enabled source active in a state it wakes from sets its bit and asks for RUN, or is latched without VIN_OK, and one
that is not enabled does nothing; WAKE_N must be low for two cycles, AON_WAKE_REQ takes 0x5A, the timer its match, and VIN12 its hold with
SUPPLY armed (R51, R54, R361, R371, R445). -/
def Obligations.WakeSources : Prop :=
  (∀ (k : Nat) (st : PState) (s : State), k < 5 → s.pins.vsbValid = true → s.pwr.phase = .steady st →
    (s.aon.wakeEn.getLsbD k = false → wake k s = s) ∧
    (s.aon.wakeEn.getLsbD k = true → s.pwr.req = none → s.line.change = none → wakesFrom k st = true →
      (wake k s).aon.wakeSrc.getLsbD k = true ∧
      (s.aon.vinOk = true → ∃ r, (wake k s).pwr.req = some r ∧ r.target = .run ∧ r.hdr = none) ∧
      (s.aon.vinOk = false → (wake k s).pwr.wakeLatched = true ∧ (wake k s).pwr.req = none)) ∧
    (s.aon.wakeEn.getLsbD k = true → s.pwr.req = none → s.line.change = none → wakesFrom k st = false → wake k s = s)) ∧
  (∀ (n : Nat) (s : State),
    (n < 2 → exec (.wakePin true n) s = .next s) ∧
    (2 ≤ n → s.pins.wakeLow = false → s.pins.resetLow = false →
      exec (.wakePin true n) s = .next (wake 0 { s with pins := { s.pins with wakeLow := true } })) ∧
    exec (.wakePin false n) s =
      .next { s with pins := { s.pins with wakeLow := false }, pwr := { s.pwr with wakeSpent := false } }) ∧
  (∀ (link : Link) (v : Word) (s : State), answers link 0x120 s = true →
    (v &&& 0xFF = 0x5A → exec (.wakeReqWrite link v) s = .next (accessed link (wake 1 s))) ∧
    (v &&& 0xFF ≠ 0x5A → exec (.wakeReqWrite link v) s = .next (accessed link s))) ∧
  (∀ (s : State), s.pins.vsbValid = true →
    exec .aonTimerWrap s = .next { s with aon := { s.aon with timer := 0, wraps := s.aon.wraps + 1 } } ∧
    ∃ w, exec .timerWake s = .next (wake 2 { s with aon := { s.aon with timer := s.aon.wakeAt, wraps := w } })) ∧
  (∀ (mv : Nat) (s : State), 11400 ≤ mv → mv ≤ 12600 → s.pins.vsbValid = true → s.pwr.phase = .steady .off →
    s.aon.supplyArmed = true → s.aon.wakeEn.getLsbD 4 = true → s.pwr.req = none → s.line.change = none → ∃ u,
    exec (.supplyWake mv) s = .next u ∧ u.aon.wakeSrc.getLsbD 4 = true ∧ u.aon.supplyArmed = false ∧ u.pwr.req.isSome = true) ∧
  (∀ (mv : Nat) (s : State), s.pwr.phase = .steady .off →
    (mv < 11400 → ∃ u, exec (.vinOkChange mv) s = .next u ∧ u.aon.vinOk = false ∧ u.aon.supplyArmed = true) ∧
    (11400 ≤ mv → exec (.vinOkChange mv) s = .next (measureVin mv s)))

/-- Low states: at its boundary a requested entry stops the chains and line time and enters its window, whose end reaches the state; an
accepted wake starts the exit, of which DEEP waits for MGMT; the oven ready, line time resumes at the whole superframe at or above the
count carried forward, and W7 reaches RUN; above 80 °C an exit returns to DEEP (R358, R362, R363, R104, R374, R440). WATCH: a request
for RUN or IDLE leaves it at its boundary; a window of 16 superframes opens each WATCH_PERIOD, in which two compares in a
row, one a superframe, above the threshold and 1.0 dB detect light (R353, R368). -/
def Obligations.LowStates : Prop :=
  (∀ (r : PwrReq) (st : PState) (s : State), s.pwr.req = some r → s.pwr.phase = .steady st →
    (r.target = .sleep ∨ r.target = .deep ∨ r.target = .off) → r.due.le (nowLts s) = true → s.line.change = none →
    s.dbg.frozen = false → deferredSet s = false → ∃ u, exec .lowStateEntry s = .next u ∧ u.pwr.phase = .entry r.target st ∧
      u.time.running = false ∧ u.line.cur = none) ∧
  (∀ (target origin : PState) (s : State), s.pwr.phase = .entry target origin → s.pwr.heldReq = none → s.pins.wakeLow = false →
    s.aon.supplyArmed = false → ∃ u, exec .entryWindowEnd s = .next u ∧ u.pwr.phase = .steady target ∧ u.pwr.req = none) ∧
  (∀ (r : PwrReq) (s : State), s.pwr.req = some r → r.target = .run →
    (s.pwr.phase = .steady .sleep → ∃ u, exec .wakeAccept s = .next u ∧ u.pwr.phase = .exit .sleep 1) ∧
    (s.pwr.phase = .steady .deep → s.aon.coppice = 0 → ∃ u, exec .wakeAccept s = .next u ∧ u.pwr.phase = .exit .deep 1 ∧
      domIn u.pwr.closed .mgmt = true ∧ u.pwr.req = none) ∧
    (s.pwr.phase = .steady .off → ∃ u, exec .wakeAccept s = .next u ∧ u.pwr.phase = .boot 1 ∧ u.pwr.req = none)) ∧
  (∀ (temp : Int) (s : State), s.aon.coppice = 0 →
    (s.pwr.phase = .boot 4 → s.ref.ovenFrom = none → ∃ u, exec (.ovenReady temp) s = .next u ∧
      u.ref.ovenFrom = some s.time.resNs ∧ u.pwr.phase = .boot 4) ∧
    (s.pwr.phase = .exit .sleep 1 → temp ≤ 8000 → ∃ u, exec (.ovenReady temp) s = .next u ∧ u.pwr.phase = .exit .sleep 4 ∧
      u.pwr.bootVote = true) ∧
    (s.pwr.phase = .exit .sleep 1 → 8000 < temp → ∃ u, exec (.ovenReady temp) s = .next u ∧ u.pwr.phase = .entry .deep .sleep ∧
      u.aon.code = 0x04 ∧ u.aon.valid = true)) ∧
  (∀ (o : PState) (s : State), s.pwr.phase = .exit o 4 → domainsUp s = true → ∃ u, exec .lineTimeResume s = .next u ∧
    u.pwr.phase = .exit o 5 ∧ u.time.running = true ∧ u.time.lts = ⟨BitVec.ofNat 48 (estimateCeil s), 0⟩ ∧
    u.time.rate = 272000000) ∧
  (∀ (o : PState) (s : State), s.pwr.phase = .exit o 6 → s.aon.coppice = 0 → s.pwr.then_ = none → s.pwr.restoreAt7 = false →
    s.pwr.heldReq = none → s.pins.freezeLow = false → ∃ u, exec .wakeExitComplete s = .next u ∧ u.pwr.phase = .steady .run ∧
    u.pwr.req = none ∧ u.pwr.bootVote = false) ∧
  (∀ (r : PwrReq) (s : State), s.pwr.req = some r → s.pwr.phase = .steady .watch → (r.target = .run ∨ r.target = .idle) →
    r.due.le (nowLts s) = true → ticking s = true → s.line.change = none → deferredSet s = false → s.pwr.heldReq = none →
    ∃ u, exec .watchExit s = .next u ∧ u.pwr.phase = .steady r.target ∧ u.pwr.watchOpen = false ∧
      (s.line.recorded = none → u.line.change = none) ∧
      (∀ m, s.line.recorded = some m → s.aon.coppice < 4 → ∃ ch, u.line.change = some ch ∧ ch.new = some m)) ∧
  (∀ (s : State), s.pwr.phase = .steady .watch → ticking s = true → s.aon.coppice < 4 →
    (s.pwr.watchOpen = false → s.time.lts.sf.toNat < s.pwr.watchNext.toNat → exec .fenWatchWindow s = .next s) ∧
    (s.pwr.watchOpen = false → s.time.lts.sf = s.pwr.watchNext → exec .fenWatchWindow s = .next { s with pwr := { s.pwr with
      watchOpen := true, watchRun := 0, watchCmp := none, watchLight := false } }) ∧
    (s.pwr.watchOpen = true → s.pwr.watchNext.toNat + 16 ≤ s.time.lts.sf.toNat → exec .fenWatchWindow s = .next { s with
      pwr := { s.pwr with watchOpen := false, lightActive := false, lightSaid := s.pwr.lightSaid && s.pwr.watchLight,
                          watchRun := 0, watchCmp := none, watchNext := s.pwr.watchNext + BitVec.ofNat 48 s.pwr.watchPeriod } })) ∧
  (∀ (p : Int) (s : State), s.pwr.phase = .steady .watch → ticking s = true → s.aon.coppice < 4 → s.pwr.watchOpen = true →
    s.time.lts.sf.toNat < s.pwr.watchNext.toNat + 16 →
    (s.pwr.watchCmp = some s.time.lts.sf → exec (.fenWatchCompare p) s = .next s) ∧
    (s.pwr.watchCmp ≠ some s.time.lts.sf → p ≤ s.fe.losThr * 10 + 100 → exec (.fenWatchCompare p) s =
      .next { s with fe := { s.fe with power := p }, pwr := { s.pwr with watchRun := 0, watchCmp := some s.time.lts.sf } }) ∧
    (s.pwr.watchCmp ≠ some s.time.lts.sf → s.fe.losThr * 10 + 100 < p → s.pwr.watchRun = 0 → exec (.fenWatchCompare p) s =
      .next { s with fe := { s.fe with power := p }, pwr := { s.pwr with watchRun := 1, watchCmp := some s.time.lts.sf } }) ∧
    (s.pwr.watchCmp ≠ some s.time.lts.sf → s.fe.losThr * 10 + 100 < p → s.pwr.watchRun = 1 → ∃ u,
      exec (.fenWatchCompare p) s = .next u ∧ u.pwr.watchLight = true ∧ u.pwr.lightActive = true))

/-- Coppicing: a level sets below its threshold with every shallower one, and clears at its own, deepest first; the work of the levels
set is shed at the boundary; C5 begins the orderly off, whose end leaves OFF with CODE 0x03 and SUPPLY armed; the case temperature warns
at 78 and below 76 °C, and after 1 s of the warden's clock at or above 85 °C the module enters DEEP with CODE 0x04 (R17, R34, R369 to
R374). -/
def Obligations.Coppicing : Prop :=
  (levelBelow 11200 = 0 ∧ levelBelow 11199 = 1 ∧ levelBelow 10900 = 1 ∧ levelBelow 10899 = 2 ∧ levelBelow 10600 = 2 ∧
    levelBelow 10599 = 3 ∧ levelBelow 10200 = 3 ∧ levelBelow 10199 = 4 ∧ levelBelow 9600 = 4 ∧ levelBelow 9599 = 5) ∧
  (∀ (mv : Nat) (s : State), s.pins.vsbValid = true →
    (levelBelow mv ≤ s.aon.coppice → exec (.coppiceSet mv) s = .next (measureVin mv s)) ∧
    (s.aon.coppice < levelBelow mv → levelBelow mv < 5 → ∃ u, exec (.coppiceSet mv) s = .next u ∧ u.aon.coppice = levelBelow mv) ∧
    (s.aon.coppice < 5 → levelBelow mv = 5 → c5Acts s = true → ∃ u, exec (.coppiceSet mv) s = .next u ∧ u.pwr.phase = .orderlyOff ∧
      u.hif.ready = false ∧ u.time.running = false)) ∧
  (∀ (s : State), s.dbg.frozen = false → taskHeld .power s = false → (shedsAsRun s = true ∨ inSleep s = true) →
    (ticking s = true → s.time.lts.sym = 0) →
    (s.pwr.shed < s.aon.coppice → ∃ u, exec .coppiceShed s = .next u ∧ u.pwr.shed = s.aon.coppice) ∧
    (s.aon.coppice ≤ s.pwr.shed → exec .coppiceShed s = .next s)) ∧
  (∀ (mv : Nat) (s : State), s.pins.vsbValid = true → s.pwr.phase ≠ .orderlyOff →
    (levelLeft mv s.aon.coppice = s.aon.coppice → exec (.coppiceClear mv) s = .next (measureVin mv s)) ∧
    (levelLeft mv s.aon.coppice ≠ s.aon.coppice → ∃ u, exec (.coppiceClear mv) s = .next u ∧
      u.aon.coppice = levelLeft mv s.aon.coppice)) ∧
  (∀ (mv n : Nat), levelLeft mv n ≤ n ∧ (0 < levelLeft mv n → mv < clearsAtMv (levelLeft mv n))) ∧
  (∀ (s : State), s.pwr.phase = .orderlyOff → s.pins.resetLow = false → s.pwr.heldReq = none → ∃ u, exec .orderlyOffDone s = .next u ∧
    u.pwr.phase = .steady .off ∧ u.aon.code = 0x03 ∧ u.aon.valid = true ∧ u.aon.supplyArmed = true ∧ u.pwr.powered = 1) ∧
  (∀ (temp : Int) (s : State), wardenRuns s = true → domIn s.pwr.powered .mgmt = true →
    ∃ u, exec (.caseTempMeasure temp) s = .next u ∧ u.pins.caseTemp = temp ∧
      (8500 ≤ temp → u.pwr.hotFrom = some (s.pwr.hotFrom.getD s.time.wardenNs)) ∧ (temp < 8500 → u.pwr.hotFrom = none) ∧
      (7800 ≤ temp → u.pwr.thermal = true) ∧ (temp < 7600 → u.pwr.thermal = false) ∧
      (7600 ≤ temp → temp < 7800 → u.pwr.thermal = s.pwr.thermal)) ∧
  (∀ (a : Nat) (s : State), s.pwr.hotFrom = some a → wardenPassed a 1 s = true → 8500 ≤ s.pins.caseTemp → wardenRuns s = true → domIn s.pwr.powered .mgmt = true →
    ∃ u o, exec .overtempShutdown s = .next u ∧ u.pwr.phase = .entry .deep o ∧ u.aon.code = 0x04 ∧ u.aon.valid = true ∧
      u.time.running = false) ∧
  (∀ (s : State), hotLong s = false → exec .overtempShutdown s = .next s)

/-- The power commands: PWR.STATE_SET of the state the module is in is answered at once, from RUN to IDLE acts at once, to a low state or
WATCH is taken for the boundary, and during a transition is held in the place of one held before; a code of no state is BAD_ARG;
PWR.VOTE keeps the host's votes, refused at C3; PWR.CONFIG keeps its settings; PWR.STATUS reports and starts the lowest VIN12 anew (R353,
R356, R367, R375). -/
def Obligations.PowerCommands : Prop :=
  (∀ (h : Hdr) (target : Byte) (st to_ : PState) (s : State), admitted 0x0201 s = .accept → codeState target.toNat = some to_ →
    s.pwr.phase = .steady st → s.pwr.req = none → s.line.change = none →
    (st = to_ → exec (.pwrStateSet h target) s = .next (pwrReply ⟨to_, some h, nowLts s, false, decide (s.q.acting = some true)⟩ (stateCode st) true s)) ∧
    (st = .run → to_ = .sleep ∨ to_ = .deep ∨ to_ = .off → ∃ u r, exec (.pwrStateSet h target) s = .next u ∧ u.pwr.req = some r ∧
      r.target = to_ ∧ r.hdr = some h ∧ u = { s with pwr := { s.pwr with req := u.pwr.req } }) ∧
    (st = .run → to_ = .idle → ∃ u, exec (.pwrStateSet h target) s = .next u ∧ u.pwr.phase = .steady .idle) ∧
    (st = .run → to_ = .watch → s.aon.coppice < 4 → ∃ u, exec (.pwrStateSet h target) s = .next u ∧
      u.line.change = some (watchChange none false s) ∧ u.pwr.req.isSome = true)) ∧
  (∀ (h : Hdr) (target : Byte) (to_ : PState) (s : State), admitted 0x0201 s = .accept → codeState target.toNat = some to_ →
    inTransition s = true → exec (.pwrStateSet h target) s =
      .next (holdRequest ⟨to_, some h, nowLts s, false, decide (s.q.acting = some true)⟩ s)) ∧
  (∀ (h : Hdr) (target : Byte) (s : State), admitted 0x0201 s = .accept → codeState target.toNat = none →
    exec (.pwrStateSet h target) s = .next (refuse 0x0201 h .badArg s)) ∧
  (∀ (h : Hdr) (s : State), admitted 0x0202 s = .accept → ∃ fs, exec (.pwrStatus h) s = .next (reply 0x0202 h fs
      (nextDraw { s with pins := { s.pins with lowestVin := s.pins.vinMv } })) ∧ fld 16 1 (phaseCode s.pwr.phase) ∈ fs ∧
    fld 18 1 s.aon.coppice ∈ fs ∧ fld 19 1 s.pwr.powered.toNat ∈ fs ∧ fld 24 2 s.pins.vinMv ∈ fs ∧ fld 52 2 s.pins.lowestVin ∈ fs ∧
    fld 56 6 s.pwr.lastChange.toNat ∈ fs) ∧
  (∀ (h : Hdr) (domains : Byte) (s : State), admitted 0x0203 s = .accept → domains &&& 0xC3 = 0 →
    (3 ≤ s.aon.coppice → exec (.pwrVote h domains) s = .next (refuse 0x0203 h .badState s)) ∧
    (s.aon.coppice < 3 → ∃ u, exec (.pwrVote h domains) s = .next (reply 0x0203 h [fld 16 1 u.pwr.powered.toNat] u) ∧
      u.pwr.hostVotes = domains)) ∧
  (∀ (h : Hdr) (period : Half) (flags : Byte) (s : State), admitted 0x0204 s = .accept → flags &&& 0xF8 = 0 →
    (period = 0 ∨ 256 ≤ period.toNat) → exec (.pwrConfig h period flags) s = .next (done 0x0204 h { s with pwr := { s.pwr with
      watchPeriod := if period = 0 then 16384 else period.toNat, restoreC4 := flags.getLsbD 0, restoreWake := flags.getLsbD 1,
      notifyCop := flags.getLsbD 2 } }))

/-- At reset the window, the store and the flash keep their canonical form, and no more fuses are blown than there are. -/
def Obligations.ResetMemories : Prop :=
 memoriesWf State.reset = true ∧ fusesWf State.reset = true

/-- Every step that answers a next state keeps the canonical form of the window, the store and the flash, whatever the command. -/
def Obligations.StepKeepsMemories : Prop :=
  ∀ (s t : State), memoriesWf s = true → step s = .next t → memoriesWf t = true
end

