-- ==== Sys2Proof/Laws/Coding.lean ====
section
/-! SUPPORT. What the receiver undoes: scrambling twice, stuffing and discarding, and checks that sum to zero. -/
namespace Sys2Proof.Machine

open Sys2Proof

/-- R228, R290: an additive scrambler undoes itself. -/
theorem scramble_scramble (w t1 t2 : Nat) (l : List Bool) (st : Nat) :
    scramble w t1 t2 st (scramble w t1 t2 st l) = l := by
  induction l generalizing st with
  | nil => rfl
  | cons b t ih => simp [scramble, ih]

/-- R291: the receiver gets back the symbols before stuffing. -/
theorem unstuff_stuff (step : Nat) (l : List Nat) (run : Nat × Nat) :
    unstuff run (stuff step run l) = l := by
  induction l generalizing run with
  | nil => by_cases h : run.2 = 31 <;> simp [stuff, unstuff, h]
  | cons x t ih => by_cases h : run.2 = 31 <;> simp [stuff, unstuff, h, ih]

/-- R207: every check of the columns that the encoder solves sums to zero. -/
theorem innerResidual_innerSolve (check : Nat → Column) (n j : Nat) (before : Column) :
    (innerResidual check j before (innerSolve check n j before)).all (fun c => decide (c = 0)) = true := by
  induction n generalizing j before with
  | zero => rfl
  | succ n ih => simpa [innerSolve, innerResidual] using ih (j + 1) (check j ^^^ before)

/-- R207, R213: an encoded position has a zero inner syndrome. -/
theorem innerClean_innerParity (q : Nat) (sys prev1 prev2 : List Column) :
    innerClean q sys prev1 prev2 (innerParity q sys prev1 prev2) = true :=
  innerResidual_innerSolve _ q 0 0

/-- R179: a rank within the counts is what the receiver computes from the sequence's first amplitude and the rest. -/
theorem pickAmp_rank (row : List Nat) (e : Nat) (amps : List Nat) (v : Nat) (hs : amps.Pairwise (· < ·))
    (hne : amps ≠ []) :
    ((amps.takeWhile fun x => decide (x < (pickAmp row e amps v).1)).map (countAfter row e)).sum
      + (pickAmp row e amps v).2 = v ∧ (pickAmp row e amps v).1 ∈ amps := by
  induction amps generalizing v with
  | nil => exact absurd rfl hne
  | cons a t ih =>
    cases t with
    | nil => simp [pickAmp]
    | cons b t =>
      by_cases h : v < countAfter row e a
      · simp [pickAmp, h]
      · obtain ⟨h1, h2⟩ := ih (v - countAfter row e a) (List.pairwise_cons.mp hs).2 (by simp)
        have ha : a < (pickAmp row e (b :: t) (v - countAfter row e a)).1 :=
          (List.pairwise_cons.mp hs).1 _ h2
        have hp : pickAmp row e (a :: b :: t) v = pickAmp row e (b :: t) (v - countAfter row e a) := by
          simp [pickAmp, h]
        rw [hp, List.takeWhile_cons, if_pos (by simpa using ha)]
        refine ⟨?_, List.mem_cons_of_mem _ h2⟩
        simp only [List.map_cons, List.sum_cons]
        omega

/-- R179: what is left of a rank when a sequence has been read. -/
def rankLeft (amps : List Nat) : List (List Nat) → Nat → Nat → Nat
  | [], _, v => v
  | row :: rows, e, v =>
    rankLeft amps rows (e - ampEnergy (pickAmp row e amps v).1) (pickAmp row e amps v).2

/-- R179: the receiver's rank of a sequence is the rank the matcher was given, up to what the sequence cannot hold. -/
theorem rankOf_unrank (amps : List Nat) (hs : amps.Pairwise (· < ·)) (hne : amps ≠ []) (rows : List (List Nat))
    (e v : Nat) : rankOf amps rows e (unrank amps rows e v) + rankLeft amps rows e v = v := by
  induction rows generalizing e v with
  | nil => simp [rankOf, rankLeft]
  | cons row rows ih =>
    have h := (pickAmp_rank row e amps v hs hne).1
    have h2 := ih (e - ampEnergy (pickAmp row e amps v).1) (pickAmp row e amps v).2
    simp only [rankOf, rankLeft, unrank]
    omega

end Sys2Proof.Machine
end

