-- ==== Sys2Proof/Laws/Frames.lean ====
section
/-! SUPPORT. What the shared operations leave alone: one lemma per operation, which lists every field of the state that it
does not write. -/
namespace Sys2Proof.Machine

open Sys2Proof

/-- A change of the interrupt registers writes HIF_ registers only. -/
@[simp] theorem withIrq_frame (f : Hif → Hif) (s : State) :
    (withIrq f s).pending = s.pending ∧ (withIrq f s).ident = s.ident ∧ (withIrq f s).time = s.time ∧
    (withIrq f s).pins = s.pins ∧ (withIrq f s).aon = s.aon ∧ (withIrq f s).win = s.win ∧ (withIrq f s).q = s.q ∧
    (withIrq f s).reply = s.reply ∧ (withIrq f s).pwr = s.pwr ∧ (withIrq f s).line = s.line ∧
    (withIrq f s).fe = s.fe ∧ (withIrq f s).eq = s.eq ∧ (withIrq f s).tx = s.tx ∧ (withIrq f s).fec = s.fec ∧
    (withIrq f s).tf = s.tf ∧ (withIrq f s).tribs = s.tribs ∧ (withIrq f s).ciph = s.ciph ∧ (withIrq f s).mm = s.mm ∧
    (withIrq f s).hl = s.hl ∧ (withIrq f s).ref = s.ref ∧ (withIrq f s).hs = s.hs ∧ (withIrq f s).cal = s.cal ∧
    (withIrq f s).mon = s.mon ∧ (withIrq f s).health = s.health ∧ (withIrq f s).dbg = s.dbg ∧
    (withIrq f s).flash = s.flash ∧ (withIrq f s).cv = s.cv ∧ (withIrq f s).sedge = s.sedge := by
  exact ⟨rfl, rfl, rfl, rfl, rfl, rfl, rfl, rfl, rfl, rfl, rfl, rfl, rfl, rfl, rfl, rfl, rfl, rfl, rfl, rfl, rfl, rfl, rfl, rfl, rfl, rfl, rfl, rfl⟩

/-- A cause bit is a HIF_ register. -/
@[simp] theorem setCause_frame (c : BitVec 6) (s : State) :
    (setCause c s).pending = s.pending ∧ (setCause c s).ident = s.ident ∧ (setCause c s).time = s.time ∧
    (setCause c s).pins = s.pins ∧ (setCause c s).aon = s.aon ∧ (setCause c s).win = s.win ∧ (setCause c s).q = s.q ∧
    (setCause c s).reply = s.reply ∧ (setCause c s).pwr = s.pwr ∧ (setCause c s).line = s.line ∧
    (setCause c s).fe = s.fe ∧ (setCause c s).eq = s.eq ∧ (setCause c s).tx = s.tx ∧ (setCause c s).fec = s.fec ∧
    (setCause c s).tf = s.tf ∧ (setCause c s).tribs = s.tribs ∧ (setCause c s).ciph = s.ciph ∧
    (setCause c s).mm = s.mm ∧ (setCause c s).hl = s.hl ∧ (setCause c s).ref = s.ref ∧ (setCause c s).hs = s.hs ∧
    (setCause c s).cal = s.cal ∧ (setCause c s).mon = s.mon ∧ (setCause c s).health = s.health ∧
    (setCause c s).dbg = s.dbg ∧ (setCause c s).flash = s.flash ∧ (setCause c s).cv = s.cv ∧
    (setCause c s).sedge = s.sedge := by
  exact ⟨rfl, rfl, rfl, rfl, rfl, rfl, rfl, rfl, rfl, rfl, rfl, rfl, rfl, rfl, rfl, rfl, rfl, rfl, rfl, rfl, rfl, rfl, rfl, rfl, rfl, rfl, rfl, rfl⟩

/-- RESP is a HIF_ register. -/
@[simp] theorem causeResponse_frame (s : State) :
    (causeResponse s).pending = s.pending ∧ (causeResponse s).ident = s.ident ∧ (causeResponse s).time = s.time ∧
    (causeResponse s).pins = s.pins ∧ (causeResponse s).aon = s.aon ∧ (causeResponse s).win = s.win ∧
    (causeResponse s).q = s.q ∧ (causeResponse s).reply = s.reply ∧ (causeResponse s).pwr = s.pwr ∧
    (causeResponse s).line = s.line ∧ (causeResponse s).fe = s.fe ∧ (causeResponse s).eq = s.eq ∧
    (causeResponse s).tx = s.tx ∧ (causeResponse s).fec = s.fec ∧ (causeResponse s).tf = s.tf ∧
    (causeResponse s).tribs = s.tribs ∧ (causeResponse s).ciph = s.ciph ∧ (causeResponse s).mm = s.mm ∧
    (causeResponse s).hl = s.hl ∧ (causeResponse s).ref = s.ref ∧ (causeResponse s).hs = s.hs ∧
    (causeResponse s).cal = s.cal ∧ (causeResponse s).mon = s.mon ∧ (causeResponse s).health = s.health ∧
    (causeResponse s).dbg = s.dbg ∧ (causeResponse s).flash = s.flash ∧ (causeResponse s).cv = s.cv ∧
    (causeResponse s).sedge = s.sedge := by
  exact ⟨rfl, rfl, rfl, rfl, rfl, rfl, rfl, rfl, rfl, rfl, rfl, rfl, rfl, rfl, rfl, rfl, rfl, rfl, rfl, rfl, rfl, rfl, rfl, rfl, rfl, rfl, rfl, rfl⟩

/-- NOTIFY is a HIF_ register. -/
@[simp] theorem causeNotification_frame (s : State) :
    (causeNotification s).pending = s.pending ∧ (causeNotification s).ident = s.ident ∧
    (causeNotification s).time = s.time ∧ (causeNotification s).pins = s.pins ∧ (causeNotification s).aon = s.aon ∧
    (causeNotification s).win = s.win ∧ (causeNotification s).q = s.q ∧ (causeNotification s).reply = s.reply ∧
    (causeNotification s).pwr = s.pwr ∧ (causeNotification s).line = s.line ∧ (causeNotification s).fe = s.fe ∧
    (causeNotification s).eq = s.eq ∧ (causeNotification s).tx = s.tx ∧ (causeNotification s).fec = s.fec ∧
    (causeNotification s).tf = s.tf ∧ (causeNotification s).tribs = s.tribs ∧ (causeNotification s).ciph = s.ciph ∧
    (causeNotification s).mm = s.mm ∧ (causeNotification s).hl = s.hl ∧ (causeNotification s).ref = s.ref ∧
    (causeNotification s).hs = s.hs ∧ (causeNotification s).cal = s.cal ∧ (causeNotification s).mon = s.mon ∧
    (causeNotification s).health = s.health ∧ (causeNotification s).dbg = s.dbg ∧
    (causeNotification s).flash = s.flash ∧ (causeNotification s).cv = s.cv ∧ (causeNotification s).sedge = s.sedge := by
  exact ⟨rfl, rfl, rfl, rfl, rfl, rfl, rfl, rfl, rfl, rfl, rfl, rfl, rfl, rfl, rfl, rfl, rfl, rfl, rfl, rfl, rfl, rfl, rfl, rfl, rfl, rfl, rfl, rfl⟩

/-- The holds are HIF_ state. -/
@[simp] theorem endHolds_frame (s : State) :
    (endHolds s).pending = s.pending ∧ (endHolds s).ident = s.ident ∧ (endHolds s).time = s.time ∧
    (endHolds s).pins = s.pins ∧ (endHolds s).aon = s.aon ∧ (endHolds s).win = s.win ∧ (endHolds s).q = s.q ∧
    (endHolds s).reply = s.reply ∧ (endHolds s).pwr = s.pwr ∧ (endHolds s).line = s.line ∧ (endHolds s).fe = s.fe ∧
    (endHolds s).eq = s.eq ∧ (endHolds s).tx = s.tx ∧ (endHolds s).fec = s.fec ∧ (endHolds s).tf = s.tf ∧
    (endHolds s).tribs = s.tribs ∧ (endHolds s).ciph = s.ciph ∧ (endHolds s).mm = s.mm ∧ (endHolds s).hl = s.hl ∧
    (endHolds s).ref = s.ref ∧ (endHolds s).hs = s.hs ∧ (endHolds s).cal = s.cal ∧ (endHolds s).mon = s.mon ∧
    (endHolds s).health = s.health ∧ (endHolds s).dbg = s.dbg ∧ (endHolds s).flash = s.flash ∧
    (endHolds s).cv = s.cv ∧ (endHolds s).sedge = s.sedge := by
  exact ⟨rfl, rfl, rfl, rfl, rfl, rfl, rfl, rfl, rfl, rfl, rfl, rfl, rfl, rfl, rfl, rfl, rfl, rfl, rfl, rfl, rfl, rfl, rfl, rfl, rfl, rfl, rfl, rfl⟩

/-- A recorded fault writes AON_FAULT and the cause FAULT. -/
@[simp] theorem recordFault_frame (c d : Byte) (s : State) :
    (recordFault c d s).pending = s.pending ∧ (recordFault c d s).ident = s.ident ∧
    (recordFault c d s).time = s.time ∧ (recordFault c d s).pins = s.pins ∧ (recordFault c d s).win = s.win ∧
    (recordFault c d s).q = s.q ∧ (recordFault c d s).reply = s.reply ∧ (recordFault c d s).pwr = s.pwr ∧
    (recordFault c d s).line = s.line ∧ (recordFault c d s).fe = s.fe ∧ (recordFault c d s).eq = s.eq ∧
    (recordFault c d s).tx = s.tx ∧ (recordFault c d s).fec = s.fec ∧ (recordFault c d s).tf = s.tf ∧
    (recordFault c d s).tribs = s.tribs ∧ (recordFault c d s).ciph = s.ciph ∧ (recordFault c d s).mm = s.mm ∧
    (recordFault c d s).hl = s.hl ∧ (recordFault c d s).ref = s.ref ∧ (recordFault c d s).hs = s.hs ∧
    (recordFault c d s).cal = s.cal ∧ (recordFault c d s).mon = s.mon ∧ (recordFault c d s).health = s.health ∧
    (recordFault c d s).dbg = s.dbg ∧ (recordFault c d s).flash = s.flash ∧ (recordFault c d s).cv = s.cv ∧
    (recordFault c d s).sedge = s.sedge := by
  exact ⟨rfl, rfl, rfl, rfl, rfl, rfl, rfl, rfl, rfl, rfl, rfl, rfl, rfl, rfl, rfl, rfl, rfl, rfl, rfl, rfl, rfl, rfl, rfl, rfl, rfl, rfl, rfl⟩

/-- A new phase writes the sequencer and the cause STATE. -/
@[simp] theorem setPhase_frame (p : Phase) (s : State) :
    (setPhase p s).pending = s.pending ∧ (setPhase p s).ident = s.ident ∧ (setPhase p s).time = s.time ∧
    (setPhase p s).pins = s.pins ∧ (setPhase p s).aon = s.aon ∧ (setPhase p s).win = s.win ∧ (setPhase p s).q = s.q ∧
    (setPhase p s).reply = s.reply ∧ (setPhase p s).line = s.line ∧ (setPhase p s).fe = s.fe ∧
    (setPhase p s).eq = s.eq ∧ (setPhase p s).tx = s.tx ∧ (setPhase p s).fec = s.fec ∧ (setPhase p s).tf = s.tf ∧
    (setPhase p s).tribs = s.tribs ∧ (setPhase p s).ciph = s.ciph ∧ (setPhase p s).mm = s.mm ∧
    (setPhase p s).hl = s.hl ∧ (setPhase p s).ref = s.ref ∧ (setPhase p s).hs = s.hs ∧ (setPhase p s).cal = s.cal ∧
    (setPhase p s).mon = s.mon ∧ (setPhase p s).health = s.health ∧ (setPhase p s).dbg = s.dbg ∧
    (setPhase p s).flash = s.flash ∧ (setPhase p s).cv = s.cv ∧ (setPhase p s).sedge = s.sedge := by
  unfold setPhase
  split <;> exact ⟨rfl, rfl, rfl, rfl, rfl, rfl, rfl, rfl, rfl, rfl, rfl, rfl, rfl, rfl, rfl, rfl, rfl, rfl, rfl, rfl, rfl, rfl, rfl, rfl, rfl, rfl, rfl⟩

/-- READY and the cause STATE are HIF_ state. -/
@[simp] theorem setReady_frame (b : Bool) (s : State) :
    (setReady b s).pending = s.pending ∧ (setReady b s).ident = s.ident ∧ (setReady b s).time = s.time ∧
    (setReady b s).pins = s.pins ∧ (setReady b s).aon = s.aon ∧ (setReady b s).win = s.win ∧ (setReady b s).q = s.q ∧
    (setReady b s).reply = s.reply ∧ (setReady b s).pwr = s.pwr ∧ (setReady b s).line = s.line ∧
    (setReady b s).fe = s.fe ∧ (setReady b s).eq = s.eq ∧ (setReady b s).tx = s.tx ∧ (setReady b s).fec = s.fec ∧
    (setReady b s).tf = s.tf ∧ (setReady b s).tribs = s.tribs ∧ (setReady b s).ciph = s.ciph ∧
    (setReady b s).mm = s.mm ∧ (setReady b s).hl = s.hl ∧ (setReady b s).ref = s.ref ∧ (setReady b s).hs = s.hs ∧
    (setReady b s).cal = s.cal ∧ (setReady b s).mon = s.mon ∧ (setReady b s).health = s.health ∧
    (setReady b s).dbg = s.dbg ∧ (setReady b s).flash = s.flash ∧ (setReady b s).cv = s.cv ∧
    (setReady b s).sedge = s.sedge := by
  unfold setReady
  split <;> exact ⟨rfl, rfl, rfl, rfl, rfl, rfl, rfl, rfl, rfl, rfl, rfl, rfl, rfl, rfl, rfl, rfl, rfl, rfl, rfl, rfl, rfl, rfl, rfl, rfl, rfl, rfl, rfl, rfl⟩

/-- A staged entry. -/
@[simp] theorem stageEntry_frame (t : Nat) (c : Half) (e : Option Half) (d : List Byte) (s : State) :
    (stageEntry t c e d s).pending = s.pending ∧ (stageEntry t c e d s).ident = s.ident ∧
    (stageEntry t c e d s).time = s.time ∧ (stageEntry t c e d s).pins = s.pins ∧
    (stageEntry t c e d s).hif = s.hif ∧ (stageEntry t c e d s).win = s.win ∧ (stageEntry t c e d s).q = s.q ∧
    (stageEntry t c e d s).reply = s.reply ∧ (stageEntry t c e d s).pwr = s.pwr ∧
    (stageEntry t c e d s).line = s.line ∧ (stageEntry t c e d s).fe = s.fe ∧ (stageEntry t c e d s).eq = s.eq ∧
    (stageEntry t c e d s).tx = s.tx ∧ (stageEntry t c e d s).fec = s.fec ∧ (stageEntry t c e d s).tf = s.tf ∧
    (stageEntry t c e d s).tribs = s.tribs ∧ (stageEntry t c e d s).ciph = s.ciph ∧
    (stageEntry t c e d s).mm = s.mm ∧ (stageEntry t c e d s).hl = s.hl ∧ (stageEntry t c e d s).ref = s.ref ∧
    (stageEntry t c e d s).hs = s.hs ∧ (stageEntry t c e d s).cal = s.cal ∧ (stageEntry t c e d s).mon = s.mon ∧
    (stageEntry t c e d s).health = s.health ∧ (stageEntry t c e d s).dbg = s.dbg ∧
    (stageEntry t c e d s).cv = s.cv ∧ (stageEntry t c e d s).sedge = s.sedge := by
  exact ⟨rfl, rfl, rfl, rfl, rfl, rfl, rfl, rfl, rfl, rfl, rfl, rfl, rfl, rfl, rfl, rfl, rfl, rfl, rfl, rfl, rfl, rfl, rfl, rfl, rfl, rfl, rfl⟩

/-- Retired blocks are logged one after another. -/
theorem retireNotes_frame : ∀ (bs : List Nat) (s : State),
    (bs.foldl retireNote s).pending = s.pending ∧ (bs.foldl retireNote s).ident = s.ident ∧
    (bs.foldl retireNote s).time = s.time ∧ (bs.foldl retireNote s).pins = s.pins ∧
    (bs.foldl retireNote s).hif = s.hif ∧ (bs.foldl retireNote s).win = s.win ∧ (bs.foldl retireNote s).q = s.q ∧
    (bs.foldl retireNote s).reply = s.reply ∧ (bs.foldl retireNote s).pwr = s.pwr ∧
    (bs.foldl retireNote s).line = s.line ∧ (bs.foldl retireNote s).fe = s.fe ∧ (bs.foldl retireNote s).eq = s.eq ∧
    (bs.foldl retireNote s).tx = s.tx ∧ (bs.foldl retireNote s).fec = s.fec ∧ (bs.foldl retireNote s).tf = s.tf ∧
    (bs.foldl retireNote s).tribs = s.tribs ∧ (bs.foldl retireNote s).ciph = s.ciph ∧
    (bs.foldl retireNote s).mm = s.mm ∧ (bs.foldl retireNote s).hl = s.hl ∧ (bs.foldl retireNote s).ref = s.ref ∧
    (bs.foldl retireNote s).hs = s.hs ∧ (bs.foldl retireNote s).cal = s.cal ∧ (bs.foldl retireNote s).mon = s.mon ∧
    (bs.foldl retireNote s).health = s.health ∧ (bs.foldl retireNote s).dbg = s.dbg ∧
    (bs.foldl retireNote s).cv = s.cv ∧ (bs.foldl retireNote s).sedge = s.sedge
  | [], _ => ⟨rfl, rfl, rfl, rfl, rfl, rfl, rfl, rfl, rfl, rfl, rfl, rfl, rfl, rfl, rfl, rfl, rfl, rfl, rfl, rfl, rfl, rfl, rfl, rfl, rfl, rfl, rfl⟩
  | b :: t, s => by simpa [retireNote] using retireNotes_frame t (retireNote s b)

/-- LOGSTAGE moves within the flash; blocks that this retires are logged. -/
@[simp] theorem flushEntries_frame (n : Nat) (s : State) :
    (flushEntries n s).pending = s.pending ∧ (flushEntries n s).ident = s.ident ∧ (flushEntries n s).time = s.time ∧
    (flushEntries n s).pins = s.pins ∧ (flushEntries n s).hif = s.hif ∧ (flushEntries n s).win = s.win ∧
    (flushEntries n s).q = s.q ∧ (flushEntries n s).reply = s.reply ∧ (flushEntries n s).pwr = s.pwr ∧
    (flushEntries n s).line = s.line ∧ (flushEntries n s).fe = s.fe ∧ (flushEntries n s).eq = s.eq ∧
    (flushEntries n s).tx = s.tx ∧ (flushEntries n s).fec = s.fec ∧ (flushEntries n s).tf = s.tf ∧
    (flushEntries n s).tribs = s.tribs ∧ (flushEntries n s).ciph = s.ciph ∧ (flushEntries n s).mm = s.mm ∧
    (flushEntries n s).hl = s.hl ∧ (flushEntries n s).ref = s.ref ∧ (flushEntries n s).hs = s.hs ∧
    (flushEntries n s).cal = s.cal ∧ (flushEntries n s).mon = s.mon ∧ (flushEntries n s).health = s.health ∧
    (flushEntries n s).dbg = s.dbg ∧ (flushEntries n s).cv = s.cv ∧ (flushEntries n s).sedge = s.sedge :=
  retireNotes_frame _ _

/-- So does the whole of it. -/
@[simp] theorem flushLog_frame (s : State) :
    (flushLog s).pending = s.pending ∧ (flushLog s).ident = s.ident ∧ (flushLog s).time = s.time ∧
    (flushLog s).pins = s.pins ∧ (flushLog s).hif = s.hif ∧ (flushLog s).win = s.win ∧ (flushLog s).q = s.q ∧
    (flushLog s).reply = s.reply ∧ (flushLog s).pwr = s.pwr ∧ (flushLog s).line = s.line ∧ (flushLog s).fe = s.fe ∧
    (flushLog s).eq = s.eq ∧ (flushLog s).tx = s.tx ∧ (flushLog s).fec = s.fec ∧ (flushLog s).tf = s.tf ∧
    (flushLog s).tribs = s.tribs ∧ (flushLog s).ciph = s.ciph ∧ (flushLog s).mm = s.mm ∧ (flushLog s).hl = s.hl ∧
    (flushLog s).ref = s.ref ∧ (flushLog s).hs = s.hs ∧ (flushLog s).cal = s.cal ∧ (flushLog s).mon = s.mon ∧
    (flushLog s).health = s.health ∧ (flushLog s).dbg = s.dbg ∧ (flushLog s).cv = s.cv ∧ (flushLog s).sedge = s.sedge :=
  flushEntries_frame _ _

/-- A log entry writes the log and its highest number. -/
@[simp] theorem logEntry_frame (t : Nat) (c : Half) (e : Option Half) (d : List Byte) (s : State) :
    (logEntry t c e d s).pending = s.pending ∧ (logEntry t c e d s).ident = s.ident ∧
    (logEntry t c e d s).time = s.time ∧ (logEntry t c e d s).pins = s.pins ∧ (logEntry t c e d s).hif = s.hif ∧
    (logEntry t c e d s).win = s.win ∧ (logEntry t c e d s).q = s.q ∧ (logEntry t c e d s).reply = s.reply ∧
    (logEntry t c e d s).pwr = s.pwr ∧ (logEntry t c e d s).line = s.line ∧ (logEntry t c e d s).fe = s.fe ∧
    (logEntry t c e d s).eq = s.eq ∧ (logEntry t c e d s).tx = s.tx ∧ (logEntry t c e d s).fec = s.fec ∧
    (logEntry t c e d s).tf = s.tf ∧ (logEntry t c e d s).tribs = s.tribs ∧ (logEntry t c e d s).ciph = s.ciph ∧
    (logEntry t c e d s).mm = s.mm ∧ (logEntry t c e d s).hl = s.hl ∧ (logEntry t c e d s).ref = s.ref ∧
    (logEntry t c e d s).hs = s.hs ∧ (logEntry t c e d s).cal = s.cal ∧ (logEntry t c e d s).mon = s.mon ∧
    (logEntry t c e d s).health = s.health ∧ (logEntry t c e d s).dbg = s.dbg ∧ (logEntry t c e d s).cv = s.cv ∧
    (logEntry t c e d s).sedge = s.sedge := by
  unfold logEntry
  dsimp only
  split
  · simp
  · split <;> simp

/-- An entry of the notification ring. -/
@[simp] theorem nqPut_frame (b : List Byte) (s : State) :
    (nqPut b s).pending = s.pending ∧ (nqPut b s).ident = s.ident ∧ (nqPut b s).time = s.time ∧
    (nqPut b s).pins = s.pins ∧ (nqPut b s).aon = s.aon ∧ (nqPut b s).q = s.q ∧ (nqPut b s).reply = s.reply ∧
    (nqPut b s).pwr = s.pwr ∧ (nqPut b s).line = s.line ∧ (nqPut b s).fe = s.fe ∧ (nqPut b s).eq = s.eq ∧
    (nqPut b s).tx = s.tx ∧ (nqPut b s).fec = s.fec ∧ (nqPut b s).tf = s.tf ∧ (nqPut b s).tribs = s.tribs ∧
    (nqPut b s).ciph = s.ciph ∧ (nqPut b s).mm = s.mm ∧ (nqPut b s).hl = s.hl ∧ (nqPut b s).ref = s.ref ∧
    (nqPut b s).hs = s.hs ∧ (nqPut b s).cal = s.cal ∧ (nqPut b s).mon = s.mon ∧ (nqPut b s).health = s.health ∧
    (nqPut b s).dbg = s.dbg ∧ (nqPut b s).flash = s.flash ∧ (nqPut b s).cv = s.cv ∧ (nqPut b s).sedge = s.sedge := by
  exact ⟨rfl, rfl, rfl, rfl, rfl, rfl, rfl, rfl, rfl, rfl, rfl, rfl, rfl, rfl, rfl, rfl, rfl, rfl, rfl, rfl, rfl, rfl, rfl, rfl, rfl, rfl, rfl⟩

/-- A delivery writes the ring, the backlog or the log. -/
@[simp] theorem deliver_frame (m : Note) (l u : Bool) (s : State) :
    (deliver m l u s).pending = s.pending ∧ (deliver m l u s).ident = s.ident ∧ (deliver m l u s).time = s.time ∧
    (deliver m l u s).pins = s.pins ∧ (deliver m l u s).reply = s.reply ∧ (deliver m l u s).pwr = s.pwr ∧
    (deliver m l u s).line = s.line ∧ (deliver m l u s).fe = s.fe ∧ (deliver m l u s).eq = s.eq ∧
    (deliver m l u s).tx = s.tx ∧ (deliver m l u s).fec = s.fec ∧ (deliver m l u s).tf = s.tf ∧
    (deliver m l u s).tribs = s.tribs ∧ (deliver m l u s).ciph = s.ciph ∧ (deliver m l u s).mm = s.mm ∧
    (deliver m l u s).hl = s.hl ∧ (deliver m l u s).ref = s.ref ∧ (deliver m l u s).hs = s.hs ∧
    (deliver m l u s).cal = s.cal ∧ (deliver m l u s).mon = s.mon ∧ (deliver m l u s).health = s.health ∧
    (deliver m l u s).dbg = s.dbg ∧ (deliver m l u s).cv = s.cv ∧ (deliver m l u s).sedge = s.sedge := by
  unfold deliver
  dsimp only
  split
  · simp
  · split <;> simp

/-- A notification is held or delivered. -/
@[simp] theorem notifyAt_frame (e c : Half) (b : Option Bool) (d : List Byte) (t : Lts) (s : State) :
    (notifyAt e c b d t s).pending = s.pending ∧ (notifyAt e c b d t s).ident = s.ident ∧
    (notifyAt e c b d t s).time = s.time ∧ (notifyAt e c b d t s).pins = s.pins ∧
    (notifyAt e c b d t s).reply = s.reply ∧ (notifyAt e c b d t s).pwr = s.pwr ∧
    (notifyAt e c b d t s).line = s.line ∧ (notifyAt e c b d t s).fe = s.fe ∧ (notifyAt e c b d t s).eq = s.eq ∧
    (notifyAt e c b d t s).tx = s.tx ∧ (notifyAt e c b d t s).fec = s.fec ∧ (notifyAt e c b d t s).tf = s.tf ∧
    (notifyAt e c b d t s).tribs = s.tribs ∧ (notifyAt e c b d t s).ciph = s.ciph ∧
    (notifyAt e c b d t s).mm = s.mm ∧ (notifyAt e c b d t s).hl = s.hl ∧ (notifyAt e c b d t s).ref = s.ref ∧
    (notifyAt e c b d t s).hs = s.hs ∧ (notifyAt e c b d t s).cal = s.cal ∧ (notifyAt e c b d t s).mon = s.mon ∧
    (notifyAt e c b d t s).health = s.health ∧ (notifyAt e c b d t s).dbg = s.dbg ∧
    (notifyAt e c b d t s).cv = s.cv ∧ (notifyAt e c b d t s).sedge = s.sedge := by
  unfold notifyAt
  dsimp only
  split
  · simp
  · split
    · simp
    · split <;> simp

/-- A notification of the present. -/
@[simp] theorem notify_frame (e c : Half) (b : Option Bool) (d : List Byte) (s : State) :
    (notify e c b d s).pending = s.pending ∧ (notify e c b d s).ident = s.ident ∧ (notify e c b d s).time = s.time ∧
    (notify e c b d s).pins = s.pins ∧ (notify e c b d s).reply = s.reply ∧ (notify e c b d s).pwr = s.pwr ∧
    (notify e c b d s).line = s.line ∧ (notify e c b d s).fe = s.fe ∧ (notify e c b d s).eq = s.eq ∧
    (notify e c b d s).tx = s.tx ∧ (notify e c b d s).fec = s.fec ∧ (notify e c b d s).tf = s.tf ∧
    (notify e c b d s).tribs = s.tribs ∧ (notify e c b d s).ciph = s.ciph ∧ (notify e c b d s).mm = s.mm ∧
    (notify e c b d s).hl = s.hl ∧ (notify e c b d s).ref = s.ref ∧ (notify e c b d s).hs = s.hs ∧
    (notify e c b d s).cal = s.cal ∧ (notify e c b d s).mon = s.mon ∧ (notify e c b d s).health = s.health ∧
    (notify e c b d s).dbg = s.dbg ∧ (notify e c b d s).cv = s.cv ∧ (notify e c b d s).sedge = s.sedge := by
  simp [notify]

/-- A draw counts itself. -/
@[simp] theorem nextDraw_frame (s : State) :
    (nextDraw s).pending = s.pending ∧ (nextDraw s).ident = s.ident ∧ (nextDraw s).pins = s.pins ∧
    (nextDraw s).hif = s.hif ∧ (nextDraw s).aon = s.aon ∧ (nextDraw s).win = s.win ∧ (nextDraw s).q = s.q ∧
    (nextDraw s).reply = s.reply ∧ (nextDraw s).pwr = s.pwr ∧ (nextDraw s).line = s.line ∧ (nextDraw s).fe = s.fe ∧
    (nextDraw s).eq = s.eq ∧ (nextDraw s).tx = s.tx ∧ (nextDraw s).fec = s.fec ∧ (nextDraw s).tf = s.tf ∧
    (nextDraw s).tribs = s.tribs ∧ (nextDraw s).ciph = s.ciph ∧ (nextDraw s).mm = s.mm ∧ (nextDraw s).hl = s.hl ∧
    (nextDraw s).ref = s.ref ∧ (nextDraw s).hs = s.hs ∧ (nextDraw s).cal = s.cal ∧ (nextDraw s).mon = s.mon ∧
    (nextDraw s).health = s.health ∧ (nextDraw s).dbg = s.dbg ∧ (nextDraw s).flash = s.flash ∧
    (nextDraw s).cv = s.cv ∧ (nextDraw s).sedge = s.sedge := by
  exact ⟨rfl, rfl, rfl, rfl, rfl, rfl, rfl, rfl, rfl, rfl, rfl, rfl, rfl, rfl, rfl, rfl, rfl, rfl, rfl, rfl, rfl, rfl, rfl, rfl, rfl, rfl, rfl, rfl⟩

/-- A draw of several values counts them. -/
@[simp] theorem drawMany_frame (k : Nat) (s : State) :
    (drawMany k s).pending = s.pending ∧ (drawMany k s).ident = s.ident ∧ (drawMany k s).pins = s.pins ∧
    (drawMany k s).hif = s.hif ∧ (drawMany k s).aon = s.aon ∧ (drawMany k s).win = s.win ∧ (drawMany k s).q = s.q ∧
    (drawMany k s).reply = s.reply ∧ (drawMany k s).pwr = s.pwr ∧ (drawMany k s).line = s.line ∧
    (drawMany k s).fe = s.fe ∧ (drawMany k s).eq = s.eq ∧ (drawMany k s).tx = s.tx ∧ (drawMany k s).fec = s.fec ∧
    (drawMany k s).tf = s.tf ∧ (drawMany k s).tribs = s.tribs ∧ (drawMany k s).ciph = s.ciph ∧
    (drawMany k s).mm = s.mm ∧ (drawMany k s).hl = s.hl ∧ (drawMany k s).ref = s.ref ∧ (drawMany k s).hs = s.hs ∧
    (drawMany k s).cal = s.cal ∧ (drawMany k s).mon = s.mon ∧ (drawMany k s).health = s.health ∧
    (drawMany k s).dbg = s.dbg ∧ (drawMany k s).flash = s.flash ∧ (drawMany k s).cv = s.cv ∧
    (drawMany k s).sedge = s.sedge := by
  exact ⟨rfl, rfl, rfl, rfl, rfl, rfl, rfl, rfl, rfl, rfl, rfl, rfl, rfl, rfl, rfl, rfl, rfl, rfl, rfl, rfl, rfl, rfl, rfl, rfl, rfl, rfl, rfl, rfl⟩

/-- HIF_BUF_BUSY follows the records. -/
@[simp] theorem setBusy_frame (s : State) :
    (setBusy s).pending = s.pending ∧ (setBusy s).ident = s.ident ∧ (setBusy s).time = s.time ∧
    (setBusy s).pins = s.pins ∧ (setBusy s).aon = s.aon ∧ (setBusy s).win = s.win ∧ (setBusy s).q = s.q ∧
    (setBusy s).reply = s.reply ∧ (setBusy s).pwr = s.pwr ∧ (setBusy s).line = s.line ∧ (setBusy s).fe = s.fe ∧
    (setBusy s).eq = s.eq ∧ (setBusy s).tx = s.tx ∧ (setBusy s).fec = s.fec ∧ (setBusy s).tf = s.tf ∧
    (setBusy s).tribs = s.tribs ∧ (setBusy s).ciph = s.ciph ∧ (setBusy s).mm = s.mm ∧ (setBusy s).hl = s.hl ∧
    (setBusy s).ref = s.ref ∧ (setBusy s).hs = s.hs ∧ (setBusy s).cal = s.cal ∧ (setBusy s).mon = s.mon ∧
    (setBusy s).health = s.health ∧ (setBusy s).dbg = s.dbg ∧ (setBusy s).flash = s.flash ∧ (setBusy s).cv = s.cv ∧
    (setBusy s).sedge = s.sedge := by
  exact ⟨rfl, rfl, rfl, rfl, rfl, rfl, rfl, rfl, rfl, rfl, rfl, rfl, rfl, rfl, rfl, rfl, rfl, rfl, rfl, rfl, rfl, rfl, rfl, rfl, rfl, rfl, rfl, rfl⟩

/-- An answered command. -/
@[simp] theorem closeTag_frame (t : Half) (b : Bool) (s : State) :
    (closeTag t b s).pending = s.pending ∧ (closeTag t b s).ident = s.ident ∧ (closeTag t b s).time = s.time ∧
    (closeTag t b s).pins = s.pins ∧ (closeTag t b s).aon = s.aon ∧ (closeTag t b s).win = s.win ∧
    (closeTag t b s).reply = s.reply ∧ (closeTag t b s).pwr = s.pwr ∧ (closeTag t b s).line = s.line ∧
    (closeTag t b s).fe = s.fe ∧ (closeTag t b s).eq = s.eq ∧ (closeTag t b s).tx = s.tx ∧
    (closeTag t b s).fec = s.fec ∧ (closeTag t b s).tf = s.tf ∧ (closeTag t b s).tribs = s.tribs ∧
    (closeTag t b s).ciph = s.ciph ∧ (closeTag t b s).mm = s.mm ∧ (closeTag t b s).hl = s.hl ∧
    (closeTag t b s).ref = s.ref ∧ (closeTag t b s).hs = s.hs ∧ (closeTag t b s).cal = s.cal ∧
    (closeTag t b s).mon = s.mon ∧ (closeTag t b s).health = s.health ∧ (closeTag t b s).dbg = s.dbg ∧
    (closeTag t b s).flash = s.flash ∧ (closeTag t b s).cv = s.cv ∧ (closeTag t b s).sedge = s.sedge := by
  exact ⟨rfl, rfl, rfl, rfl, rfl, rfl, rfl, rfl, rfl, rfl, rfl, rfl, rfl, rfl, rfl, rfl, rfl, rfl, rfl, rfl, rfl, rfl, rfl, rfl, rfl, rfl, rfl⟩

/-- An entry of the response ring. -/
@[simp] theorem rqPut_frame (t : Half) (b : List Byte) (s : State) :
    (rqPut t b s).pending = s.pending ∧ (rqPut t b s).ident = s.ident ∧ (rqPut t b s).time = s.time ∧
    (rqPut t b s).pins = s.pins ∧ (rqPut t b s).aon = s.aon ∧ (rqPut t b s).reply = s.reply ∧
    (rqPut t b s).pwr = s.pwr ∧ (rqPut t b s).line = s.line ∧ (rqPut t b s).fe = s.fe ∧ (rqPut t b s).eq = s.eq ∧
    (rqPut t b s).tx = s.tx ∧ (rqPut t b s).fec = s.fec ∧ (rqPut t b s).tf = s.tf ∧ (rqPut t b s).tribs = s.tribs ∧
    (rqPut t b s).ciph = s.ciph ∧ (rqPut t b s).mm = s.mm ∧ (rqPut t b s).hl = s.hl ∧ (rqPut t b s).ref = s.ref ∧
    (rqPut t b s).hs = s.hs ∧ (rqPut t b s).cal = s.cal ∧ (rqPut t b s).mon = s.mon ∧
    (rqPut t b s).health = s.health ∧ (rqPut t b s).dbg = s.dbg ∧ (rqPut t b s).flash = s.flash ∧
    (rqPut t b s).cv = s.cv ∧ (rqPut t b s).sedge = s.sedge := by
  exact ⟨rfl, rfl, rfl, rfl, rfl, rfl, rfl, rfl, rfl, rfl, rfl, rfl, rfl, rfl, rfl, rfl, rfl, rfl, rfl, rfl, rfl, rfl, rfl, rfl, rfl, rfl⟩

/-- A response is written or waits. -/
@[simp] theorem rspWrite_frame (t : Half) (b : List Byte) (s : State) :
    (rspWrite t b s).pending = s.pending ∧ (rspWrite t b s).ident = s.ident ∧ (rspWrite t b s).time = s.time ∧
    (rspWrite t b s).pins = s.pins ∧ (rspWrite t b s).aon = s.aon ∧ (rspWrite t b s).reply = s.reply ∧
    (rspWrite t b s).pwr = s.pwr ∧ (rspWrite t b s).line = s.line ∧ (rspWrite t b s).fe = s.fe ∧
    (rspWrite t b s).eq = s.eq ∧ (rspWrite t b s).tx = s.tx ∧ (rspWrite t b s).fec = s.fec ∧
    (rspWrite t b s).tf = s.tf ∧ (rspWrite t b s).tribs = s.tribs ∧ (rspWrite t b s).ciph = s.ciph ∧
    (rspWrite t b s).mm = s.mm ∧ (rspWrite t b s).hl = s.hl ∧ (rspWrite t b s).ref = s.ref ∧
    (rspWrite t b s).hs = s.hs ∧ (rspWrite t b s).cal = s.cal ∧ (rspWrite t b s).mon = s.mon ∧
    (rspWrite t b s).health = s.health ∧ (rspWrite t b s).dbg = s.dbg ∧ (rspWrite t b s).flash = s.flash ∧
    (rspWrite t b s).cv = s.cv ∧ (rspWrite t b s).sedge = s.sedge := by
  unfold rspWrite
  split <;> simp

/-- Result data go to the window. -/
@[simp] theorem putOut_frame (h : Hdr) (o : Option (List Byte)) (s : State) :
    (putOut h o s).pending = s.pending ∧ (putOut h o s).ident = s.ident ∧ (putOut h o s).time = s.time ∧
    (putOut h o s).pins = s.pins ∧ (putOut h o s).hif = s.hif ∧ (putOut h o s).aon = s.aon ∧ (putOut h o s).q = s.q ∧
    (putOut h o s).reply = s.reply ∧ (putOut h o s).pwr = s.pwr ∧ (putOut h o s).line = s.line ∧
    (putOut h o s).fe = s.fe ∧ (putOut h o s).eq = s.eq ∧ (putOut h o s).tx = s.tx ∧ (putOut h o s).fec = s.fec ∧
    (putOut h o s).tf = s.tf ∧ (putOut h o s).tribs = s.tribs ∧ (putOut h o s).ciph = s.ciph ∧
    (putOut h o s).mm = s.mm ∧ (putOut h o s).hl = s.hl ∧ (putOut h o s).ref = s.ref ∧ (putOut h o s).hs = s.hs ∧
    (putOut h o s).cal = s.cal ∧ (putOut h o s).mon = s.mon ∧ (putOut h o s).health = s.health ∧
    (putOut h o s).dbg = s.dbg ∧ (putOut h o s).flash = s.flash ∧ (putOut h o s).cv = s.cv ∧
    (putOut h o s).sedge = s.sedge := by
  unfold putOut
  split <;> simp

/-- A response writes the window, the rings and the queues. -/
@[simp] theorem respond_frame (op : Nat) (h : Hdr) (c : St) (r : List Byte) (o : Option (List Byte)) (s : State) :
    (respond op h c r o s).pending = s.pending ∧ (respond op h c r o s).ident = s.ident ∧
    (respond op h c r o s).time = s.time ∧ (respond op h c r o s).pins = s.pins ∧
    (respond op h c r o s).aon = s.aon ∧ (respond op h c r o s).reply = s.reply ∧
    (respond op h c r o s).pwr = s.pwr ∧ (respond op h c r o s).line = s.line ∧ (respond op h c r o s).fe = s.fe ∧
    (respond op h c r o s).eq = s.eq ∧ (respond op h c r o s).tx = s.tx ∧ (respond op h c r o s).fec = s.fec ∧
    (respond op h c r o s).tf = s.tf ∧ (respond op h c r o s).tribs = s.tribs ∧
    (respond op h c r o s).ciph = s.ciph ∧ (respond op h c r o s).mm = s.mm ∧ (respond op h c r o s).hl = s.hl ∧
    (respond op h c r o s).ref = s.ref ∧ (respond op h c r o s).hs = s.hs ∧ (respond op h c r o s).cal = s.cal ∧
    (respond op h c r o s).mon = s.mon ∧ (respond op h c r o s).health = s.health ∧
    (respond op h c r o s).dbg = s.dbg ∧ (respond op h c r o s).flash = s.flash ∧ (respond op h c r o s).cv = s.cv ∧
    (respond op h c r o s).sedge = s.sedge := by
  unfold respond
  dsimp only
  split <;> simp

/-- A refusal is a response. -/
@[simp] theorem refuse_frame (op : Nat) (h : Hdr) (c : St) (s : State) :
    (refuse op h c s).pending = s.pending ∧ (refuse op h c s).ident = s.ident ∧ (refuse op h c s).time = s.time ∧
    (refuse op h c s).pins = s.pins ∧ (refuse op h c s).aon = s.aon ∧ (refuse op h c s).reply = s.reply ∧
    (refuse op h c s).pwr = s.pwr ∧ (refuse op h c s).line = s.line ∧ (refuse op h c s).fe = s.fe ∧
    (refuse op h c s).eq = s.eq ∧ (refuse op h c s).tx = s.tx ∧ (refuse op h c s).fec = s.fec ∧
    (refuse op h c s).tf = s.tf ∧ (refuse op h c s).tribs = s.tribs ∧ (refuse op h c s).ciph = s.ciph ∧
    (refuse op h c s).mm = s.mm ∧ (refuse op h c s).hl = s.hl ∧ (refuse op h c s).ref = s.ref ∧
    (refuse op h c s).hs = s.hs ∧ (refuse op h c s).cal = s.cal ∧ (refuse op h c s).mon = s.mon ∧
    (refuse op h c s).health = s.health ∧ (refuse op h c s).dbg = s.dbg ∧ (refuse op h c s).flash = s.flash ∧
    (refuse op h c s).cv = s.cv ∧ (refuse op h c s).sedge = s.sedge := by
  simp [refuse]

/-- So is a bare OK. -/
@[simp] theorem done_frame (op : Nat) (h : Hdr) (s : State) :
    (done op h s).pending = s.pending ∧ (done op h s).ident = s.ident ∧ (done op h s).time = s.time ∧
    (done op h s).pins = s.pins ∧ (done op h s).aon = s.aon ∧ (done op h s).reply = s.reply ∧
    (done op h s).pwr = s.pwr ∧ (done op h s).line = s.line ∧ (done op h s).fe = s.fe ∧ (done op h s).eq = s.eq ∧
    (done op h s).tx = s.tx ∧ (done op h s).fec = s.fec ∧ (done op h s).tf = s.tf ∧ (done op h s).tribs = s.tribs ∧
    (done op h s).ciph = s.ciph ∧ (done op h s).mm = s.mm ∧ (done op h s).hl = s.hl ∧ (done op h s).ref = s.ref ∧
    (done op h s).hs = s.hs ∧ (done op h s).cal = s.cal ∧ (done op h s).mon = s.mon ∧
    (done op h s).health = s.health ∧ (done op h s).dbg = s.dbg ∧ (done op h s).flash = s.flash ∧
    (done op h s).cv = s.cv ∧ (done op h s).sedge = s.sedge := by
  simp [done]

/-- So is an OK with fields. -/
@[simp] theorem reply_frame (op : Nat) (h : Hdr) (fs : List (Nat × List Byte)) (s : State) :
    (reply op h fs s).pending = s.pending ∧ (reply op h fs s).ident = s.ident ∧ (reply op h fs s).time = s.time ∧
    (reply op h fs s).pins = s.pins ∧ (reply op h fs s).aon = s.aon ∧ (reply op h fs s).reply = s.reply ∧
    (reply op h fs s).pwr = s.pwr ∧ (reply op h fs s).line = s.line ∧ (reply op h fs s).fe = s.fe ∧
    (reply op h fs s).eq = s.eq ∧ (reply op h fs s).tx = s.tx ∧ (reply op h fs s).fec = s.fec ∧
    (reply op h fs s).tf = s.tf ∧ (reply op h fs s).tribs = s.tribs ∧ (reply op h fs s).ciph = s.ciph ∧
    (reply op h fs s).mm = s.mm ∧ (reply op h fs s).hl = s.hl ∧ (reply op h fs s).ref = s.ref ∧
    (reply op h fs s).hs = s.hs ∧ (reply op h fs s).cal = s.cal ∧ (reply op h fs s).mon = s.mon ∧
    (reply op h fs s).health = s.health ∧ (reply op h fs s).dbg = s.dbg ∧ (reply op h fs s).flash = s.flash ∧
    (reply op h fs s).cv = s.cv ∧ (reply op h fs s).sedge = s.sedge := by
  simp [reply]

/-- Waiting responses enter the ring. -/
theorem drainResponses_frame : ∀ (n : Nat) (s : State),
    (drainResponses n s).pwr = s.pwr ∧ (drainResponses n s).line = s.line ∧ (drainResponses n s).time = s.time ∧
      (drainResponses n s).hl = s.hl ∧ (drainResponses n s).hs = s.hs ∧ (drainResponses n s).flash = s.flash
  | 0, s => by simp [drainResponses]
  | n + 1, s => by
    unfold drainResponses
    split
    · simp
    · split
      · refine ⟨?_, ?_, ?_, ?_, ?_, ?_⟩ <;> simp [drainResponses_frame n]
      · simp

end Sys2Proof.Machine
end

