-- ==== Sys2Proof/Laws/Memory.lean ====
section
/-! SUPPORT. The laws of the sparse memories: every write keeps the canonical form, a read after a write gives what was written,
and a write leaves every other address alone. -/
namespace Sys2Proof.Machine

open Sys2Proof

theorem memWfFrom_mono {d : Byte} {lo lo' : Nat} (h : lo' ≤ lo) :
    ∀ {m : List Host.Cell}, memWfFrom d lo m = true → memWfFrom d lo' m = true
  | [], _ => rfl
  | c :: t, hm => by
    simp only [memWfFrom, Bool.and_eq_true, decide_eq_true_eq] at hm ⊢
    exact ⟨⟨le_trans h hm.1.1, hm.1.2⟩, hm.2⟩

/-- A write keeps the canonical form from any bound not above its address. -/
theorem memWrite_wfFrom {d : Byte} (a : Nat) (b : Byte) :
    ∀ {lo : Nat} {m : List Host.Cell}, lo ≤ a → memWfFrom d lo m = true → memWfFrom d lo (memWrite d m a b) = true
  | lo, [], hlo, _ => by
    by_cases hb : b = d <;> simp [memWrite, memWfFrom, hb, hlo]
  | lo, c :: t, hlo, hm => by
    simp only [memWfFrom, Bool.and_eq_true, decide_eq_true_eq] at hm
    obtain ⟨⟨h1, h2⟩, h3⟩ := hm
    by_cases hc : c.1 = a
    · by_cases hb : b = d
      · simp only [memWrite, hc, hb, if_true]
        exact memWfFrom_mono (by omega) h3
      · simp only [memWrite, hc, hb, if_true, if_false]
        simp [memWfFrom, hlo, hb, ← hc, h3, h1]
    · by_cases hlt : a < c.1
      · by_cases hb : b = d
        · simp [memWrite, hc, hlt, hb, memWfFrom, h1, h2, h3]
        · simp [memWrite, hc, hlt, hb, memWfFrom, hlo, h2, h3, Nat.succ_le_of_lt hlt]
      · have ih := memWrite_wfFrom a b (m := t) (by omega : c.1 + 1 ≤ a) h3
        simp [memWrite, hc, hlt, memWfFrom, h1, h2, ih]

/-- A write keeps the canonical form. -/
theorem memWrite_wf {d : Byte} {m : List Host.Cell} (a : Nat) (b : Byte) (h : memWf d m = true) :
    memWf d (memWrite d m a b) = true := memWrite_wfFrom a b (Nat.zero_le a) h

/-- Writes of several bytes keep the canonical form. -/
theorem memWriteN_wf {d : Byte} : ∀ (bs : List Byte) {m : List Host.Cell} (a : Nat), memWf d m = true →
    memWf d (memWriteN d m a bs) = true
  | [], _, _, h => h
  | b :: t, _, a, h => memWriteN_wf t (a + 1) (memWrite_wf a b h)

/-- Removing entries keeps the canonical form. -/
theorem memFilter_wfFrom {d : Byte} (p : Host.Cell → Bool) :
    ∀ {lo : Nat} {m : List Host.Cell}, memWfFrom d lo m = true → memWfFrom d lo (m.filter p) = true
  | _, [], _ => rfl
  | lo, c :: t, hm => by
    simp only [memWfFrom, Bool.and_eq_true, decide_eq_true_eq] at hm
    obtain ⟨⟨h1, h2⟩, h3⟩ := hm
    have ih := memFilter_wfFrom p (m := t) h3
    by_cases hp : p c = true
    · simp [List.filter, hp, memWfFrom, h1, h2, ih]
    · simp only [List.filter, hp]
      exact memWfFrom_mono (by omega) ih

theorem memFilter_wf {d : Byte} {m : List Host.Cell} (p : Host.Cell → Bool) (h : memWf d m = true) :
    memWf d (m.filter p) = true := memFilter_wfFrom p h

/-- Below its bound a canonical memory lists nothing. -/
theorem memRead_below {d : Byte} : ∀ {lo : Nat} {m : List Host.Cell} {x : Nat}, memWfFrom d lo m = true → x < lo →
    memRead d m x = d
  | _, [], _, _, _ => rfl
  | lo, c :: t, x, hm, hx => by
    simp only [memWfFrom, Bool.and_eq_true, decide_eq_true_eq] at hm
    have h1 : c.1 ≠ x := by omega
    have h2 : x < c.1 := by omega
    simp [memRead, h1, h2]

/-- A read after a write. -/
theorem memRead_memWriteFrom {d : Byte} (a x : Nat) (b : Byte) :
    ∀ {lo : Nat} {m : List Host.Cell}, memWfFrom d lo m = true →
      memRead d (memWrite d m a b) x = if x = a then b else memRead d m x
  | lo, [], _ => by
    by_cases hx : x = a
    · by_cases hb : b = d <;> simp [memWrite, memRead, hb, hx]
    · have hx' : ¬ a = x := fun e => hx e.symm
      by_cases hb : b = d <;> simp [memWrite, memRead, hb, hx, hx']
  | lo, c :: t, hm => by
    simp only [memWfFrom, Bool.and_eq_true, decide_eq_true_eq] at hm
    obtain ⟨⟨h1, h2⟩, h3⟩ := hm
    by_cases hc : c.1 = a
    · by_cases hb : b = d
      · by_cases hx : x = a
        · have := memRead_below (x := x) h3 (by omega)
          rw [hx] at this ⊢
          simp [memWrite, hc, hb, this]
        · have hx' : ¬ a = x := fun e => hx e.symm
          by_cases hlt : x < a
          · have := memRead_below (x := x) h3 (by omega)
            simp [memWrite, memRead, hc, hb, hx, hx', hlt, this]
          · simp [memWrite, memRead, hc, hb, hx, hx', hlt]
      · by_cases hx : x = a
        · simp [memWrite, memRead, hc, hb, hx]
        · have hx' : ¬ a = x := fun e => hx e.symm
          simp [memWrite, memRead, hc, hb, hx, hx']
    · by_cases hlt : a < c.1
      · by_cases hx : x = a
        · have e1 : ¬ c.1 = x := by omega
          have e2 : x < c.1 := by omega
          by_cases hb : b = d <;> simp [memWrite, memRead, hc, hlt, hb, hx]
        · have hx' : ¬ a = x := fun e => hx e.symm
          by_cases hb : b = d
          · simp [memWrite, hc, hlt, hb, hx]
          · by_cases hxa : x < a
            · have e1 : ¬ c.1 = x := by omega
              have e2 : x < c.1 := by omega
              simp [memWrite, memRead, hc, hlt, hb, hx, hx', hxa, e1, e2]
            · simp [memWrite, memRead, hc, hlt, hb, hx, hx', hxa]
      · have ih := memRead_memWriteFrom a x b (m := t) h3
        by_cases hx : x = a
        · subst hx
          simp only [memWrite, hc, hlt, memRead, if_false, ih, if_true]
        · have e0 : memWrite d (c :: t) a b = c :: memWrite d t a b := by simp [memWrite, hc, hlt]
          rw [e0]
          by_cases e1 : c.1 = x
          · simp [memRead, hx, e1]
          · by_cases e2 : x < c.1 <;> simp [memRead, hx, e1, e2, ih]

theorem memRead_memWrite {d : Byte} {m : List Host.Cell} (a x : Nat) (b : Byte) (h : memWf d m = true) :
    memRead d (memWrite d m a b) x = if x = a then b else memRead d m x := memRead_memWriteFrom a x b h

/-- A write of several bytes leaves every address outside them alone. -/
theorem memRead_memWriteN_other {d : Byte} : ∀ (bs : List Byte) {m : List Host.Cell} (a x : Nat), memWf d m = true →
    (x < a ∨ a + bs.length ≤ x) → memRead d (memWriteN d m a bs) x = memRead d m x
  | [], _, _, _, _, _ => rfl
  | b :: t, m, a, x, h, hx => by
    simp only [List.length_cons] at hx
    have := memRead_memWriteN_other t (a + 1) x (memWrite_wf a b h) (by omega)
    simp only [memWriteN, this, memRead_memWrite a x b h]
    have : x ≠ a := by omega
    simp [this]

/-- A write of several bytes is read back. -/
theorem memRead_memWriteN_same {d : Byte} : ∀ (bs : List Byte) {m : List Host.Cell} (a i : Nat), memWf d m = true →
    i < bs.length → memRead d (memWriteN d m a bs) (a + i) = bs.getD i 0
  | [], _, _, _, _, hi => absurd hi (by simp)
  | b :: t, m, a, 0, h, _ => by
    have := memRead_memWriteN_other t (a + 1) a (memWrite_wf a b h) (by omega)
    simp [memWriteN, this, memRead_memWrite a a b h]
  | b :: t, m, a, i + 1, h, hi => by
    have := memRead_memWriteN_same t (a + 1) i (memWrite_wf a b h) (by simpa using hi)
    have e : a + (i + 1) = a + 1 + i := by omega
    simpa [memWriteN, e] using this

end Sys2Proof.Machine
end

