-- ==== Sys2Proof/Laws/Invariant.lean ====
section
/-! SUPPORT. Every shared operation that writes a memory keeps the three memories in canonical form; the others leave them alone. With
these lemmas an invariant proof never opens a response, a notification or a log entry. -/
namespace Sys2Proof.Machine

open Sys2Proof

/-- A state with the memories of another is in canonical form when that one is. -/
theorem memoriesWf_congr {s t : State} (hw : t.win = s.win) (hm : t.hs.mem = s.hs.mem) (hf : t.flash.mem = s.flash.mem) :
    memoriesWf t = memoriesWf s := by
  simp [memoriesWf, hw, hm, hf]

/-- A write of the window keeps the form. -/
theorem memoriesWf_win {s t : State} (a : Nat) (bs : List Byte) (hw : t.win = memWriteN 0 s.win a bs) (hm : t.hs.mem = s.hs.mem)
    (hf : t.flash.mem = s.flash.mem) (h : memoriesWf s = true) : memoriesWf t = true := by
  simp only [memoriesWf, Bool.and_eq_true] at h ⊢
  rw [hw, hm, hf]
  exact ⟨⟨memWriteN_wf bs a h.1.1, h.1.2⟩, h.2⟩

/-- A write of the store keeps the form. -/
theorem memoriesWf_store {s t : State} (a : Nat) (bs : List Byte) (hw : t.win = s.win) (hm : t.hs.mem = memWriteN 0 s.hs.mem a bs)
    (hf : t.flash.mem = s.flash.mem) (h : memoriesWf s = true) : memoriesWf t = true := by
  simp only [memoriesWf, Bool.and_eq_true] at h ⊢
  rw [hw, hm, hf]
  exact ⟨⟨h.1.1, memWriteN_wf bs a h.1.2⟩, h.2⟩

/-- A write of the flash keeps the form. -/
theorem memoriesWf_flash {s t : State} (a : Nat) (bs : List Byte) (hw : t.win = s.win) (hm : t.hs.mem = s.hs.mem)
    (hf : t.flash.mem = memWriteN 0xFF s.flash.mem a bs) (h : memoriesWf s = true) : memoriesWf t = true := by
  simp only [memoriesWf, Bool.and_eq_true] at h ⊢
  rw [hw, hm, hf]
  exact ⟨h.1, memWriteN_wf bs a h.2⟩

theorem setCause_wf (c : BitVec 6) {s : State} (h : memoriesWf s = true) : memoriesWf (setCause c s) = true := by
  rw [memoriesWf_congr (s := s)] <;> simp [h]

theorem setReady_wf (b : Bool) {s : State} (h : memoriesWf s = true) : memoriesWf (setReady b s) = true := by
  rw [memoriesWf_congr (s := s)] <;> simp [h]

theorem setPhase_wf (p : Phase) {s : State} (h : memoriesWf s = true) : memoriesWf (setPhase p s) = true := by
  rw [memoriesWf_congr (s := s)] <;> simp [h]

theorem recordFault_wf (c d : Byte) {s : State} (h : memoriesWf s = true) : memoriesWf (recordFault c d s) = true := by
  rw [memoriesWf_congr (s := s)] <;> simp [h]

theorem nextDraw_wf {s : State} (h : memoriesWf s = true) : memoriesWf (nextDraw s) = true := h

theorem drawMany_wf (k : Nat) {s : State} (h : memoriesWf s = true) : memoriesWf (drawMany k s) = true := h

theorem clockTick_wf {s : State} (h : memoriesWf s = true) : memoriesWf (clockTick s) = true := by
  rw [memoriesWf_congr (s := s)]
  · exact h
  all_goals unfold clockTick; rfl

/-- The wear of the LOG ring writes no byte of the flash. -/
theorem logStore_mem (now : Nat) (f : Flash) : (logStore now f).1.mem = f.mem := by
  unfold logStore erase retire exchange dated
  dsimp only
  repeat' split
  all_goals rfl

theorem logStores_mem : ∀ (n now : Nat) (f : Flash), (logStores n now f).1.mem = f.mem
  | 0, _, _ => rfl
  | n + 1, now, f => (logStores_mem n now (logStore now f).1).trans (logStore_mem now f)

theorem retireNotes_wf : ∀ (bs : List Nat) {s : State}, memoriesWf s = true → memoriesWf (bs.foldl retireNote s) = true
  | [], _, h => h
  | _ :: t, _, h => retireNotes_wf t h

theorem flushEntries_wf (n : Nat) {s : State} (h : memoriesWf s = true) : memoriesWf (flushEntries n s) = true := by
  apply retireNotes_wf
  rw [memoriesWf_congr (s := s)]
  · exact h
  · rfl
  · rfl
  · exact logStores_mem (s.flash.stage.take n).length (extTimer s) s.flash

theorem logEntry_wf (t : Nat) (c : Half) (e : Option Half) (d : List Byte) {s : State} (h : memoriesWf s = true) :
    memoriesWf (logEntry t c e d s) = true := by
  unfold logEntry
  dsimp only
  split
  · exact h
  · split
    · exact flushEntries_wf _ h
    · exact h

theorem nqPut_wf (b : List Byte) {s : State} (h : memoriesWf s = true) : memoriesWf (nqPut b s) = true := by
  unfold nqPut
  refine memoriesWf_win (s := s) (0x5000 + 64 * (s.hif.nqTail.toNat % 256)) b ?_ ?_ ?_ h <;> simp

theorem deliver_wf (n : Note) (l u : Bool) {s : State} (h : memoriesWf s = true) : memoriesWf (deliver n l u s) = true := by
  unfold deliver
  dsimp only
  split
  · exact nqPut_wf _ (s := { s with hif := { s.hif with nqSeq := s.hif.nqSeq + 1 } }) h
  · split
    · exact h
    · exact logEntry_wf _ _ _ _ (setCause_wf _ (s := { s with hif := { s.hif with nqSeq := s.hif.nqSeq + 1 } }) h)

theorem notifyAt_wf (e c : Half) (b : Option Bool) (d : List Byte) (t : Lts) {s : State} (h : memoriesWf s = true) :
    memoriesWf (notifyAt e c b d t s) = true := by
  unfold notifyAt
  dsimp only
  split
  · exact h
  · split
    · exact deliver_wf _ _ _ (s := { s with q := { s.q with ord := s.q.ord + 1 } }) h
    · split
      · exact deliver_wf _ _ _ (s := { s with q := { s.q with ord := s.q.ord + 1 } }) h
      · exact h

theorem notify_wf (e c : Half) (b : Option Bool) (d : List Byte) {s : State} (h : memoriesWf s = true) :
    memoriesWf (notify e c b d s) = true := notifyAt_wf e c b d s.time.lts h

theorem deliverAll_wf : ∀ (ns : List Note) {s : State}, memoriesWf s = true → memoriesWf (deliverAll ns s) = true
  | [], _, h => h
  | n :: t, s, h => by
    unfold deliverAll
    simp only [List.foldl_cons]
    exact deliverAll_wf t (deliver_wf n false false (s := { s with q := { s.q with delivered := n.lts } }) h)

theorem releaseAll_wf {s : State} (h : memoriesWf s = true) : memoriesWf (releaseAll s) = true :=
  deliverAll_wf s.q.held (s := { s with q := { s.q with held := [] } }) h

theorem releaseDue_wf {s : State} (h : memoriesWf s = true) : memoriesWf (releaseDue s) = true := by
  unfold releaseDue
  split
  · exact h
  · exact deliverAll_wf _ (by rw [memoriesWf_congr (s := s)] <;> simp [h])

theorem drainBacklog_wf : ∀ (n : Nat) {s : State}, memoriesWf s = true → memoriesWf (drainBacklog n s) = true
  | 0, _, h => h
  | n + 1, s, h => by
    unfold drainBacklog
    split
    · exact h
    · split
      · exact drainBacklog_wf n (nqPut_wf _ (by rw [memoriesWf_congr (s := s)] <;> simp [h]))
      · exact h

theorem closeTag_wf (t : Half) (b : Bool) {s : State} (h : memoriesWf s = true) : memoriesWf (closeTag t b s) = true := h

theorem rqPut_wf (t : Half) (b : List Byte) {s : State} (h : memoriesWf s = true) : memoriesWf (rqPut t b s) = true := by
  unfold rqPut
  refine memoriesWf_win (s := s) (0x3000 + 64 * (s.hif.rqTail.toNat % 128)) b ?_ ?_ ?_ h <;> simp

theorem rspWrite_wf (t : Half) (b : List Byte) {s : State} (h : memoriesWf s = true) : memoriesWf (rspWrite t b s) = true := by
  unfold rspWrite
  split
  · exact rqPut_wf t b (closeTag_wf t false h)
  · exact h

theorem drainResponses_wf : ∀ (n : Nat) {s : State}, memoriesWf s = true → memoriesWf (drainResponses n s) = true
  | 0, _, h => h
  | n + 1, s, h => by
    unfold drainResponses
    split
    · exact h
    · split
      · exact drainResponses_wf n (rqPut_wf _ _ (closeTag_wf _ false (by rw [memoriesWf_congr (s := s)] <;> simp [h])))
      · exact h

theorem putOut_wf (h : Hdr) (o : Option (List Byte)) {s : State} (hs : memoriesWf s = true) : memoriesWf (putOut h o s) = true := by
  unfold putOut
  split
  · rename_i bs
    exact memoriesWf_win (s := s) (bufBase h.bufIdx) (bs.take 4096) rfl rfl rfl hs
  · exact hs

/-- A response keeps the form, whatever it answers. -/
theorem respond_wf (op : Nat) (h : Hdr) (c : St) (r : List Byte) (o : Option (List Byte)) {s : State} (hs : memoriesWf s = true) :
    memoriesWf (respond op h c r o s) = true := by
  unfold respond
  dsimp only
  split
  · exact closeTag_wf _ _ (putOut_wf _ _ hs)
  · exact rspWrite_wf _ _ (putOut_wf _ _ hs)

theorem refuse_wf (op : Nat) (h : Hdr) (c : St) {s : State} (hs : memoriesWf s = true) : memoriesWf (refuse op h c s) = true :=
  respond_wf op h c (refusalResult op) none hs

theorem done_wf (op : Nat) (h : Hdr) {s : State} (hs : memoriesWf s = true) : memoriesWf (done op h s) = true :=
  respond_wf op h .ok [] none hs

theorem reply_wf (op : Nat) (h : Hdr) (fs : List (Nat × List Byte)) {s : State} (hs : memoriesWf s = true) :
    memoriesWf (reply op h fs s) = true := respond_wf op h .ok (result fs) none hs

/-- A list handed on after its numbers have been evaluated is plain application. -/
@[simp] theorem withNat_eq {α : Type} (n : Nat) (f : Nat → α) : withNat n f = f n := by cases n <;> rfl

end Sys2Proof.Machine
end

