-- ==== Sys2Proof/Laws/State.lean ====
section
/-! SUPPORT. The state's own laws: the four channels, and what reset leaves. -/
namespace Sys2Proof.Machine

open Sys2Proof

namespace Four
variable {α β : Type}

theorem index_cases (i : BitVec 2) : i = 0 ∨ i = 1 ∨ i = 2 ∨ i = 3 := by
  have h := i.isLt
  have : i.toNat = 0 ∨ i.toNat = 1 ∨ i.toNat = 2 ∨ i.toNat = 3 := by omega
  rcases this with h | h | h | h
  · exact .inl (BitVec.eq_of_toNat_eq h)
  · exact .inr (.inl (BitVec.eq_of_toNat_eq h))
  · exact .inr (.inr (.inl (BitVec.eq_of_toNat_eq h)))
  · exact .inr (.inr (.inr (BitVec.eq_of_toNat_eq h)))

@[simp] theorem get_set_same (f : Four α) (i : BitVec 2) (x : α) : (f.set i x).get i = x := by
  rcases index_cases i with h | h | h | h <;> subst h <;> rfl

@[simp] theorem get_set_other (f : Four α) {i j : BitVec 2} (x : α) (h : j ≠ i) : (f.set i x).get j = f.get j := by
  rcases index_cases i with hi | hi | hi | hi <;> rcases index_cases j with hj | hj | hj | hj <;> subst hi <;> subst hj <;>
    first | rfl | exact absurd rfl h

@[simp] theorem get_all (i : BitVec 2) (x : α) : (Four.all x).get i = x := by
  rcases index_cases i with h | h | h | h <;> subst h <;> rfl

@[simp] theorem get_map (g : α → β) (f : Four α) (i : BitVec 2) : (f.map g).get i = g (f.get i) := by
  rcases index_cases i with h | h | h | h <;> subst h <;> rfl

end Four

@[simp] theorem reset_pending : State.reset.pending = [] := rfl
@[simp] theorem reset_phase : State.reset.pwr.phase = .boot 1 := rfl
@[simp] theorem reset_ready : State.reset.hif.ready = false := rfl
@[simp] theorem reset_running : State.reset.time.running = false := rfl
@[simp] theorem reset_win : State.reset.win = [] := rfl
@[simp] theorem reset_store : State.reset.hs.mem = [] := rfl
@[simp] theorem reset_flash : State.reset.flash.mem = [] := rfl
@[simp] theorem reset_tribs : State.reset.tribs = [] := rfl

end Sys2Proof.Machine
end

