-- ==== Sys2Proof/Machine/Contacts.lean ====
section
/-! DEFINITION. The contact map of the package (R408 to R410): what stands at each row and column. It is fixed, and no
command reads it. -/
namespace Sys2Proof.Machine

open Sys2Proof

/-- The row letters in order (chapter 16, Contact map). -/
inductive Row where
  | A | B | C | D | E | F | G | H | J | K | L | M | N | P | Q | S | T | U | V | W | X | Y | Z | AA
  deriving DecidableEq, Repr

/-- The rows, from A to AA. -/
def rows : List Row :=
  [.A, .B, .C, .D, .E, .F, .G, .H, .J, .K, .L, .M, .N, .P, .Q, .S, .T, .U, .V, .W, .X, .Y, .Z, .AA]

/-- What a contact is. Lane contacts say ingress or egress and which of the pair; `named` carries the manual's name. -/
inductive Contact where
  | gnd
  | lane (n : Nat) (egress negative : Bool)
  | named (name : String)
  | dnc
  | vin12
  | vsb33
  deriving DecidableEq, Repr

/-- R409: the host lanes, lane n in column n + 1. -/
def laneContact (r : Row) (col : Nat) : Contact :=
  let n := col - 1
  match r, decide (n % 2 = 0) with
  | .D, true => .lane n false false
  | .E, true => .lane n false true
  | .V, true => .lane n true false
  | .W, true => .lane n true true
  | .G, false => .lane n false false
  | .H, false => .lane n false true
  | .S, false => .lane n true false
  | .T, false => .lane n true true
  | _, _ => .gnd

/-- R410: the named contacts of the management field. -/
def managementContacts : List (Row × Nat × String) :=
  [(.B, 18, "PCIE_TXP"), (.C, 18, "PCIE_TXN"), (.F, 18, "PCIE_RXP"), (.G, 18, "PCIE_RXN"), (.K, 18, "PCIE_PERST_N"),
   (.B, 21, "SPI_SCK"), (.C, 21, "SPI_CS_N"), (.D, 21, "SPI_MOSI"), (.E, 21, "SPI_MISO"),
   (.G, 21, "RESET_N"), (.H, 21, "WAKE_N"), (.J, 21, "FREEZE_N"), (.K, 21, "FAULT_N"), (.L, 21, "ALERT_N"),
   (.M, 21, "PRESENT_N"),
   (.B, 23, "TCK"), (.C, 23, "TMS"), (.D, 23, "TDI"), (.E, 23, "TDO"), (.F, 23, "TRST_N"),
   (.S, 18, "REFA_P"), (.T, 18, "REFA_N"), (.W, 18, "REFB_P"), (.X, 18, "REFB_N"),
   (.S, 20, "RCLKOUT0_P"), (.T, 20, "RCLKOUT0_N"), (.W, 20, "RCLKOUT1_P"), (.X, 20, "RCLKOUT1_N"),
   (.S, 23, "PPSA"), (.U, 23, "PPSB"), (.W, 23, "PPSOUT")]

/-- R410: contacts that must be left unconnected. -/
def dncContacts : List (Row × Nat) :=
  [(.A, 17), (.A, 24), (.AA, 17), (.AA, 24), (.P, 17), (.P, 19), (.P, 22), (.P, 24), (.Q, 17), (.Q, 19), (.Q, 22),
   (.Q, 24)]

/-- R410: the supply contacts. -/
def powerContact (r : Row) (col : Nat) : Contact :=
  if (r = .A ∨ r = .B ∨ r = .C ∨ r = .D) ∧ 33 ≤ col then .vin12
  else if r = .AA ∧ 37 ≤ col then .vsb33 else .gnd

/-- R408 to R410: the contact at a row and a column from 1 to 40; every contact without a name is ground. -/
def contactAt (r : Row) (col : Nat) : Contact :=
  if col ≤ 16 then laneContact r col
  else if col ≤ 24 then
    if (r, col) ∈ dncContacts then .dnc
    else
      match managementContacts.find? fun c => decide (c.1 = r) && decide (c.2.1 = col) with
      | some c => .named c.2.2
      | none => .gnd
  else powerContact r col

/-- The contacts other than ground in columns `lo` to `hi` (R408). -/
def signalContacts (lo hi : Nat) : Nat :=
  (rows.map fun r => ((List.range (hi + 1 - lo)).filter fun k => decide (contactAt r (lo + k) ≠ .gnd)).length).sum

end Sys2Proof.Machine
end

