-- ==== Sys2Proof/Tests/Slice0.lean ====
section
/-! SUPPORT. Tests of the model on small states, and for every statement states and operands that meet its hypotheses together. A
test's expected result comes from the spec's own text, named beside it, or from the standard that the spec names. -/
namespace Sys2Proof.Tests

open Sys2Proof Sys2Proof.Machine

section

set_option Elab.async false

/-! ### States and operands -/

/-- A header without a buffer, and one that names staging buffer 0 with 64 bytes. -/
def hA : Hdr := ⟨0, 1, false, false, false, 0, 0, ⟨0, 0⟩⟩
def hB : Hdr := ⟨0, 1, false, false, true, 0, 64, ⟨0, 0⟩⟩

/-- RUN with every domain powered, line time at superframe 300,000 and no line mode. -/
def runSt : State := { State.reset with
  hif := { ready := true }, time := { running := true, lts := ⟨307200, 0⟩ },
  pwr := { phase := .steady .run, powered := 0x7F, closed := 0x7F } }

/-- The same without READY's path: a state in another phase. -/
def inPhase (p : Phase) (s : State) : State := { s with pwr := { s.pwr with phase := p } }

def mode4 : LMode := ⟨0x04, 240000000, 0, 3, 13934, 60⟩

/-- A tributary with a port, in its last entry, plaintext. -/
def trib1 : Trib := { tid := 1, entry := 0, client := 4, port := 0, cipher := 0, from_ := ⟨0, 0⟩ }

/-- RUN with a slot mode, both chains, the receiver in TRACK, codewords aligned, IN_FRAME and the output LIT. -/
def liveSt : State := { runSt with
  line := { cur := some mode4, rxChain := true, txChain := true },
  fe := { rawLos := false }, eq := { st := 8, rawLosf := false, a3Done := true },
  fec := { st := 2 }, tf := { st := 3 }, tx := { st := .lit, freqSet := true },
  hl := { osier := true, link := .up, ports := [{ num := 0, client := 4 }] }, tribs := [trib1] }
def frozenSt : State := { liveSt with dbg := { frozen := true } }

/-- A converter channel whose first slice has failed, and one without a spare. -/
def failCh : Chan := { Chan.fresh 64 4 with slices := (Chan.fresh 64 4).slices.set 0 ⟨.active, 0, 0, 0, false, 0, 0, true, 0, 0, 0, 0⟩ }

def slice1 : Slice := ⟨.active, 0, 0, 0, false, 0, 0, false, 0, 0, 0, 0⟩

/-- A change to the mode, at a boundary and in a phase. -/
def chg (c : Sf) (sameB : Bool) (phase : Nat) : Change := ⟨none, false, c, some mode4, false, sameB, true, [], 0, phase⟩

/-- An Osier control block of a type with a first field (R296). -/
def ctl (type field : Byte) : List Byte :=
  let b := [type, 0, 1, 0, 0, 0, field] ++ List.replicate 21 0
  b ++ leBytes 4 (check0 b)

/-- A descriptor in entry 0 of CQ0. -/
def w0 : Waiting := ⟨1, 0, 0, 7, ⟨0, 0⟩⟩

/-- A key slot with a key of a usage. -/
def slotOf (st : SlotSt) (usage : Nat) : KeySlot := { st := st, data := ⟨List.replicate 32 0, [0, 0, 0, 0], usage, false, [1, 2, 3]⟩ }

/-- A tributary of cipher mode 1 with a receive key, in TRACK with slots 1 to 4. -/
def tribC : Trib := { trib1 with cipher := 1, rxCur := some 1, txCur := some 2, txNext := some 3, prevSlot := some 1 }

def cryptSt : State := setSlot 1 (slotOf .current 1) (setSlot 2 (slotOf .current 0) (setSlot 3 (slotOf .next 0)
  (setSlot 4 (slotOf .loaded 0) (setSlot 5 (slotOf .loaded 1) { liveSt with tribs := [tribC] }))))

/-- A span record of tributary 1 with a counter and its flags (R262). -/
def rec1 (flags : Byte) : List Byte :=
  let b := List.replicate 8 0 ++ [1, flags, 0, 0]
  b ++ leBytes 4 (check0 b)

/-- A memory-mode job of an algorithm on context 0, with a usable key in slot 6. -/
def jobOf (data tag : List Byte) : MmJob := ⟨hB, 0, [], data, tag, false, 0⟩

def jobSt (alg : Nat) : State :=
  setSlot 6 (slotOf .loaded 2) { runSt with mm := [{ busy := true, alg := alg, slot := 6, job := some (jobOf (List.replicate 16 0) []) }] }

/-- RUN with a slot of memory-mode usage and bytes in staging buffer 0. -/
def bufSt (bs : List Byte) : State := setSlot 6 (slotOf .loaded 2) { runSt with win := memWriteN 0 [] 0xA000 bs }

/-- A saved context: idle, of context 0 and slot 6, serial 0, no output area (R279). -/
def savedCtx : List Byte :=
  let b := [0, 0, 0, 0, 6, 1, 2, 3] ++ List.replicate 84 0
  b ++ leBytes 4 (check0 b)

/-- A key-load blob: 32 zero bytes of key, zero salt, usage 1, wrapped under the zero key (R253). -/
def blob1 : List Byte :=
  [148, 70, 249, 11, 186, 26, 249, 26, 8, 40, 4, 88, 209, 10, 63, 250, 2, 145, 170, 11, 86, 40, 217, 68,
   136, 30, 94, 22, 254, 215, 106, 67, 112, 186, 186, 70, 254, 73, 107, 180, 243, 37, 67, 170, 167, 126, 134, 237]

/-- A transport frame header of mode 4 with TFN 0 (R226). -/
def hdr4 : List Byte :=
  let b := [0, 0, 0, 0, 4, 0, 0, 0, 0, 0, 0, 0]
  b ++ leBytes 4 (check0 b)

/-- RUN with a descriptor of an opcode, with flags and a time, as the only one waiting in CQ0, of two outstanding commands. -/
def descSt (op flags sf : Nat) (tag0 : Half) : State := { runSt with
  win := memWriteN 0 [] 0x1000 (leBytes 2 op ++ leBytes 2 7 ++ leBytes 2 flags ++ leBytes 2 0 ++ leBytes 6 sf)
  q := { waiting := [w0], outst := [⟨0, tag0, none, false, false, false⟩, ⟨1, 7, none, false, false, false⟩], ord := 2 } }

/-- The state a command leaves; the given one where it faults or is refused. -/
def after (s : State) (c : Instr) : State := match exec c s with | .next t => t | _ => s

/-- RUN at an evaluation of the reference task, with references of one's own. -/
def evalSt (r : Ref) : State := { runSt with
  ref := r, sedge := { tasks := [{ task := .references, period := 16, start := 307200, running := true }] } }

/-- RUN with context 0 of memory mode open for GCM under slot 6. -/
def mmBusySt : State := { bufSt [] with mm := [{ busy := true, slot := 6 }] }

/-- A span record of tributary 1 with counter 2^40 (R262). -/
def recFar : List Byte :=
  let b := [0, 0, 1, 0, 0, 0, 0, 0, 1, 0, 0, 0]
  b ++ leBytes 4 (check0 b)

/-- A tributary whose span before was received whole, with its counter confirmed (R263, R264). -/
def tribW : Trib := { tribC with prevConf := true, prevAad := List.replicate 64 0, rxAad := List.replicate 4 0 }

def wholeSt : State := { cryptSt with tribs := [tribW] }

/-- The key of `blob1`. -/
def key1 : KeyData := ⟨List.replicate 32 0, [0, 0, 0, 0], 1, false, kcvOf (List.replicate 32 0)⟩

def plain1 : List Byte := List.replicate 36 0 ++ [1, 0, 0, 0]

/-- RUN with an ADC slice swapped in or calibrating. -/
def swapSt (slot : Sf) : State := { liveSt with cal := { adcSwap := some ⟨0, 0, some 64, slot⟩ } }

/-- A receive instant in a received superframe that starts with a transmit superframe. -/
def rx0 : RxAt := ⟨⟨307200, 0⟩, ⟨307201, 0⟩, 32768⟩

/-- A defect's integration: set or clear, raw or not, since superframe 7. -/
def integ (set raw : Bool) : Integ := ⟨set, raw, ⟨7, 0⟩, 0⟩

/-- The live state with one tributary, or with defects of the line. -/
def tribSt (x : Trib) : State := { liveSt with tribs := [x] }

def tfSt (x : Tf) : State := { liveSt with tf := x }

def eqSt (x : Eq) : State := { liveSt with eq := x }

/-- The live state with a mode change. -/
def chSt (ch : Change) : State := { liveSt with line := { liveSt.line with change := some ch } }

/-- No parameters of FLEX, and those of the example after R113. -/
def flex0 : FlexReq := ⟨0, 0, 0, 0⟩
def flex1 : FlexReq := ⟨2, 0, 230000, 14848⟩

/-- A ZR400 mode that runs. -/
def zrSt : State := { liveSt with line := { cur := some { mode4 with code := 6 }, txChain := true } }

/-- A pilot's instant (R151). -/
def rxPilot : RxAt := ⟨⟨307200, 0⟩, ⟨307201, 0⟩, 512⟩

/-! ### Well-formedness: an ill-formed term for every check, and that the check refuses it -/

theorem test_stamp_refused : ({ hA with execAt := ⟨0, 1⟩ } : Hdr).stampWf = false := by decide

theorem test_length_refused :
    ({ hA with length := 1 } : Hdr).lengthWf = false ∧ ({ hB with length := 0 } : Hdr).lengthWf = false ∧
      ({ hB with length := 4097 } : Hdr).lengthWf = false ∧ hB.lengthWf = true := by decide

theorem test_wf_takes_header : (Instr.sysIdentify { hA with length := 1 }).wf = false ∧ (Instr.sysIdentify hA).wf = true := by
  decide +kernel

theorem test_rxAt_refused : (⟨⟨1, 0⟩, ⟨1, 0⟩, 0⟩ : RxAt).wf = false := by decide

theorem test_senseIn_refused : (⟨16385, 0, 0, 0, 0, true, 0, 0⟩ : SenseIn).wf = false ∧
    (⟨0, -16385, 0, 0, 0, true, 0, 0⟩ : SenseIn).wf = false ∧ (⟨0, 0, 16385, 0, 0, true, 0, 0⟩ : SenseIn).wf = false := by decide

theorem test_operands_refused : ([
    .registerWrite .spi 2 0 none, .registerWrite .pcie 4 0 (some 0), .registerWrite .spi 8 0 (some 0),
    .pcieUnsupportedAccess 8 8 true, .sliceFailure .adc 0 68, .sliceFailure .dac 0 34, .calibrationStale 6 0,
    .refActivityLoss 5, .refActivityLoss 32, .ppsEdge 1 0 100 0, .resonatorCalUpdate 2, .biasConvergeLimit 6 0,
    .adcOverrange 0 true 1 ⟨⟨1, 0⟩, ⟨0, 0⟩, 0⟩, .gainStepApply ⟨⟨1, 0⟩, ⟨0, 0⟩, 0⟩, .sfohReceive [] 0, .spanRecordReceive 1 [] ⟨⟨0, 0⟩, ⟨1, 0⟩, 0⟩,
    .storeRead 2147483648 .clean false, .mergeBufferTimeout 2147483648 .clean false, .flashBlockFail 4096,
    .captureFillDone []] : List Instr).all (fun i => !i.operandsWf) = true := by decide +kernel

theorem test_blocks_refused : ([.osierAdvertise 0 [], .osierStepAck 0 [], .osierTrain 0 [], .osierLinkUp 0 [],
    .osierLpReq 0 [], .osierLpAck 0 [], .osierFault 0 []] : List Instr).all (fun i => !i.operandsWf) = true := by decide +kernel

/-! ### Descriptors -/

/-- The descriptor of the CV.RUN example in "Check-value unit" (after R432), byte for byte. -/
def cvExample : List Byte :=
  [0x02, 0x0E, 0x17, 0x00, 0x14, 0x00, 0x09, 0x00] ++ List.replicate 8 0 ++ [0, 0, 0, 0x02] ++ List.replicate 44 0

theorem test_descriptor_example :
    decodeDescriptor (descHdr 2 cvExample) cvExample =
      .command (.cvRun ⟨2, 0x0017, false, false, true, 1, 9, ⟨0, 0⟩⟩ 0 0 0 2 0 0 0) := by decide +kernel

/-- R59: a reserved bit of FLAGS, and a LENGTH without BUF, are malformed; R66: an opcode no card has is unknown. -/
theorem test_descriptor_refused :
    decodeDescriptor (descHdr 0 ([1, 1, 0, 0, 8] ++ List.replicate 59 0)) ([1, 1, 0, 0, 8] ++ List.replicate 59 0) = .malformed ∧
    decodeDescriptor (descHdr 0 ([1, 1, 0, 0, 0, 0, 1] ++ List.replicate 57 0)) ([1, 1, 0, 0, 0, 0, 1] ++ List.replicate 57 0) =
      .malformed ∧
    decodeDescriptor (descHdr 0 (List.replicate 64 0)) (List.replicate 64 0) = .unknown := by decide +kernel

/-! ### Worked examples of the spec -/

/-- The CVP0 value of the example after R432. -/
theorem test_cvp0_example : check0 [0x31, 0x32, 0x33, 0x34, 0x35, 0x36, 0x37, 0x38, 0x39] = 0xCBF43926 := by decide +kernel

/-- The response of that example: tag 0x0017, status OK, the value in bytes 16 to 23 and 9 bytes processed. -/
theorem test_cvRun_example :
    let s : State := { runSt with
      win := memWriteN 0 [] 0xB000 [0x31, 0x32, 0x33, 0x34, 0x35, 0x36, 0x37, 0x38, 0x39] }
    let t := after (after s (.cvRun ⟨2, 0x0017, false, false, true, 1, 9, ⟨0, 0⟩⟩ 0 0 0 2 0 0 0)) .cvJobDone
    memReadN 0 t.win (0x3000 + 16) 9 = [0x26, 0x39, 0xF4, 0xCB, 0, 0, 0, 0, 9] ∧ t.cv.jobs = [] := by decide +kernel

/-- The bias task of the example after R107: its starts and their deficits. -/
theorem test_task_example :
    let x0 : TaskSt := { task := .bias, period := 16, anchor := 1000, next := 1000 }
    let x1 := taskEnd 1037 (taskBegin 1000 x0)
    let x2 := taskEnd 1038 (taskBegin 1038 x1)
    let x3 := taskEnd 1046 (taskBegin 1046 x2)
    let x4 := taskEnd 1054 (taskBegin 1054 x3)
    (x1.next, x2.next, x3.next, x4.next) = (1038, 1046, 1054, 1064) ∧ x4.skipped = 0 := by decide +kernel

/-- The example after R111: H = 22,013 is the smallest for D2400. -/
theorem test_d2400_h : sfohFits ⟨0x01, 272000000, 1, 1, 22013, 120⟩ = true ∧ sfohFits ⟨0x01, 272000000, 1, 1, 22012, 120⟩ = false := by
  decide +kernel

/-- The FLEX example after R113 and the last lines of LINE.FLEX_CHECK: 65 slots, net and transport rates. -/
theorem test_flex_example :
    (flexMode ⟨2, 0, 230000, 14848⟩).map (fun m => (m.slots, netMbps m, transMbps m)) = some (65, 1329105, 1321412) := by
  decide +kernel

/-- R40's example: HIF_ID is read with the address 0x0000. -/
theorem test_spi_reads_id : (after runSt (.spiReadFrame 0x03 0 1 false)).reply.words = [0x24000201] := by decide +kernel

/-- R426's example: the IDCODE, least significant bit first. -/
theorem test_idcode : (after runSt (.idcode 32)).dbg.tdo = (List.range 32).map (fun i => (0x2240074D : BitVec 32).getLsbD i) := by
  decide +kernel

/-! ### Standards the cipher chapter names -/

/-- FIPS 197, appendix C.3. -/
theorem test_aes256 : aesEnc ((List.range 32).map (BitVec.ofNat 8)) ((List.range 16).map fun i => BitVec.ofNat 8 (17 * i)) =
    [0x8e, 0xa2, 0xb7, 0xca, 0x51, 0x67, 0x45, 0xbf, 0xea, 0xfc, 0x49, 0x90, 0x4b, 0x49, 0x60, 0x89] := by decide +kernel

/-- The GCM specification's test case 13: zero key, zero IV, nothing to protect. -/
theorem test_gcm_tag : gcmTagOf (List.replicate 32 0) (List.replicate 12 0) [] [] =
    [0x53, 0x0f, 0x8a, 0xfb, 0xc7, 0x45, 0x36, 0xb9, 0xa9, 0x63, 0xb4, 0xf1, 0xc4, 0xcb, 0x73, 0x8b] := by decide +kernel

/-! ### Single commands -/

/-- R443: a write to the response queue area changes nothing; R60: one to a free staging buffer is kept. -/
theorem test_writes : (after runSt (.registerWrite .spi 0x3000 5 none)).win = [] ∧
    (after runSt (.registerWrite .spi 0xA000 0x0500 none)).win = [⟨0xA001, 5⟩] := by decide +kernel

/-- R49, R56: a doorbell past the ring leaves the tail and is reported. -/
theorem test_doorbell_past_ring : (after runSt (.cqDoorbell .spi 1 33)).hif.cqTail = ⟨0, 0, 0, 0⟩ ∧
    (after runSt (.cqDoorbell .spi 1 33)).hif.irqStatus ≠ 0 := by decide +kernel

/-- R369: at 11.1 V C1 sets and no other level, at 11.2 V none. -/
theorem test_coppice : (after runSt (.coppiceSet 11100)).aon.coppice = 1 ∧
    (after runSt (.coppiceSet 11200)).aon.coppice = 0 := by decide +kernel

/-- R399: in freeze LINE.MODE_SET answers BAD_STATE and changes nothing of the line; R2: no cipher in the variant CN. -/
theorem test_refusals : (after frozenSt (.lineModeSet hA 1 0 ⟨0, 0, 0, 0⟩)).line = frozenSt.line ∧
    admitted 0x0801 { runSt with ident := { variant := .cn } } = .refuse .notAvailable := by decide +kernel

/-- R1 to R33: the host sees READY 0 at reset, and a mailbox row does nothing before the warden runs. -/
theorem test_no_warden_at_reset : (after State.reset (.sysIdentify hA)).q.rqTags = [] ∧ State.reset.hif.ready = false := by
  decide +kernel

/-- A step takes the command at the front. -/
theorem test_step_front : step { runSt with pending := [.idcode 4, .sysIdentify hA] } =
    exec (.idcode 4) { runSt with pending := [.sysIdentify hA] } := rfl

/-! ### Hypotheses that can be met -/

/-- The bytes, the header and the state that `Obligations.DescriptorTaken` names for a waiting descriptor. -/
def bsOf (s : State) (w : Waiting) : List Byte := memReadN 0 s.win (0x1000 + 0x800 * w.queue.toNat + 64 * w.slot.toNat) 64

def hOf (s : State) (w : Waiting) : Hdr := descHdr w.queue (bsOf s w)

def takenSt (s : State) (w : Waiting) : State :=
  { s with
    hif := { s.hif with cqHead := s.hif.cqHead.set w.queue (s.hif.cqHead.get w.queue + 1) }
    q := { s.q with
      waiting := s.q.waiting.filter fun x => decide (x.ord ≠ w.ord)
      outst := s.q.outst.map fun o => if o.ord = w.ord then { o with tag := (hOf s w).tag, sched := (hOf s w).sched } else o } }

abbrev takeable (s : State) (w : Waiting) : Prop :=
  s.hif.ready = true ∧ s.flash.bootDue = false ∧ rqRoom s ≠ 0 ∧ passedFirst s = false ∧ chooseWaiting s = some w

abbrev unique (s : State) (w : Waiting) : Prop := ¬ ∃ o ∈ s.q.outst, o.tag = (hOf s w).tag ∧ o.ord < w.ord

abbrev runnable (s : State) (w : Waiting) : Prop :=
  takeable s w ∧ unique s w ∧ (∀ o ∈ (takenSt s w).q.outst, o.ord = w.ord → o.buf = none ∨ o.holds = true) ∧
    admitted (descOpcode (bsOf s w)) (takenSt s w) = .accept

/-- CV.RUN over staging buffer 0, which another command holds. -/
def busySt : State := { runSt with
  win := memWriteN 0 [] 0x1000 (leBytes 2 0x0E02 ++ leBytes 2 7 ++ leBytes 2 4 ++ leBytes 2 64)
  q := { waiting := [w0], outst := [⟨1, 7, some 0, false, false, false⟩], ord := 2 } }

/-- SYS.IDENTIFY scheduled for a superframe. -/
def schedSt (sf : Nat) : State := descSt 0x0101 1 sf 6

def pendN (n : Nat) : List Pend :=
  (List.range n).map fun k => ⟨k + 10, .sysIdentify { hA with sched := true }, ⟨400000, 0⟩, false, false, false⟩

def fullSt : State := { schedSt 307201 with q := { (schedSt 307201).q with pend := pendN 256 } }

/-- The key of `blob1` under the zero KEK (R253). -/
theorem unwrap_blob1 : kwUnwrap (List.replicate 32 0) blob1 = some plain1 := by decide +kernel

theorem unwrap_at {h : Hdr} {s : State} (hk : s.ident.kek = List.replicate 32 0) (hb : bufData h s = blob1) :
    kwUnwrap s.ident.kek (bufData h s) = some plain1 := by
  rw [hk, hb]; exact unwrap_blob1

theorem witness_DescriptorTaken :
    (takeable (descSt 0x0101 0 0 7) w0 ∧
      ∃ o ∈ (descSt 0x0101 0 0 7).q.outst, o.tag = (hOf (descSt 0x0101 0 0 7) w0).tag ∧ o.ord < w0.ord) ∧
    (takeable (descSt 0x0199 0 0 6) w0 ∧ unique (descSt 0x0199 0 0 6) w0 ∧
      decodeDescriptor (hOf (descSt 0x0199 0 0 6) w0) (bsOf (descSt 0x0199 0 0 6) w0) = .unknown) ∧
    (takeable (descSt 0x0101 8 0 6) w0 ∧ unique (descSt 0x0101 8 0 6) w0 ∧
      decodeDescriptor (hOf (descSt 0x0101 8 0 6) w0) (bsOf (descSt 0x0101 8 0 6) w0) = .malformed) ∧
    (takeable busySt w0 ∧ unique busySt w0 ∧
      decodeDescriptor (hOf busySt w0) (bsOf busySt w0) = .command (.cvRun (hOf busySt w0) 0 0 0 0 0 0 0) ∧
      (∃ o ∈ (takenSt busySt w0).q.outst, o.ord = w0.ord ∧ o.buf.isSome = true ∧ o.holds = false) ∧
      admitted (descOpcode (bsOf busySt w0)) (takenSt busySt w0) = .accept) ∧
    (runnable (descSt 0x0101 0 0 6) w0 ∧ (hOf (descSt 0x0101 0 0 6) w0).sched = false ∧
      decodeDescriptor (hOf (descSt 0x0101 0 0 6) w0) (bsOf (descSt 0x0101 0 0 6) w0) =
        .command (.sysIdentify (hOf (descSt 0x0101 0 0 6) w0)) ∧ boundOf (.sysIdentify (hOf (descSt 0x0101 0 0 6) w0)) = .none) ∧
    (runnable (descSt 0x0406 0 0 6) w0 ∧ (hOf (descSt 0x0406 0 0 6) w0).sched = false ∧
      ticking (descSt 0x0406 0 0 6) = true ∧
      decodeDescriptor (hOf (descSt 0x0406 0 0 6) w0) (bsOf (descSt 0x0406 0 0 6) w0) =
        .command (.eqHold (hOf (descSt 0x0406 0 0 6) w0) 0) ∧
      ownBoundary (.eqHold (hOf (descSt 0x0406 0 0 6) w0) 0) = false ∧
      boundOf (.eqHold (hOf (descSt 0x0406 0 0 6) w0) 0) = .superframe) ∧
    (runnable (schedSt 307201) w0 ∧ (hOf (schedSt 307201) w0).sched = true ∧ ticking (schedSt 307201) = true ∧
      decodeDescriptor (hOf (schedSt 307201) w0) (bsOf (schedSt 307201) w0) = .command (.sysIdentify (hOf (schedSt 307201) w0)) ∧
      boundOf (.sysIdentify (hOf (schedSt 307201) w0)) = .none ∧
      (schedSt 307201).time.lts.lt (hOf (schedSt 307201) w0).execAt = true ∧ schedCount (schedSt 307201) < 256 ∧
      (hOf (schedSt 307201) w0).execAt.toNat ≤ (schedSt 307201).time.lts.toNat + 2 ^ 60) ∧
    (runnable (descSt 0x0805 0 0 6) w0 ∧ (hOf (descSt 0x0805 0 0 6) w0).sched = false ∧
      ticking (descSt 0x0805 0 0 6) = true ∧
      decodeDescriptor (hOf (descSt 0x0805 0 0 6) w0) (bsOf (descSt 0x0805 0 0 6) w0) =
        .command (.keyActivate (hOf (descSt 0x0805 0 0 6) w0) 0) ∧
      boundOf (.keyActivate (hOf (descSt 0x0805 0 0 6) w0) 0) = .span) ∧
    (runnable (descSt 0x0406 1 307216 6) w0 ∧ (hOf (descSt 0x0406 1 307216 6) w0).sched = true ∧
      ticking (descSt 0x0406 1 307216 6) = true ∧
      decodeDescriptor (hOf (descSt 0x0406 1 307216 6) w0) (bsOf (descSt 0x0406 1 307216 6) w0) =
        .command (.eqHold (hOf (descSt 0x0406 1 307216 6) w0) 0) ∧
      boundOf (.eqHold (hOf (descSt 0x0406 1 307216 6) w0) 0) = .superframe ∧
      isModeSet (.eqHold (hOf (descSt 0x0406 1 307216 6) w0) 0) = false ∧
      (descSt 0x0406 1 307216 6).time.lts.toNat + 16 * 2 ^ 24 ≤ (Lts.ceilSf (hOf (descSt 0x0406 1 307216 6) w0).execAt).toNat ∧
      (hOf (descSt 0x0406 1 307216 6) w0).execAt.toNat ≤ (descSt 0x0406 1 307216 6).time.lts.toNat + 2 ^ 60 ∧
      schedCount (descSt 0x0406 1 307216 6) < 256) ∧
    (runnable (schedSt 68719783937) w0 ∧ (hOf (schedSt 68719783937) w0).sched = true ∧
      (schedSt 68719783937).time.lts.toNat + 2 ^ 60 < (hOf (schedSt 68719783937) w0).execAt.toNat) ∧
    (runnable fullSt w0 ∧ (hOf fullSt w0).sched = true ∧ fullSt.time.lts.lt (hOf fullSt w0).execAt = true ∧
      256 ≤ schedCount fullSt) := by
  refine ⟨?_, ?_, ?_, ?_, ?_, ?_, ?_, ?_, ?_, ?_, ?_⟩ <;> decide +kernel

/-- FW.COMMIT of an image on an erased slot, for every part that reads its header so (the image's layout is open, log entry 10). -/
theorem witness_FirmwareAndLog_commit (fuses : Nat) (hm : Config.headerField 0 (List.replicate 256 0xFF) = 0x4E414954)
    (hb : Config.headerField 4 (List.replicate 256 0xFF) = 0) (hs : Config.signatureBytes = 0)
    (hv : Config.signatureVerifies (List.replicate 256 0xFF) = true) (hr : Config.headerField 3 (List.replicate 256 0xFF) = 2) :
    ∃ (s : State), s.ident.fuses = fuses ∧ admitted 0x0D02 s = .accept ∧
      memReadN 0xFF s.flash.mem (slotBlock (stageSlot s) * 262144) 256 = List.replicate 256 0xFF ∧
      (∀ head, head = memReadN 0xFF s.flash.mem (slotBlock (stageSlot s) * 262144) 256 →
        Config.headerField 0 head = 0x4E414954 ∧ Config.headerField 3 head = 2 ∧
        256 + Config.headerField 4 head + Config.signatureBytes ≤ 512 * 262144 ∧
        stagedWhole (256 + Config.headerField 4 head + Config.signatureBytes) s = true ∧
        Config.signatureVerifies (memReadN 0xFF s.flash.mem (slotBlock (stageSlot s) * 262144)
          (256 + Config.headerField 4 head + Config.signatureBytes)) = true) := by
  have hread : memReadN 0xFF ([] : List Host.Cell) (slotBlock true * 262144) 256 = List.replicate 256 0xFF := by decide +kernel
  refine ⟨{ runSt with ident := { fuses := fuses }, flash := { staged := [(0, 4096)] } }, rfl, rfl, hread, ?_⟩
  rintro head rfl
  have h1 : memReadN 0xFF ([] : List Host.Cell) (slotBlock (stageSlot
    { runSt with ident := { fuses := fuses }, flash := { staged := [(0, 4096)] } }) * 262144) 256 = List.replicate 256 0xFF := hread
  simp only [h1, hb, hs, hm, hr, hv, Nat.add_zero, true_and]
  exact ⟨by decide, rfl, trivial⟩

theorem witness_StepRunsFront : ∃ (s : State) (c : Instr) (rest : List Instr), s.pending = c :: rest :=
  ⟨{ runSt with pending := [.schedCommandDue] }, .schedCommandDue, [], by decide +kernel⟩

theorem witness_EmptyQueueTicks : ∃ (s : State), s.pending = [] :=
  ⟨liveSt, by decide +kernel⟩

theorem witness_ResetRegisters : (∃ (a : Nat), a ∈ [8, 12, 16, 20, 24, 28, 32, 36, 40, 44, 48, 52, 56, 60, 64, 68, 72, 76, 80,
    84, 88, 92, 96, 100]) ∧ (∃ (a : Nat), a ∈ [260, 264, 272, 280, 284, 292, 296]) :=
  ⟨⟨8, by decide +kernel⟩,
   ⟨0x128, by decide +kernel⟩⟩

theorem witness_HostWordWrites : (∃ (a : Nat) (s : State), memWf 0 s.win = true ∧ windowUp s = true ∧ a % 4 = 0 ∧ a < 65536 ∧
    (4096 ≤ a ∧ a < 12288 ∨ 40960 ≤ a ∧ a < 57344 ∧ s.hif.bufBusy.getLsbD ((a - 40960) / 4096) = false)) ∧ (∃ (a : Nat)
    (s : State), memWf 0 s.win = true ∧ windowUp s = true ∧ a % 4 = 0 ∧ a < 65536 ∧ (12288 ≤ a ∧ a < 36864 ∨ 36864 ≤ a ∧ a <
    40960 ∨ 57344 ≤ a ∧ a < 61440 ∨ 512 ≤ a ∧ a < 4096 ∨ 40960 ≤ a ∧ a < 57344 ∧ s.hif.bufBusy.getLsbD ((a - 40960) / 4096) =
    true)) :=
  ⟨⟨12000, liveSt, by decide +kernel⟩,
   ⟨2048, liveSt, by decide +kernel⟩⟩

theorem witness_RegisterAccesses : (∃ (addr : Half) (data : List Byte), addr.toNat % 4 = 0 ∧ data ≠ [] ∧ data.length % 4 = 0 ∧
    data.length ≤ 256) ∧ (∃ (instr : Byte) (addr : Half) (data : List Byte), (instr ≠ 2 ∨ addr.toNat % 4 ≠ 0 ∨ data = [] ∨
    data.length % 4 ≠ 0 ∨ 256 < data.length)) ∧ (∃ (addr : Half) (words : Nat), addr.toNat % 4 = 0 ∧ words ≠ 0) ∧ (∃
    (instr : Byte) (addr : Half) (words : Nat) (ragged : Bool), (instr ≠ 3 ∨ addr.toNat % 4 ≠ 0 ∨ ragged = true ∨ words = 0))
    ∧ (∃ (addr : Half) (size : Nat) (s : State), windowUp s = true ∧ (¬(size = 4 ∧ addr.toNat % 4 = 0)) ∧ ¬(size = 8 ∧
    addr.toNat % 8 = 0)) ∧ (∃ (addr : Half), addr.toNat % 8 = 0) ∧ (∃ (link : Link) (wide : Bool) (s : State), windowUp s =
    true ∧ ¬(link = Link.pcie ∧ wide = true)) ∧ (∃ (s : State), s.pins.vsbValid = true ∧ windowUp s = false) ∧ (∃ (s : State),
    s.pins.vsbValid = true ∧ (s.pwr.phase = .steady PState.sleep ∨ s.pwr.phase = .steady PState.deep ∨ ∃ (st : PState)
    (k : Nat), s.pwr.phase = .exit st k)) ∧ (∃ (s : State), windowUp s = true ∧ (s.pwr.phase = .steady PState.sleep ∨ ∃
    (st : PState) (k : Nat), s.pwr.phase = .exit st k)) :=
  ⟨⟨0, [0,0,0,0], by decide +kernel⟩,
   ⟨0, 0, [], by decide +kernel⟩,
   ⟨0, 1, by decide +kernel⟩,
   ⟨3, 0, 0, false, by decide +kernel⟩,
   ⟨0, 0, liveSt, by decide +kernel⟩,
   ⟨0, by decide +kernel⟩,
   ⟨.spi, false, liveSt, by decide +kernel⟩,
   ⟨inPhase (.steady .deep) runSt, by decide +kernel⟩,
   ⟨inPhase (.steady .sleep) runSt, by decide +kernel, Or.inl rfl⟩,
   ⟨inPhase (.steady .sleep) runSt, by decide +kernel, Or.inl rfl⟩⟩

theorem witness_DoorbellSubmits : (∃ (q : BitVec 2) (s : State), windowUp s = true ∧ (s.hif.cqTail.get q - s.hif.cqHead.get
    q).toNat < 32) ∧ (∃ (q : BitVec 2) (s : State) (v : Word), windowUp s = true ∧ (s.hif.cqTail.get q - s.hif.cqHead.get
    q).toNat + (BitVec.ofNat 6 (v.toNat) - s.hif.cqTail.get q).toNat ≤ 32) ∧ (∃ (q : BitVec 2) (s : State) (v : Word),
    windowUp s = true ∧ 32 < (s.hif.cqTail.get q - s.hif.cqHead.get q).toNat + (BitVec.ofNat 6 (v.toNat) - s.hif.cqTail.get
    q).toNat) :=
  ⟨⟨0, liveSt, by decide +kernel⟩,
   ⟨0, liveSt, 0, by decide +kernel⟩,
   ⟨0, liveSt, 255, by decide +kernel⟩⟩

theorem witness_QueueHeadWrites : (∃ (v : Word) (s : State), windowUp s = true ∧ (v.toNat % 512 + 512 - s.hif.nqHead.toNat) %
    512 ≤ (s.hif.nqTail.toNat + 512 - s.hif.nqHead.toNat) % 512) ∧ (∃ (v : Word) (s : State), windowUp s = true ∧
    (s.hif.nqTail.toNat + 512 - s.hif.nqHead.toNat) % 512 < (v.toNat % 512 + 512 - s.hif.nqHead.toNat) % 512) ∧ (∃ (v : Word)
    (s : State), windowUp s = true ∧ (v.toNat % 256 + 256 - s.hif.rqHead.toNat) % 256 ≤ (s.hif.rqTail.toNat + 256 -
    s.hif.rqHead.toNat) % 256) ∧ (∃ (v : Word) (s : State), windowUp s = true ∧ (s.hif.rqTail.toNat + 256 -
    s.hif.rqHead.toNat) % 256 < (v.toNat % 256 + 256 - s.hif.rqHead.toNat) % 256) :=
  ⟨⟨0, liveSt, by decide +kernel⟩,
   ⟨1, liveSt, by decide +kernel⟩,
   ⟨0, liveSt, by decide +kernel⟩,
   ⟨1, liveSt, by decide +kernel⟩⟩

theorem witness_InterruptAndControlWrites : (∃ (v : Word) (s : State), windowUp s = true ∧ (BitVec.getLsbD v 31 = false ∨
    BitVec.extractLsb' 8 8 v ≠ 165 ∨ s.pwr.phase = .orderlyOff)) ∧ (∃ (v : Word) (s : State), windowUp s = true ∧
    BitVec.getLsbD v 31 = true ∧ BitVec.extractLsb' 8 8 v = 165 ∧ s.pwr.phase ≠ .orderlyOff) :=
  ⟨⟨0, liveSt, by decide +kernel⟩,
   ⟨0x8000A500, liveSt, by decide +kernel⟩⟩

theorem witness_FaultClear : (∃ (link : Link) (v : Word) (s : State), answers link 260 s = true ∧ s.aon.valid = true ∧
    BitVec.getLsbD v 31 = true ∧ faultStands s = false) ∧ (∃ (link : Link) (v : Word) (s : State), answers link 260 s = true ∧
    s.aon.valid = true ∧ BitVec.getLsbD v 31 = true ∧ faultStands s = true) :=
  ⟨⟨.pcie, 0x80000000, { liveSt with aon := { valid := true } }, by decide +kernel⟩,
   ⟨.spi, 0x80000000, { liveSt with aon := { valid := true, code := 3, coppice := 5 } }, by decide +kernel⟩⟩

theorem witness_CommandsTurnedAway : (∃ (i : Instr) (op : Nat) (h : Hdr) (s : State) (st : St), mailbox i = some (op, h) ∧
    admitted op s = .refuse st) ∧ (∃ (i : Instr) (op : Nat) (h : Hdr) (s : State), mailbox i = some (op, h) ∧ admitted op s =
    .ignore) :=
  ⟨⟨.keyKekInfo hA, 0x0801, hA, { runSt with ident := { variant := .cn } }, .notAvailable, by decide +kernel⟩,
   ⟨.keyKekInfo hA, 0x0801, hA, State.reset, by decide +kernel⟩⟩

theorem witness_AdmissionByState : (∃ (s : State), s.hif.ready = true ∧ s.q.acting = none ∧ s.hif.recovery = true) ∧ (∃
    (op : Nat) (s : State), s.hif.ready = true ∧ s.q.acting = none ∧ s.hif.recovery = false ∧ op / 256 = 8 ∧ s.ident.variant =
    Variant.cn) ∧ (∃ (op : Nat) (s : State), s.hif.ready = true ∧ s.q.acting = none ∧ s.hif.recovery = false ∧ (op / 256 ≠ 8 ∨
    s.ident.variant ≠ Variant.cn) ∧ s.dbg.frozen = true ∧ op / 256 ≠ 1 ∧ op / 256 ≠ 13 ∧ op / 256 ≠ 15 ∧ cardReads op = false)
    ∧ (∃ (op : Nat) (s : State) (k : Nat), s.hif.ready = true ∧ s.q.acting = none ∧ s.hif.recovery = false ∧ (op / 256 ≠ 8 ∨
    s.ident.variant ≠ Variant.cn) ∧ (s.dbg.frozen = false ∨ op / 256 = 1 ∨ op / 256 = 13 ∨ op / 256 = 15 ∨ cardReads op =
    true) ∧ s.pwr.phase = .boot k) ∧ (∃ (op : Nat) (s : State) (o : PState) (k : Nat), s.hif.ready = true ∧ s.q.acting = none
    ∧ s.hif.recovery = false ∧ (op / 256 ≠ 8 ∨ s.ident.variant ≠ Variant.cn) ∧ (s.dbg.frozen = false ∨ op / 256 = 1 ∨ op / 256
    = 13 ∨ op / 256 = 15 ∨ cardReads op = true) ∧ s.pwr.phase = .exit o k) ∧ (∃ (op : Nat) (s : State), s.hif.ready = true ∧
    s.q.acting = none ∧ s.hif.recovery = false ∧ (op / 256 ≠ 8 ∨ s.ident.variant ≠ Variant.cn) ∧ (s.dbg.frozen = false ∨ op /
    256 = 1 ∨ op / 256 = 13 ∨ op / 256 = 15 ∨ cardReads op = true) ∧ s.pwr.phase = .steady PState.run) ∧ (∃ (op : Nat)
    (s : State), s.hif.ready = true ∧ s.q.acting = none ∧ s.hif.recovery = false ∧ (op / 256 ≠ 8 ∨ s.ident.variant ≠
    Variant.cn) ∧ (s.dbg.frozen = false ∨ op / 256 = 1 ∨ op / 256 = 13 ∨ op / 256 = 15 ∨ cardReads op = true) ∧ s.pwr.phase =
    .steady PState.idle) ∧ (∃ (op : Nat) (s : State), s.hif.ready = true ∧ s.q.acting = none ∧ s.hif.recovery = false ∧ (op /
    256 ≠ 8 ∨ s.ident.variant ≠ Variant.cn) ∧ (s.dbg.frozen = false ∨ op / 256 = 1 ∨ op / 256 = 13 ∨ op / 256 = 15 ∨ cardReads
    op = true) ∧ s.pwr.phase = .steady PState.watch) ∧ (∃ (op : Nat) (s : State), s.hif.ready = true ∧ s.q.acting = none ∧
    s.hif.recovery = false ∧ (op / 256 ≠ 8 ∨ s.ident.variant ≠ Variant.cn) ∧ (s.dbg.frozen = false ∨ op / 256 = 1 ∨ op / 256 =
    13 ∨ op / 256 = 15 ∨ cardReads op = true) ∧ s.pwr.phase = .steady PState.sleep) :=
  ⟨⟨{ runSt with hif := { ready := true, recovery := true } }, by decide +kernel⟩,
   ⟨2048, { runSt with ident := { variant := .cn } }, by decide +kernel⟩,
   ⟨0, frozenSt, by decide +kernel⟩,
   ⟨0x0201, inPhase (.boot 3) runSt, 3, by decide +kernel⟩,
   ⟨0, inPhase (.exit .sleep 1) runSt, .sleep, 1, by decide +kernel⟩,
   ⟨0x0101, runSt, by decide +kernel⟩,
   ⟨0x0101, inPhase (.steady .idle) runSt, by decide +kernel⟩,
   ⟨0x0101, inPhase (.steady .watch) runSt, by decide +kernel⟩,
   ⟨0x0101, inPhase (.steady .sleep) runSt, by decide +kernel⟩⟩

theorem witness_AdmissionByState_2 : (∃ (op : Nat) (s : State) (st k : PState), s.hif.ready = true ∧ s.q.acting = none ∧
    s.hif.recovery = false ∧ (op / 256 ≠ 8 ∨ s.ident.variant ≠ Variant.cn) ∧ (s.dbg.frozen = false ∨ op / 256 = 1 ∨ op / 256 =
    13 ∨ op / 256 = 15 ∨ cardReads op = true) ∧ s.pwr.phase = .entry st k ∧ st ≠ PState.deep ∧ st ≠ PState.off) ∧ (∃
    (op : Nat) (s : State), s.hif.ready = true ∧ s.q.acting = none ∧ s.hif.recovery = false ∧ (op / 256 ≠ 8 ∨ s.ident.variant
    ≠ Variant.cn) ∧ (s.dbg.frozen = false ∨ op / 256 = 1 ∨ op / 256 = 13 ∨ op / 256 = 15 ∨ cardReads op = true) ∧ ((∃
    (k : PState), s.pwr.phase = .entry PState.deep k ∨ s.pwr.phase = .entry PState.off k) ∨ s.pwr.phase = .orderlyOff ∨
    s.pwr.phase = .inert)) ∧ (∃ (op : Nat) (s : State), s.hif.ready = true ∧ s.q.acting = none ∧ s.hif.recovery = false ∧ (op
    / 256 ≠ 8 ∨ s.ident.variant ≠ Variant.cn) ∧ (s.dbg.frozen = false ∨ op / 256 = 1 ∨ op / 256 = 13 ∨ op / 256 = 15 ∨
    cardReads op = true) ∧ (s.pwr.phase = .steady PState.deep ∨ s.pwr.phase = .steady PState.off)) :=
  ⟨⟨0x0101, inPhase (.entry .sleep .run) runSt, .sleep, .run, by decide +kernel⟩,
   ⟨0x0101, inPhase .orderlyOff runSt, by decide +kernel, by decide +kernel, by decide +kernel, by decide +kernel,
     by decide +kernel, Or.inr (Or.inl rfl)⟩,
   ⟨0x0101, inPhase (.steady .deep) runSt, by decide +kernel⟩⟩

theorem witness_ResponseWritten : (∃ (h : Hdr) (out : Option (List Byte)) (s : State) (b : Nat), memWf 0 s.win = true ∧ (b <
    responseAt s ∨ responseAt s + 64 ≤ b) ∧ (h.buf = false ∨ out = none ∨ b < bufBase h.bufIdx ∨ bufBase h.bufIdx + 4096 ≤ b))
    ∧ (∃ (h : Hdr) (s : State) (bs : List Byte) (k : Nat), memWf 0 s.win = true ∧ h.buf = true ∧ k < bs.length ∧ k < 4096) ∧
    (∃ (h : Hdr) (st : St) (s : State), memWf 0 s.win = true ∧ (h.quiet = false ∨ lateStatus h st s ≠ St.ok) ∧ (rqFree s.hif =
    false ∨ s.q.rspWait ≠ [])) ∧ (∃ (h : Hdr) (st : St) (s : State) (k : Nat), memWf 0 s.win = true ∧ (h.quiet = false ∨
    lateStatus h st s ≠ St.ok) ∧ rqFree s.hif = true ∧ s.q.rspWait = [] ∧ k < 64) ∧ (∃ (h : Hdr) (st : St) (s : State), memWf
    0 s.win = true ∧ h.quiet = true ∧ lateStatus h st s = St.ok) :=
  ⟨⟨hA, none, liveSt, 0, by decide +kernel⟩,
   ⟨hB, liveSt, [1], 0, by decide +kernel⟩,
   ⟨hA, .ok, { runSt with q := { rspWait := [(0, [])] } }, by decide +kernel⟩,
   ⟨hA, .ok, liveSt, 0, by decide +kernel⟩,
   ⟨{ hA with quiet := true }, .ok, runSt, by decide +kernel⟩⟩

theorem witness_ScheduledCommandsInOrder : (∃ (s : State), ticking s = true ∧ s.hif.ready = true ∧ ∃ p ∈ s.q.pend, mayAct s p
    = true) ∧ (∃ (s : State), ticking s = true ∧ s.hif.ready = true ∧ ∀ p ∈ s.q.pend, mayAct s p = false) :=
  ⟨⟨{ runSt with q := { pend := [⟨0, .sysIdentify hA, ⟨307200, 0⟩, false, false, false⟩] } }, by decide +kernel⟩,
   ⟨liveSt, by decide +kernel⟩⟩

theorem witness_NotificationsInOrder : ∃ (l : List Note), List.Pairwise (fun (a b : Note) => noteLe a b = true) l :=
  ⟨[], by decide +kernel⟩

theorem witness_WardenTimers : (∃ (s : State), s.dbg.frozen = false ∧ restarting s = false ∧ s.time.running = true) ∧ (∃
    (s : State), (s.dbg.frozen = true ∨ restarting s = true ∨ s.time.running = false)) ∧ (∃ (s : State), restarting s = true)
    ∧ (∃ (s : State), ticking s = true) ∧ (∃ (s : State), admitted 257 s = .accept) ∧ (∃ (g : Hdr) (target : Half) (p : Pend)
    (op : Nat) (s : State), admitted 258 s = .accept ∧ List.find? (schedTagged target) s.q.pend = some p ∧ mailbox p.cmd =
    some (op, g)) ∧ (∃ (h : Hdr) (target : Half) (s : State), admitted 258 s = .accept ∧ List.find? (schedTagged target)
    s.q.pend = none ∧ (∀ o ∈ s.q.outst, o.tag = target → o.tag = h.tag ∨ o.sched = false ∨ o.answered = true ∨ ∃ w ∈
    s.q.waiting, w.ord = o.ord)) ∧ (∃ (h : Hdr) (target : Half) (o : Outst) (s : State), admitted 258 s = .accept ∧ List.find?
    (schedTagged target) s.q.pend = none ∧ o ∈ s.q.outst ∧ o.tag = target ∧ target ≠ h.tag ∧ o.sched = true ∧ o.answered =
    false ∧ ∀ w ∈ s.q.waiting, w.ord ≠ o.ord) :=
  ⟨⟨liveSt, by decide +kernel⟩,
   ⟨frozenSt, by decide +kernel⟩,
   ⟨{ runSt with flash := { wardenOnly := true }, hif := {} }, by decide +kernel⟩,
   ⟨liveSt, by decide +kernel⟩,
   ⟨liveSt, by decide +kernel⟩,
   ⟨{ hA with sched := true }, 1, ⟨0, .sysIdentify { hA with sched := true }, ⟨0, 0⟩, false, false, false⟩, 0x0101,
     { runSt with q := { pend := [⟨0, .sysIdentify { hA with sched := true }, ⟨0, 0⟩, false, false, false⟩] } },
     by decide +kernel⟩,
   ⟨hA, 0, liveSt, by decide +kernel⟩,
   ⟨hA, 2, ⟨0, 2, none, false, false, true⟩, { runSt with q := { outst := [⟨0, 2, none, false, false, true⟩] } },
     by decide +kernel⟩⟩

theorem witness_CheckValues : (∃ (profile width flags : Byte) (poly init xorOut : Dword) (s : State), admitted 3585 s =
    .accept ∧ profile = 3 ∧ width ∈ [8, 16, 32, 64] ∧ flags &&& 252 = 0 ∧ poly.toNat < 2 ^ width.toNat ∧ init.toNat < 2 ^
    width.toNat ∧ xorOut.toNat < 2 ^ width.toNat ∧ (∀ c ∈ s.cv.ctx, c.job = true → c.profile ≠ 3)) ∧ (∃
    (profile width flags : Byte) (poly init xorOut : Dword) (s : State), admitted 3585 s = .accept ∧ profile = 3 ∧ width ∈ [8,
    16, 32, 64] ∧ flags &&& 252 = 0 ∧ poly.toNat < 2 ^ width.toNat ∧ init.toNat < 2 ^ width.toNat ∧ xorOut.toNat < 2 ^
    width.toNat ∧ ∃ c ∈ s.cv.ctx, c.job = true ∧ c.profile = 3) ∧ (∃ (profile width flags : Byte) (poly init xorOut : Dword)
    (s : State), admitted 3585 s = .accept ∧ ¬(profile = 3 ∧ width ∈ [8, 16, 32, 64] ∧ flags &&& 252 = 0 ∧ poly.toNat < 2 ^
    width.toNat ∧ init.toNat < 2 ^ width.toNat ∧ xorOut.toNat < 2 ^ width.toNat)) ∧ (∃ (h : Hdr)
    (profile mode ctx src region : Byte) (offset : Dword) (len : Word) (s : State), admitted 3586 s = .accept ∧ firstFail
    (cvRunCheck h profile mode ctx src region offset len s) = none) ∧ (∃ (h : Hdr) (profile mode ctx src region : Byte)
    (offset : Dword) (len : Word) (st : St) (s : State), admitted 3586 s = .accept ∧ firstFail (cvRunCheck h profile mode ctx
    src region offset len s) = some st) ∧ (∃ (h : Hdr) (profile : Byte), profile.toNat ≤ 3 ∧ h.buf = true) ∧ (∃ (h : Hdr)
    (ctx : Byte) (s : State), admitted 3587 s = .accept ∧ ctx.toNat ≤ 5 ∧ h.buf = true ∧ cvRunning ctx s = false ∧ (cvCtx ctx
    s).job = true) ∧ (∃ (h : Hdr) (ctx : Byte) (profile rem bytes : Nat) (s : State), admitted 3588 s = .accept ∧ ctx.toNat ≤
    5 ∧ h.buf = true ∧ h.length = 32 ∧ cvRunning ctx s = false ∧ profile ≤ 3 ∧ bytes < 2 ^ 64 ∧ (cvParams profile s).width ≤
    64 ∧ rem < 2 ^ (cvParams profile s).width ∧ bufData h s = cvCtxBytes profile (cvParams profile s) rem bytes) ∧ (∃
    (profile src region blk : Byte) (offset len : Dword) (action : Byte) (work : Dword) (s : State), admitted 3589 s = .accept
    ∧ profile.toNat ≤ 3 ∧ src.toNat ≤ 1 ∧ 9 ≤ blk.toNat ∧ blk.toNat ≤ 20 ∧ action.toNat ≤ 1 ∧ cvSourceBad src region
    (offset.toNat) (len.toNat) = false ∧ work.toNat + scanBlocks blk (len.toNat) * ((cvParams (profile.toNat) s).width / 8) ≤
    1073741824 ∧ s.cv.damaged = false) :=
  ⟨⟨3, 16, 0, 0x1021, 0xFFFF, 0, runSt, by decide +kernel⟩,
   ⟨3, 16, 0, 0x1021, 0xFFFF, 0, { runSt with cv := { ctx := [⟨true, 3, 0, 0⟩] } }, by decide +kernel⟩,
   ⟨0, 0, 0, 0, 0, 0, liveSt, by decide +kernel⟩,
   ⟨hA, 0, 0, 0, 0, 0, 0, 0, liveSt, by decide +kernel⟩,
   ⟨hA, 4, 0, 0, 0, 0, 0, 0, .badArg, liveSt, by decide +kernel⟩,
   ⟨hB, 0, by decide +kernel⟩,
   ⟨hB, 0, { runSt with cv := { ctx := [⟨true, 0, 0, 0⟩] } }, by decide +kernel⟩,
   ⟨{ hB with length := 32 }, 5, 0, 0, 0, bufSt (cvCtxBytes 0 (cvParams 0 runSt) 0 0), by decide +kernel⟩,
   ⟨0, 0, 0, 16, 0, 0, 0, 0, liveSt, by decide +kernel⟩⟩

theorem witness_CheckValues_2 : (∃ (profile src region blk : Byte) (offset len : Dword) (action : Byte) (work : Dword)
    (s : State), admitted 3589 s = .accept ∧ profile.toNat ≤ 3 ∧ src.toNat ≤ 1 ∧ 9 ≤ blk.toNat ∧ blk.toNat ≤ 20 ∧ action.toNat
    ≤ 1 ∧ cvSourceBad src region (offset.toNat) (len.toNat) = false ∧ work.toNat + scanBlocks blk (len.toNat) * ((cvParams
    (profile.toNat) s).width / 8) ≤ 1073741824 ∧ s.cv.damaged = true) ∧ (∃ (h : Hdr) (profile ctx : Byte) (late : Bool) (rest
    : List CvJob) (s : State), s.hif.ready = true ∧ s.cv.jobs = { cmd := Instr.cvRun h profile 0 ctx 2 0 0 0, late := late }
    :: rest) ∧ (∃ (s : State), s.cv.jobs = []) :=
  ⟨⟨0, 0, 0, 16, 0, 0, 0, 0, { liveSt with cv := { damaged := true } }, by decide +kernel⟩,
   ⟨hB, 0, 0, true, [], { runSt with cv := { jobs := [⟨.cvRun hB 0 0 0 2 0 0 0, true⟩] } }, by decide +kernel⟩,
   ⟨liveSt, by decide +kernel⟩⟩

theorem witness_FlashCare : (∃ (s : State), admitted 3360 s = .accept) ∧ (∃ (s : State), s.pwr.powered.getLsbD 1 = true ∧
    (s.flash.patrol ∈ s.flash.lostBlocks ∨ s.flash.patrol ∈ s.flash.factory)) ∧ (∃ (bits : Nat) (retry : Bool) (s : State),
    s.pwr.powered.getLsbD 1 = true ∧ s.flash.patrol ∉ s.flash.lostBlocks ∧ s.flash.patrol ∉ s.flash.factory ∧ refreshRuns s =
    true ∧ (blockHeld s.flash.patrol s = true ∧ 1826 * 86400 * 32768 ≤ extTimer s - countAt s.flash.patrol s.flash.dates ∨ 8 <
    bits ∨ retry = true ∨ 100000 ≤ countAt s.flash.patrol s.flash.reads + 1)) ∧ (∃ (bits : Nat) (retry : Bool) (s : State),
    s.pwr.powered.getLsbD 1 = true ∧ s.flash.patrol ∉ s.flash.lostBlocks ∧ s.flash.patrol ∉ s.flash.factory ∧ (refreshRuns s =
    false ∨ (blockHeld s.flash.patrol s = false ∨ extTimer s - countAt s.flash.patrol s.flash.dates < 1826 * 86400 * 32768) ∧
    bits ≤ 8 ∧ retry = false ∧ countAt s.flash.patrol s.flash.reads + 1 < 100000)) ∧ (∃ (block : Nat) (s : State),
    s.pwr.powered.getLsbD 1 = true ∧ block < 4096 ∧ (block ∈ s.flash.lostBlocks ∨ block ∈ s.flash.factory)) ∧ (∃ (block : Nat)
    (s : State), s.pwr.powered.getLsbD 1 = true ∧ block < 4096 ∧ block ∉ s.flash.lostBlocks ∧ block ∉ s.flash.factory ∧ 64 <
    s.flash.spare ∧ (logStores (s.flash.stage.length + 1) (extTimer s) (retire block s.flash)).2 = []) :=
  ⟨⟨runSt, by decide +kernel⟩,
   ⟨{ runSt with flash := { factory := [0] } }, by decide +kernel⟩,
   ⟨9, false, runSt, by decide +kernel⟩,
   ⟨8, false, runSt, by decide +kernel⟩,
   ⟨0, { runSt with flash := { lostBlocks := [0] } }, by decide +kernel⟩,
   ⟨0, liveSt, by decide +kernel⟩⟩

theorem witness_FirmwareAndLog : (∃ (h : Hdr) (offset : Word) (s : State), admitted 3329 s = .accept ∧ offset.toNat % 4096 = 0
    ∧ h.buf = true ∧ offset.toNat + h.length.toNat ≤ 512 * 262144 ∧ (slotBlock (stageSlot s) + offset.toNat / 262144) ∉
    s.flash.lostBlocks) ∧ (∃ (h : Hdr) (offset : Word) (s : State), admitted 3329 s = .accept ∧ offset.toNat % 4096 = 0 ∧
    h.buf = true ∧ offset.toNat + h.length.toNat ≤ 512 * 262144 ∧ (slotBlock (stageSlot s) + offset.toNat / 262144) ∈
    s.flash.lostBlocks) ∧ (∃ (i : Image) (s : State), admitted 3331 s = .accept ∧ s.flash.committed = true ∧ schedPending s =
    false ∧ s.hif.recovery = false ∧ slotImage (stageSlot s) s = some i ∧ i.hitless = true) ∧ (∃ (i : Image) (s : State),
    admitted 3331 s = .accept ∧ s.flash.committed = true ∧ schedPending s = false ∧ s.hif.recovery = false ∧ slotImage
    (stageSlot s) s = some i ∧ i.hitless = false) ∧ (∃ (s : State), admitted 3332 s = .accept ∧ s.flash.trialRuns = true ∧
    s.aon.running ≠ s.aon.pref) ∧ (∃ (s : State), admitted 3332 s = .accept ∧ (s.flash.trialRuns = false ∨ s.aon.running =
    s.aon.pref)) ∧ (∃ (h : Hdr) (first : Sf) (count : Byte) (last : LogEntry) (s : State), admitted 3344 s = .accept ∧ h.buf =
    true ∧ 1 ≤ count.toNat ∧ count.toNat ≤ 64 ∧ (s.flash.log ++ s.flash.stage).getLast? = some last ∧ first.toNat ≤
    last.seq.toNat) :=
  ⟨⟨hB, 0, liveSt, by decide +kernel⟩,
   ⟨hB, 0, { liveSt with flash := { lostBlocks := [slotBlock true] } }, by decide +kernel⟩,
   ⟨⟨0x00030300, 1, 2, true, true⟩, { runSt with flash := { imgB := some ⟨0x00030300, 1, 2, true, true⟩, committed := true } },
     by decide +kernel⟩,
   ⟨⟨0x00030300, 1, 2, false, true⟩, { runSt with flash := { imgB := some ⟨0x00030300, 1, 2, false, true⟩, committed := true } },
     by decide +kernel⟩,
   ⟨{ runSt with aon := { running := true }, flash := { imgB := some ⟨0x00030300, 64, 2, true, true⟩, trialRuns := true } },
     by decide +kernel⟩,
   ⟨runSt, by decide +kernel⟩,
   ⟨hB, 0, 64, ⟨0, 0, 0, 0, ⟨0, 0⟩, 0, 0, []⟩, { runSt with flash := { stage := [⟨0, 0, 0, 0, ⟨0, 0⟩, 0, 0, []⟩] } },
     by decide +kernel⟩⟩

theorem witness_TaskSchedule : (∃ (t : Task) (x : TaskSt) (s : State), s.dbg.frozen = false ∧ taskAt t s = some x ∧ x.running
    = true ∧ x.halted = false) ∧ (∃ (t : Task) (x : TaskSt) (s : State), atBoundary s = true ∧ inRun s = true ∧ taskAt t s =
    some x ∧ x.running = false ∧ x.halted = false ∧ taskHeld t s = false ∧ x.next.toNat ≤ s.time.lts.sf.toNat) ∧ (∃ (t : Task)
    (x : TaskSt) (s : State), atBoundary s = true ∧ inRun s = true ∧ taskAt t s = some x ∧ x.running = false ∧ x.halted =
    false ∧ taskHeld t s = false ∧ s.time.lts.sf.toNat < x.next.toNat) ∧ (∃ (s : State), s.time.lts.sym ≠ 0) ∧ (∃ (b : Sf)
    (x : TaskSt), (x.period = 1 ∧ x.anchor.toNat + x.n < b.toNat ∨ x.period ≠ 1 ∧ x.anchor.toNat + x.n * x.period + 4 *
    x.period < b.toNat)) ∧ (∃ (b : Sf) (x : TaskSt), (x.period = 1 ∧ b.toNat ≤ x.anchor.toNat + x.n ∨ x.period ≠ 1 ∧ b.toNat ≤
    x.anchor.toNat + x.n * x.period + 4 * x.period)) :=
  ⟨⟨.bias, { task := .bias, period := 16, running := true },
     { runSt with sedge := { tasks := [{ task := .bias, period := 16, running := true }] } }, by decide +kernel⟩,
   ⟨.bias, { task := .bias, period := 16, next := 307200 },
     { runSt with sedge := { tasks := [{ task := .bias, period := 16, next := 307200 }] } }, by decide +kernel⟩,
   ⟨.bias, { task := .bias, period := 16, next := 307201 },
     { runSt with sedge := { tasks := [{ task := .bias, period := 16, next := 307201 }] } }, by decide +kernel⟩,
   ⟨{ runSt with time := { runSt.time with lts := ⟨307200, 1⟩ } }, by decide +kernel⟩,
   ⟨81, { task := .bias, period := 16, n := 1 }, by decide +kernel⟩,
   ⟨80, { task := .bias, period := 16, n := 1 }, by decide +kernel⟩⟩

theorem witness_EngineHalts : (∃ (e : BitVec 6) (s : State), s.pwr.powered.getLsbD 1 = true ∧ s.dbg.frozen = false ∧ ∀ x ∈
    s.sedge.halted, x.1 ≠ e.toNat) ∧ (∃ (e : BitVec 6) (s : State), ∃ x ∈ s.sedge.halted, x.1 = e.toNat) :=
  ⟨⟨0, liveSt, by decide +kernel⟩,
   ⟨3, { runSt with sedge := { halted := [(3, 0)] } }, by decide +kernel⟩⟩

theorem witness_FrontEndEvents : (∃ (n : Nat) (s : State), ticking s = true ∧ 0 < n) ∧ (∃ (rx : RxAt) (x y : Bool) (sf : Sf)
    (s : State), sf = (rxStamp rx s).sf ∧ (x = true ↔ s.fe.stepX ≠ 0 ∧ s.fe.stepFromX.toNat ≤ sf.toNat ∧ s.fe.stepSfX ≠ some
    sf) ∧ (y = true ↔ s.fe.stepY ≠ 0 ∧ s.fe.stepFromY.toNat ≤ sf.toNat ∧ s.fe.stepSfY ≠ some sf) ∧ s.line.rxChain = true ∧
    s.dbg.frozen = false ∧ (s.eq.rawLosf = true ∨ rx.s = 32768) ∧ (x = true ∨ y = true)) ∧ (∃ (rx : RxAt) (x y : Bool)
    (sf : Sf) (s : State), sf = (rxStamp rx s).sf ∧ (x = true ↔ s.fe.stepX ≠ 0 ∧ s.fe.stepFromX.toNat ≤ sf.toNat ∧
    s.fe.stepSfX ≠ some sf) ∧ (y = true ↔ s.fe.stepY ≠ 0 ∧ s.fe.stepFromY.toNat ≤ sf.toNat ∧ s.fe.stepSfY ≠ some sf) ∧
    (s.line.rxChain = false ∨ s.dbg.frozen = true ∨ s.eq.rawLosf = false ∧ rx.s ≠ 32768 ∨ x = false ∧ y = false)) ∧ (∃
    (conv : Conv) (ch : BitVec 2) (slice : Byte) (s : State), (chanOf conv ch s).slices[slice.toNat]? = none) ∧ (∃
    (conv : Conv) (ch : BitVec 2) (slice : Byte) (s : State) (x : Slice), (chanOf conv ch s).slices[slice.toNat]? = some x ∧
    (x.st ≠ .active ∨ 0 < sparesOf (chanOf conv ch s))) ∧ (∃ (ch : BitVec 2) (slice : Byte) (s : State) (x : Slice), (chanOf
    Conv.adc ch s).slices[slice.toNat]? = some x ∧ x.st = .active ∧ sparesOf (chanOf Conv.adc ch s) = 0) ∧ (∃ (ch : BitVec 2)
    (slice : Byte) (s : State) (x : Slice), (chanOf Conv.dac ch s).slices[slice.toNat]? = some x ∧ x.st = .active ∧ sparesOf
    (chanOf Conv.dac ch s) = 0) :=
  ⟨⟨1, liveSt, by decide +kernel⟩,
   ⟨rx0, true, false, (rxStamp rx0 { liveSt with fe := { rawLos := false, stepX := 1 } }).sf,
     { liveSt with fe := { rawLos := false, stepX := 1 } }, by decide +kernel⟩,
   ⟨rx0, false, false, (rxStamp rx0 liveSt).sf, liveSt, by decide +kernel⟩,
   ⟨.adc, 0, 255, liveSt, by decide +kernel⟩,
   ⟨.adc, 3, 0, runSt, slice1, by decide +kernel⟩,
   ⟨3, 0, { runSt with fe := { adc := Four.all (Chan.fresh 64 0) } }, slice1, by decide +kernel⟩,
   ⟨3, 0, { runSt with tx := { dac := Four.all (Chan.fresh 32 0) } }, slice1, by decide +kernel⟩⟩

theorem witness_FrontEndCommands : (∃ (mode : Byte) (xGain yGain : Half) (rms : Byte) (ovrStep losThr : Half) (flags : Byte)
    (s : State), admitted 1088 s = .accept ∧ mode.toNat ≤ 2 ∧ xGain.toNat ≤ 48 ∧ yGain.toNat ≤ 48 ∧ 16 ≤ rms.toNat ∧ rms.toNat
    ≤ 40 ∧ ovrStep ≠ 0 ∧ -300 ≤ s16 losThr ∧ s16 losThr ≤ -120 ∧ flags &&& 254 = 0) ∧ (∃ (mode : Byte) (xGain yGain : Half)
    (rms : Byte) (ovrStep losThr : Half) (flags : Byte) (s : State), admitted 1088 s = .accept ∧ (2 < mode.toNat ∨ 48 <
    xGain.toNat ∨ 48 < yGain.toNat ∨ rms.toNat < 16 ∨ 40 < rms.toNat ∨ ovrStep = 0 ∨ s16 losThr < -300 ∨ -120 < s16 losThr ∨
    flags &&& 254 ≠ 0)) ∧ (∃ (flags : Byte) (s : State), admitted 1089 s = .accept ∧ flags &&& 254 = 0) ∧ (∃ (flags : Byte)
    (s : State), admitted 1089 s = .accept ∧ flags &&& 254 ≠ 0) ∧ (∃ (h : Hdr) (ch : Byte) (s : State), admitted 1090 s =
    .accept ∧ (3 < ch.toNat ∨ h.buf = false)) ∧ (∃ (h : Hdr) (ch : Byte) (s : State), admitted 1090 s = .accept ∧ ch.toNat ≤ 3
    ∧ h.buf = true) :=
  ⟨⟨0, 0, 0, 16, 1, 0xFF40, 0, liveSt, by decide +kernel⟩,
   ⟨0, 0, 0, 0, 0, 0, 0, liveSt, by decide +kernel⟩,
   ⟨0, liveSt, by decide +kernel⟩,
   ⟨2, liveSt, by decide +kernel⟩,
   ⟨hB, 4, liveSt, by decide +kernel⟩,
   ⟨hB, 0, liveSt, by decide +kernel⟩⟩

theorem witness_CoefficientSets : (∃ (h : Hdr) (set : Byte) (s : State), admitted 1091 s = .accept ∧ set.toNat ≤ 1 ∧ h.buf =
    false ∧ busyChanging s = false) ∧ (∃ (h : Hdr) (set : Byte) (check : Word) (s : State), admitted 1091 s = .accept ∧
    set.toNat ≤ 1 ∧ h.buf = true ∧ ((bufData h s).length = if set = 0 then 3072 else 24) ∧ busyChanging s = false ∧ check0
    (bufData h s) = check.toNat ∧ coefSums set (i16s (bufData h s)) = true ∧ s.line.cur.isSome = true ∧ s.line.rxChain = true
    ∧ changeHere s = false) ∧ (∃ (h : Hdr) (set : Byte) (check : Word) (s : State), admitted 1091 s = .accept ∧ set.toNat ≤ 1
    ∧ h.buf = true ∧ ((bufData h s).length = if set = 0 then 3072 else 24) ∧ busyChanging s = false ∧ check0 (bufData h s) ≠
    check.toNat) ∧ (∃ (r : Restart) (s : State), ticking s = true ∧ s.line.change = none ∧ s.line.cur.isSome = true ∧
    s.line.rxChain = false ∧ s.fe.restart = some r ∧ s.tx.restart = none ∧ r.c.toNat + 1 ≤ s.time.lts.sf.toNat) :=
  ⟨⟨hA, 0, liveSt, by decide +kernel⟩,
   ⟨{ hB with length := 24 }, 1, BitVec.ofNat 32 (check0 (leBytes 2 8160 ++ List.replicate 22 0)),
     { bufSt (leBytes 2 8160 ++ List.replicate 22 0) with line := liveSt.line }, by decide +kernel⟩,
   ⟨{ hB with length := 24 }, 1, 0, bufSt (leBytes 2 8160 ++ List.replicate 22 0), by decide +kernel⟩,
   ⟨⟨307199, hA, false⟩, { liveSt with line := { cur := some mode4 }, fe := { restart := some ⟨307199, hA, false⟩ } },
     by decide +kernel⟩⟩

theorem witness_Acquisition : (∃ (reason : Nat), reason ≠ 0) ∧ (∃ (new : Nat) (s : State), s.eq.st = 8 ∧ new ≠ 8) ∧ (∃
    (s : State), s.eq.st ≠ 8 ∧ s.fec.st = 1) ∧ (∃ (new : Nat) (s : State), s.eq.st ≠ 8 ∧ (new ≠ 8 ∨ s.fec.st ≠ 1)) ∧ (∃
    (s : State), s.eq.st = 0 ∧ acqReady s = true ∧ eqMoves s = true ∧ s.eq.warmOk = true ∧ withinWarm s = true) ∧ (∃
    (s : State), s.eq.st = 0 ∧ acqReady s = true ∧ eqMoves s = true ∧ (s.eq.warmOk = false ∨ withinWarm s = false)) ∧ (∃
    (c : Int) (cands found : List Int) (s : State), eqMoves s = true ∧ s.eq.st = 1 ∧ sweepKeeps (rateNow s) s.eq.sweepWin
    found = c :: cands) ∧ (∃ (rate : Nat) (win : Option (Int × Int)) (found : List Int) (c : Int), c ∈ sweepKeeps rate win
    found) ∧ (∃ (s : State), eqMoves s = true ∧ s.eq.st = 2 ∧ s.eq.held = false ∧ s.eq.locked = true) :=
  ⟨⟨1, by decide +kernel⟩,
   ⟨0, liveSt, by decide +kernel⟩,
   ⟨{ liveSt with eq := { st := 2 }, fec := { st := 1 } }, by decide +kernel⟩,
   ⟨0, eqSt { st := 2 }, by decide +kernel⟩,
   ⟨{ liveSt with eq := { warmOk := true, trackOut := 307100 } }, by decide +kernel⟩,
   ⟨{ liveSt with eq := { st := 0 } }, by decide +kernel⟩,
   ⟨5, [], [5], eqSt { st := 1 }, by decide +kernel⟩,
   ⟨240000000, none, [5], 5, by decide +kernel⟩,
   ⟨eqSt { st := 2, locked := true }, by decide +kernel⟩⟩

theorem witness_Acquisition_2 : (∃ (cfo : Int) (s : State), eqMoves s = true ∧ s.eq.st = 3 ∧ cfo.natAbs ≤ 3600000) ∧ (∃
    (s : State), eqMoves s = true ∧ s.eq.st = 4 ∧ 2 ≤ s.eq.foundRun) ∧ (∃ (s : State), eqMoves s = true ∧ s.eq.st = 5 ∧
    s.eq.held = false ∧ 8 ≤ s.eq.foundRun ∧ s.eq.sForm = true) ∧ (∃ (s : State), eqMoves s = true ∧ s.eq.st = 6 ∧ s.eq.held =
    false ∧ 16 ≤ s.eq.pilotRun) ∧ (∃ (s : State), eqMoves s = true ∧ s.eq.st = 7 ∧ 256 ≤ s.eq.snrRun) ∧ (∃ (cfo : Int)
    (s : State), eqMoves s = true ∧ (s.eq.held = true ∧ (s.eq.st = 2 ∨ s.eq.st = 5 ∨ s.eq.st = 6) ∨ s.eq.st = 2 ∧ s.eq.locked
    = false ∨ s.eq.st = 3 ∧ 3600000 < cfo.natAbs ∨ s.eq.st = 4 ∧ s.eq.foundRun < 2 ∨ s.eq.st = 5 ∧ (s.eq.foundRun < 8 ∨
    s.eq.sForm = false) ∨ s.eq.st = 6 ∧ s.eq.pilotRun < 16 ∨ s.eq.st = 7 ∧ s.eq.snrRun < 256)) ∧ (∃ (s : State) (c : Int)
    (rest : List Int), eqMoves s = true ∧ 1 ≤ s.eq.st ∧ s.eq.st ≤ 7 ∧ acqTimeout s.eq.st ≤ sfSince s.eq.since s ∧ s.eq.st ≠ 1
    ∧ s.eq.warm = false ∧ s.eq.cands = c :: rest) ∧ (∃ (s : State), eqMoves s = true ∧ 1 ≤ s.eq.st ∧ s.eq.st ≤ 7 ∧ acqTimeout
    s.eq.st ≤ sfSince s.eq.since s ∧ (s.eq.st = 1 ∨ s.eq.warm = true ∨ s.eq.cands = [])) :=
  ⟨⟨0, { liveSt with eq := { st := 3 } }, by decide +kernel⟩,
   ⟨eqSt { st := 4, foundRun := 2 }, by decide +kernel⟩,
   ⟨eqSt { st := 5, foundRun := 8, sForm := true }, by decide +kernel⟩,
   ⟨eqSt { st := 6, pilotRun := 16 }, by decide +kernel⟩,
   ⟨eqSt { st := 7, snrRun := 256 }, by decide +kernel⟩,
   ⟨-3600001, eqSt { st := 3 }, by decide +kernel⟩,
   ⟨{ liveSt with eq := { st := 2, since := 307000, cands := [5] } }, 5, [], by decide +kernel⟩,
   ⟨{ liveSt with eq := { st := 1 } }, by decide +kernel⟩⟩

theorem witness_TrackEvents : (∃ (s : State), s.dbg.frozen = false ∧ s.eq.st ≠ 0 ∧ (s.time.running = false ∨ eqMoves s = true)
    ∧ s.fe.rawLos = true) ∧ (∃ (s : State), s.dbg.frozen = false ∧ s.eq.st ≠ 0 ∧ (s.time.running = false ∨ eqMoves s = true) ∧
    loPresent s = false) ∧ (∃ (s : State), s.dbg.frozen = false ∧ s.eq.st ≠ 0 ∧ (s.time.running = false ∨ eqMoves s = true) ∧
    s.line.rxChain = false) ∧ (∃ (timing cfo frame snr slips : Bool) (s : State), eqMoves s = true ∧ s.eq.st = 8 ∧ (timing =
    true ↔ 16 ≤ s.eq.limitRun) ∧ (cfo = true ↔ 3600000 < s.eq.cfo.natAbs) ∧ (frame = true ↔ 8 ≤ s.eq.missX ∨ 8 ≤ s.eq.missY) ∧
    (snr = true ↔ 16 ≤ s.eq.lowRun) ∧ (slips = true ↔ (256 < s.eq.slipSfX ∨ 256 < s.eq.slipSfY) ∧ sfSince s.eq.slipSf s ≤ 1) ∧
    timing = true) ∧ (∃ (timing cfo frame snr slips : Bool) (s : State), eqMoves s = true ∧ s.eq.st = 8 ∧ (timing = true ↔ 16
    ≤ s.eq.limitRun) ∧ (cfo = true ↔ 3600000 < s.eq.cfo.natAbs) ∧ (frame = true ↔ 8 ≤ s.eq.missX ∨ 8 ≤ s.eq.missY) ∧ (snr =
    true ↔ 16 ≤ s.eq.lowRun) ∧ (slips = true ↔ (256 < s.eq.slipSfX ∨ 256 < s.eq.slipSfY) ∧ sfSince s.eq.slipSf s ≤ 1) ∧ timing
    = false ∧ cfo = true) ∧ (∃ (timing cfo frame snr slips : Bool) (s : State), eqMoves s = true ∧ s.eq.st = 8 ∧ (timing =
    true ↔ 16 ≤ s.eq.limitRun) ∧ (cfo = true ↔ 3600000 < s.eq.cfo.natAbs) ∧ (frame = true ↔ 8 ≤ s.eq.missX ∨ 8 ≤ s.eq.missY) ∧
    (snr = true ↔ 16 ≤ s.eq.lowRun) ∧ (slips = true ↔ (256 < s.eq.slipSfX ∨ 256 < s.eq.slipSfY) ∧ sfSince s.eq.slipSf s ≤ 1) ∧
    timing = false ∧ cfo = false ∧ frame = true) ∧ (∃ (timing cfo frame snr slips : Bool) (s : State), eqMoves s = true ∧
    s.eq.st = 8 ∧ (timing = true ↔ 16 ≤ s.eq.limitRun) ∧ (cfo = true ↔ 3600000 < s.eq.cfo.natAbs) ∧ (frame = true ↔ 8 ≤
    s.eq.missX ∨ 8 ≤ s.eq.missY) ∧ (snr = true ↔ 16 ≤ s.eq.lowRun) ∧ (slips = true ↔ (256 < s.eq.slipSfX ∨ 256 < s.eq.slipSfY)
    ∧ sfSince s.eq.slipSf s ≤ 1) ∧ timing = false ∧ cfo = false ∧ frame = false ∧ snr = true) ∧ (∃
    (timing cfo frame snr slips : Bool) (s : State), eqMoves s = true ∧ s.eq.st = 8 ∧ (timing = true ↔ 16 ≤ s.eq.limitRun) ∧
    (cfo = true ↔ 3600000 < s.eq.cfo.natAbs) ∧ (frame = true ↔ 8 ≤ s.eq.missX ∨ 8 ≤ s.eq.missY) ∧ (snr = true ↔ 16 ≤
    s.eq.lowRun) ∧ (slips = true ↔ (256 < s.eq.slipSfX ∨ 256 < s.eq.slipSfY) ∧ sfSince s.eq.slipSf s ≤ 1) ∧ timing = false ∧
    cfo = false ∧ frame = false ∧ snr = false ∧ slips = true) ∧ (∃ (timing cfo frame snr slips : Bool) (s : State), eqMoves s
    = true ∧ s.eq.st = 8 ∧ (timing = true ↔ 16 ≤ s.eq.limitRun) ∧ (cfo = true ↔ 3600000 < s.eq.cfo.natAbs) ∧ (frame = true ↔ 8
    ≤ s.eq.missX ∨ 8 ≤ s.eq.missY) ∧ (snr = true ↔ 16 ≤ s.eq.lowRun) ∧ (slips = true ↔ (256 < s.eq.slipSfX ∨ 256 <
    s.eq.slipSfY) ∧ sfSince s.eq.slipSf s ≤ 1) ∧ timing = false ∧ cfo = false ∧ frame = false ∧ snr = false ∧ slips = false)
    :=
  ⟨⟨{ liveSt with fe := {} }, by decide +kernel⟩,
   ⟨{ liveSt with tx := { st := .dark, freqSet := true } }, by decide +kernel⟩,
   ⟨{ liveSt with line := {} }, by decide +kernel⟩,
   ⟨true, false, false, false, false, eqSt { st := 8, limitRun := 16 }, by decide +kernel⟩,
   ⟨false, true, false, false, false, eqSt { st := 8, cfo := -3600001 }, by decide +kernel⟩,
   ⟨false, false, true, false, false, eqSt { st := 8, missY := 8 }, by decide +kernel⟩,
   ⟨false, false, false, true, false, eqSt { st := 8, lowRun := 16 }, by decide +kernel⟩,
   ⟨false, false, false, false, true, eqSt { st := 8, slipSfX := 257, slipSf := 307199 }, by decide +kernel⟩,
   ⟨false, false, false, false, false, eqSt { st := 8 }, by decide +kernel⟩⟩

theorem witness_TrackEvents_2 : (∃ (s : State), (s.eq.st ≠ 8 ∨ eqMoves s = false)) ∧ (∃ (r1 r2 : Int) (rx : RxAt) (s : State),
    ticking s = true ∧ 6 ≤ s.eq.st ∧ pilotAt (rx.s.toNat) s = true ∧ quadrant r1 ≠ 0 ∧ quadrant r2 = quadrant r1 ∧ spanHits
    (rxStamp rx s).toNat ((rxStamp rx s).toNat + 1) s.fe.marked = false) ∧ (∃ (r1 r2 : Int) (rx : RxAt) (s : State), ticking s
    = true ∧ 6 ≤ s.eq.st ∧ pilotAt (rx.s.toNat) s = true ∧ (quadrant r1 = 0 ∨ quadrant r2 ≠ quadrant r1 ∨ spanHits (rxStamp rx
    s).toNat ((rxStamp rx s).toNat + 1) s.fe.marked = true)) ∧ (∃ (r : Int), -8192 ≤ r ∧ r ≤ 8192) ∧ (∃ (rx : RxAt)
    (s : State), zrNow s = false ∧ rx.s.toNat % 65536 ≠ 512) :=
  ⟨⟨runSt, by decide +kernel⟩,
   ⟨16384, 16384, rxPilot, eqSt { st := 8 }, by decide +kernel⟩,
   ⟨0, 0, rxPilot, eqSt { st := 8 }, by decide +kernel⟩,
   ⟨8192, by decide +kernel⟩,
   ⟨rx0, liveSt, by decide +kernel⟩⟩

theorem witness_EqualiserCommands : (∃ (taps profile bw flags : Byte) (hint window : Word) (floor warmHold : Half)
    (s : State), admitted 1025 s = .accept ∧ ((taps = 0 ∨ 15 ≤ taps.toNat ∧ taps.toNat ≤ 63 ∧ taps.toNat % 2 = 1) ∧
    profile.toNat ≤ 1 ∧ bw.toNat ≤ 3 ∧ flags &&& 248 = 0 ∧ -600000 ≤ s32 hint ∧ s32 hint ≤ 600000 ∧ window.toNat ≤ 1200000 ∧
    (floor = 0 ∨ 50 ≤ floor.toNat ∧ floor.toNat ≤ 250) ∧ (warmHold = 0 ∨ 256 ≤ warmHold.toNat))) ∧ (∃
    (taps profile bw flags : Byte) (hint window : Word) (floor warmHold : Half) (s : State), admitted 1025 s = .accept ∧
    (¬((taps = 0 ∨ 15 ≤ taps.toNat ∧ taps.toNat ≤ 63 ∧ taps.toNat % 2 = 1) ∧ profile.toNat ≤ 1 ∧ bw.toNat ≤ 3 ∧ flags &&& 248
    = 0 ∧ -600000 ≤ s32 hint ∧ s32 hint ≤ 600000 ∧ window.toNat ≤ 1200000 ∧ (floor = 0 ∨ 50 ≤ floor.toNat ∧ floor.toNat ≤ 250)
    ∧ (warmHold = 0 ∨ 256 ≤ warmHold.toNat)))) ∧ (∃ (s : State), admitted 1026 s = .accept) ∧ (∃ (s : State), admitted 1027 s
    = .accept) ∧ (∃ (mode : Byte) (s : State), admitted 1028 s = .accept ∧ mode.toNat ≤ 2) ∧ (∃ (mode : Byte) (s : State),
    admitted 1028 s = .accept ∧ 2 < mode.toNat) ∧ (∃ (s : State), admitted 1029 s = .accept ∧ s.line.cur.isSome = true ∧
    s.line.rxChain = true ∧ s.eq.st ≠ 0 ∧ (s.eq.st = 8 ∨ s.eq.a3Done = true)) ∧ (∃ (s : State), admitted 1029 s = .accept ∧
    s.line.cur.isSome = true ∧ s.line.rxChain = true ∧ s.eq.st ≠ 0 ∧ s.eq.st ≠ 8 ∧ s.eq.a3Done = false) ∧ (∃ (entry : Byte)
    (s : State), admitted 1029 s = .accept ∧ entry.toNat ≤ 1 ∧ (s.line.cur = none ∨ s.line.rxChain = false ∨ s.eq.st = 0)) ∧
    (∃ (hold : Byte) (s : State), admitted 1030 s = .accept ∧ hold.toNat ≤ 1) ∧ (∃ (hold : Byte) (s : State), admitted 1030 s
    = .accept ∧ 1 < hold.toNat) :=
  ⟨⟨0, 0, 0, 0, 0, 0, 0, 0, liveSt, by decide +kernel⟩,
   ⟨1, 0, 0, 0, 0, 0, 0, 0, liveSt, by decide +kernel⟩,
   ⟨liveSt, by decide +kernel⟩,
   ⟨liveSt, by decide +kernel⟩,
   ⟨0, liveSt, by decide +kernel⟩,
   ⟨3, liveSt, by decide +kernel⟩,
   ⟨liveSt, by decide +kernel⟩,
   ⟨eqSt { st := 3 }, by decide +kernel⟩,
   ⟨0, runSt, by decide +kernel⟩,
   ⟨0, liveSt, by decide +kernel⟩,
   ⟨2, liveSt, by decide +kernel⟩⟩

theorem witness_LaserCommands : (∃ (grid fine power : Half) (s : State), admitted 1281 s = .accept ∧ firstFail (txLaserCheck
    (zrNow s) grid fine power 1 s) = none ∧ loPresent s = true ∧ s.tx.freqSet = true ∧ laserMhz (s16 grid) (s16 fine) =
    laserMhz s.tx.grid s.tx.fine) ∧ (∃ (grid fine power : Half) (s : State), admitted 1281 s = .accept ∧ firstFail
    (txLaserCheck (zrNow s) grid fine power 1 s) = none ∧ loPresent s = true ∧ s.tx.freqSet = true ∧ 0 < (laserMhz (s16 grid)
    (s16 fine) - laserMhz s.tx.grid s.tx.fine).natAbs ∧ (laserMhz (s16 grid) (s16 fine) - laserMhz s.tx.grid s.tx.fine).natAbs
    ≤ 100) ∧ (∃ (grid fine power : Half) (s : State), admitted 1281 s = .accept ∧ firstFail (txLaserCheck (zrNow s) grid fine
    power 1 s) = none ∧ loPresent s = true ∧ s.tx.freqSet = true ∧ 100 < (laserMhz (s16 grid) (s16 fine) - laserMhz s.tx.grid
    s.tx.fine).natAbs) ∧ (∃ (grid fine power : Half) (s : State), admitted 1281 s = .accept ∧ firstFail (txLaserCheck (zrNow
    s) grid fine power 1 s) = none ∧ loPresent s = false) ∧ (∃ (grid fine power : Half) (flags : Byte) (st : St) (s : State),
    admitted 1281 s = .accept ∧ firstFail (txLaserCheck (zrNow s) grid fine power flags s) = some st) ∧ (∃ (grid fine : Half)
    (s : State), admitted 1281 s = .accept ∧ zrNow s = true ∧ s.tx.st ≠ Opt.shut ∧ inWatch s = false ∧ s.aon.coppice < 4 ∧
    s.pwr.failed.getLsbD 3 = false ∧ (zrCentre (s16 grid) (s16 fine) = false ∨ laserRange s.ident.variant (s16 grid) (s16
    fine) = false)) ∧ (∃ (grid fine power : Half) (s : State), admitted 1281 s = .accept ∧ firstFail (txLaserCheck (zrNow s)
    grid fine power 2 s) = none) ∧ (∃ (s : State), admitted 1282 s = .accept ∧ s.tx.st ≠ Opt.shut) ∧ (∃ (s : State), admitted
    1282 s = .accept ∧ s.tx.st = Opt.shut) :=
  ⟨⟨0, 0, 0, liveSt, by decide +kernel⟩,
   ⟨0, 1, 0, liveSt, by decide +kernel⟩,
   ⟨0, 255, 0, liveSt, by decide +kernel⟩,
   ⟨0, 0, 0, runSt, by decide +kernel⟩,
   ⟨0, 0, 0, 255, .badArg, liveSt, by decide +kernel⟩,
   ⟨1, 0, zrSt, by decide +kernel⟩,
   ⟨0, 0, 0, liveSt, by decide +kernel⟩,
   ⟨liveSt, by decide +kernel⟩,
   ⟨{ liveSt with tx := { st := .shut, freqSet := true } }, by decide +kernel⟩⟩

theorem witness_LaserCommands_2 : (∃ (s : State), admitted 1282 s = .accept ∧ (s.tx.st = Opt.lit ∨ s.tx.st = Opt.null)) ∧ (∃
    (s : State), admitted 1282 s = .accept ∧ s.tx.st = Opt.dark ∧ s.tx.freqSet = true ∧ inWatch s = false ∧ s.aon.coppice < 4
    ∧ s.aon.shut = false ∧ domWorks Dom.opt s = true) ∧ (∃ (s : State), admitted 1282 s = .accept ∧ s.tx.st = Opt.lit) ∧ (∃
    (request : Byte) (s : State), admitted 1282 s = .accept ∧ 2 < request.toNat) :=
  ⟨⟨liveSt, by decide +kernel⟩,
   ⟨{ liveSt with tx := { freqSet := true } }, by decide +kernel⟩,
   ⟨liveSt, by decide +kernel⟩,
   ⟨3, liveSt, by decide +kernel⟩⟩

theorem witness_TransmitCommands : (∃ (beta flags : Byte) (cd : Word) (clip : Byte) (s : State), admitted 1283 s = .accept ∧
    firstFail (txShapingCheck (zrNow s) (rateNow s) beta 0 flags cd clip) = none ∧ busyChanging s = false) ∧ (∃
    (beta flags : Byte) (cd : Word) (clip : Byte) (s : State), admitted 1283 s = .accept ∧ firstFail (txShapingCheck (zrNow s)
    (rateNow s) beta 1 flags cd clip) = none ∧ busyChanging s = false ∧ changeHere s = false ∧ s.line.cur.isSome = true) ∧ (∃
    (beta action flags : Byte) (cd : Word) (clip : Byte) (st : St) (s : State), admitted 1283 s = .accept ∧ firstFail
    (txShapingCheck (zrNow s) (rateNow s) beta action flags cd clip) = some st) ∧ (∃ (r : Restart) (s : State), ticking s =
    true ∧ s.line.change = none ∧ s.line.cur.isSome = true ∧ s.line.txChain = false ∧ s.tx.restart = some r ∧ s.fe.restart =
    none ∧ r.c.toNat + 1 ≤ s.time.lts.sf.toNat) ∧ (∃ (on : Byte) (interval : Half) (pulse : Byte) (s : State), admitted 1285 s
    = .accept ∧ (on.toNat ≤ 1 ∧ (interval = 0 ∨ 60 ≤ interval.toNat ∧ interval.toNat ≤ 300) ∧ pulse.toNat ≤ 4) ∧ (on = 1 ∧
    (s.tf.los.set = false ∨ s.tx.als = true) ∨ on = 0 ∧ s.tx.als = false)) ∧ (∃ (on : Byte) (interval : Half) (pulse : Byte)
    (s : State), admitted 1285 s = .accept ∧ (on.toNat ≤ 1 ∧ (interval = 0 ∨ 60 ≤ interval.toNat ∧ interval.toNat ≤ 300) ∧
    pulse.toNat ≤ 4) ∧ on = 1 ∧ s.tf.los.set = true ∧ s.tx.als = false ∧ s.tx.st = Opt.lit) ∧ (∃ (on : Byte) (interval : Half)
    (pulse : Byte) (s : State), admitted 1285 s = .accept ∧ (on.toNat ≤ 1 ∧ (interval = 0 ∨ 60 ≤ interval.toNat ∧
    interval.toNat ≤ 300) ∧ pulse.toNat ≤ 4) ∧ on = 0 ∧ s.tx.als = true ∧ s.tx.st = Opt.blank ∧ s.line.cur.isSome = true ∧
    s.tx.freqSet = true ∧ s.tx.request = 1 ∧ s.line.txChain = true ∧ domWorks Dom.opt s = true) ∧ (∃ (on : Byte)
    (interval : Half) (pulse : Byte) (s : State), admitted 1285 s = .accept ∧ (¬(on.toNat ≤ 1 ∧ (interval = 0 ∨ 60 ≤
    interval.toNat ∧ interval.toNat ≤ 300) ∧ pulse.toNat ≤ 4))) ∧ (∃ (s : State), admitted 1284 s = .accept) ∧ (∃ (h : Hdr)
    (ch : Byte) (s : State), admitted 1286 s = .accept ∧ ch.toNat ≤ 3 ∧ h.buf = true) :=
  ⟨⟨2, 1, 0, 40, runSt, by decide +kernel⟩,
   ⟨20, 0, 0, 20, liveSt, by decide +kernel⟩,
   ⟨0, 0, 255, 0, 20, .badArg, runSt, by decide +kernel⟩,
   ⟨⟨307199, hA, false⟩, { liveSt with line := { cur := some mode4 }, tx := { restart := some ⟨307199, hA, false⟩ } },
     by decide +kernel⟩,
   ⟨0, 0, 0, liveSt, by decide +kernel⟩,
   ⟨1, 60, 4, tfSt { los := integ true true }, by decide +kernel⟩,
   ⟨0, 0, 0, { liveSt with tx := { st := .blank, freqSet := true, als := true, request := 1 } }, by decide +kernel⟩,
   ⟨2, 0, 0, liveSt, by decide +kernel⟩,
   ⟨liveSt, by decide +kernel⟩,
   ⟨hB, 0, liveSt, by decide +kernel⟩⟩

theorem witness_OpticalEvents : (∃ (s : State), s.tx.st = Opt.tuning ∧ atBoundary s = true ∧ domWorks Dom.opt s = true ∧
    taskHeld Task.laser s = false ∧ litAllowed s = false) ∧ (∃ (s : State), s.tx.st = Opt.tuning ∧ atBoundary s = true ∧
    domWorks Dom.opt s = true ∧ taskHeld Task.laser s = false ∧ litAllowed s = true) ∧ (∃ (s : State), s.tx.st = Opt.null ∧
    atBoundary s = true ∧ domWorks Dom.opt s = true ∧ taskHeld Task.bias s = false) ∧ (∃ (peak : Int) (s : State), 300 < peak
    ∧ s.tx.st ≠ Opt.shut ∧ s.pins.vsbValid = true) ∧ (∃ (s : State), atBoundary s = true ∧ s.tx.als = true ∧ s.tf.los.set =
    true ∧ s.tx.alsPulsing = false ∧ s.tx.alsInterval * 16384 ≤ sfSince s.tx.alsFrom s ∧ s.tx.st = Opt.blank) ∧ (∃
    (s : State), atBoundary s = true ∧ s.tx.alsPulsing = true ∧ s.tx.alsPulse * 16384 ≤ sfSince s.tx.alsFrom s ∧ s.tx.st =
    Opt.lit) ∧ (∃ (loop : BitVec 3) (last : Option Sf) (s : State) (a : Sf), ticking s = true ∧ s.tx.alarmed[loop.toNat]? =
    some last ∧ (∀ (a : Sf), last = some a → 16384 ≤ sfSince a s) ∧ s.tx.st = Opt.lit ∧ s.tx.beyond.getD loop.toNat none =
    some a ∧ 256 ≤ sfSince a s) ∧ (∃ (loop : BitVec 3) (last : Option Sf) (s : State), ticking s = true ∧
    s.tx.alarmed[loop.toNat]? = some last ∧ (∀ (a : Sf), last = some a → 16384 ≤ sfSince a s) ∧ s.tx.st = Opt.null ∧
    s.tx.converged.getLsbD loop.toNat = false ∧ 2048 ≤ sfSince s.tx.tuneFrom s) :=
  ⟨⟨{ liveSt with tx := { st := .tuning } }, by decide +kernel⟩,
   ⟨{ liveSt with tx := { st := .tuning, freqSet := true } }, by decide +kernel⟩,
   ⟨{ liveSt with tx := { st := .null, freqSet := true } }, by decide +kernel⟩,
   ⟨301, liveSt, by decide +kernel⟩,
   ⟨{ liveSt with tx := { st := .blank, als := true, alsInterval := 18 }, tf := { los := integ true true } }, by decide +kernel⟩,
   ⟨{ liveSt with tx := { st := .lit, alsPulsing := true } }, by decide +kernel⟩,
   ⟨5, none, { liveSt with tx := { st := .lit, beyond := List.replicate 6 (some 306944) } }, 306944, by decide +kernel,
     by decide +kernel, (by intro a h; cases h), by decide +kernel⟩,
   ⟨5, none, { liveSt with tx := { st := .null, tuneFrom := 305152 } }, by decide +kernel, by decide +kernel,
     (by intro a h; cases h), by decide +kernel⟩⟩

theorem witness_DecoderEvents : (∃ (fs : List Nat) (k f : Nat) (s : State), atBoundary s = true ∧ s.fec.st = 1 ∧ s.eq.st = 8 ∧
    zrNow s = false ∧ s.fec.searchFrom ≠ s.time.lts.sf ∧ fs.length = 5 * cycleLen s ∧ lowest fs = some (k, f) ∧ f < 4200) ∧ (∃
    (fs : List Nat) (k f : Nat) (s : State), atBoundary s = true ∧ s.fec.st = 1 ∧ s.eq.st = 8 ∧ zrNow s = false ∧
    s.fec.searchFrom ≠ s.time.lts.sf ∧ fs.length = 5 * cycleLen s ∧ lowest fs = some (k, f) ∧ 4200 ≤ f) ∧ (∃ (fs : List Nat)
    (k f x : Nat), lowest fs = some (k, f) ∧ x ∈ fs) ∧ (∃ (fs : List Nat) (s : State), atBoundary s = true ∧ s.fec.st = 2 ∧
    zrNow s = false ∧ 4 ≤ sfSince s.fec.alignedAt s ∧ fs.length = 4 ∧ ∀ f ∈ fs, 4200 < f) ∧ (∃ (s : State), ticking s = true ∧
    s.fec.st = 2 ∧ zrNow s = false ∧ s.fec.flight < s.fec.l) ∧ (∃ (c : Codeword) (s : State), ticking s = true ∧ s.fec.st = 2
    ∧ zrNow s = false ∧ s.fec.l ≤ s.fec.flight ∧ c.sf = s.fec.curSf) :=
  ⟨⟨List.replicate (5 * cycleLen liveSt) 4199, 0, 4199, { liveSt with fec := { st := 1 } }, by decide +kernel⟩,
   ⟨List.replicate (5 * cycleLen liveSt) 4200, 0, 4200, { liveSt with fec := { st := 1 } }, by decide +kernel⟩,
   ⟨[4200], 0, 4200, 4200, by decide +kernel⟩,
   ⟨[4201,4201,4201,4201], liveSt, by decide +kernel⟩,
   ⟨{ liveSt with fec := { st := 2, flight := 4095 } }, by decide +kernel⟩,
   ⟨⟨true, true, 0, 0, 0⟩, { liveSt with fec := { st := 2, flight := 4096 } }, by decide +kernel⟩⟩

theorem witness_DecoderCommands : (∃ (l : Half) (flags : Byte) (deg : Word) (s : State), admitted 1537 s = .accept ∧ (l.toNat
    % 256 = 0 ∧ l.toNat ≤ 4096 ∨ zrNow s = true) ∧ flags &&& 253 = 0 ∧ (deg = 0 ∨ 100 ≤ deg.toNat ∧ deg.toNat ≤ 500000)) ∧ (∃
    (l : Half) (flags : Byte) (deg : Word) (s : State), admitted 1537 s = .accept ∧ (zrNow s = false ∧ (l.toNat % 256 ≠ 0 ∨
    4096 < l.toNat) ∨ flags &&& 252 ≠ 0 ∨ deg ≠ 0 ∧ (deg.toNat < 100 ∨ 500000 < deg.toNat))) ∧ (∃ (s : State), admitted 1537 s
    = .accept ∧ s.line.cur.isSome = true ∧ s.line.rxChain = true) ∧ (∃ (s : State), admitted 1538 s = .accept) ∧ (∃
    (s : State), admitted 1539 s = .accept) ∧ (∃ (ber : Word) (s : State), admitted 1540 s = .accept ∧ s.line.cur.isSome =
    true ∧ 1 ≤ ber.toNat ∧ ber.toNat ≤ 500000) :=
  ⟨⟨0, 0, 0, liveSt, by decide +kernel⟩,
   ⟨1, 0, 0, liveSt, by decide +kernel⟩,
   ⟨liveSt, by decide +kernel⟩,
   ⟨liveSt, by decide +kernel⟩,
   ⟨liveSt, by decide +kernel⟩,
   ⟨1, liveSt, by decide +kernel⟩⟩

theorem witness_TransportFrames : (∃ (bytes : List Byte) (rxSf : Sf) (ok : Bool) (s : State), ticking s = true ∧ slotModeNow s
    = true ∧ s.fec.st = 2 ∧ bytes.length = 16 ∧ (ok = true ↔ sfohCheck bytes = true ∧ bitsMarked rxSf 0 128 s = false)) ∧ (∃
    (m : LMode) (f : TfRx) (s : State), s.line.cur = some m ∧ isZr m = false ∧ ticking s = true ∧ s.fec.st = 2 ∧
    f.header.length = 16 ∧ s.tf.st = 3 ∧ f.pos ≠ s.tf.pos) ∧ (∃ (m : LMode) (f : TfRx) (s : State), s.line.cur = some m ∧ isZr
    m = false ∧ ticking s = true ∧ s.fec.st = 2 ∧ f.header.length = 16 ∧ s.tf.st = 3 ∧ f.pos = s.tf.pos ∧ bytesMarked f.pos 16
    s = false ∧ headerPasses m.code f.header = true ∧ headerTfn f.header = s.tf.tfn) ∧ (∃ (m : LMode) (f : TfRx) (s : State),
    s.line.cur = some m ∧ isZr m = false ∧ ticking s = true ∧ s.fec.st = 2 ∧ f.header.length = 16 ∧ s.tf.st = 3 ∧ f.pos =
    s.tf.pos ∧ bytesMarked f.pos 16 s = false ∧ (headerPasses m.code f.header = false ∨ headerTfn f.header ≠ s.tf.tfn)) ∧ (∃
    (m : LMode) (f : TfRx) (s : State), s.line.cur = some m ∧ isZr m = false ∧ ticking s = true ∧ s.fec.st = 2 ∧
    f.header.length = 16 ∧ s.tf.st = 3 ∧ f.pos = s.tf.pos ∧ bytesMarked f.pos 16 s = true ∧ s.tf.badRun < 3) ∧ (∃ (m : LMode)
    (s : State), s.line.cur = some m ∧ isZr m = false ∧ isSlotMode m = true ∧ tfDue s = true) ∧ (∃ (m : LMode) (s : State),
    s.line.cur = some m ∧ isZr m = false ∧ isSlotMode m = true ∧ tfDue s = false) ∧ (∃ (m : LMode) (s : State), s.line.cur =
    some m ∧ isZr m = true ∧ ticking s = true ∧ s.line.txChain = true) :=
  ⟨⟨List.replicate 16 0, 0, false, liveSt, by decide +kernel⟩,
   ⟨mode4, ⟨1, hdr4, 0, [], false, false⟩, liveSt, by decide +kernel⟩,
   ⟨mode4, ⟨0, hdr4, 0, [], false, false⟩, liveSt, by decide +kernel⟩,
   ⟨mode4, ⟨0, List.replicate 16 0, 0, [], false, false⟩, liveSt, by decide +kernel⟩,
   ⟨mode4, ⟨0, hdr4, 0, [], false, false⟩,
     { liveSt with tf := { st := 3, badRun := 2, fbytes := 16 }, fec := { st := 2, marks := [⟨0, 255, 256⟩] } },
     by decide +kernel⟩,
   ⟨mode4, liveSt, by decide +kernel⟩,
   ⟨mode4, { liveSt with line := { cur := some mode4 } }, by decide +kernel⟩,
   ⟨{ mode4 with code := 6 }, { liveSt with line := { cur := some { mode4 with code := 6 }, txChain := true } },
     by decide +kernel⟩⟩

theorem witness_DefectIntegration : (∃ (d : Defect) (s : State) (t : Lts), integrates d s = true ∧ setsAt d s = some t) ∧ (∃
    (d : Defect) (s : State), integrates d s = true ∧ setsAt d s = none) ∧ (∃ (d : Defect) (s : State) (t : Lts), integrates d
    s = true ∧ clearsAt d s = some t) ∧ (∃ (d : Defect) (s : State), integrates d s = true ∧ clearsAt d s = none) ∧ (∃
    (d : Defect) (s : State), (s.dbg.frozen = true ∨ defectExists d s = false ∨ taskHeld
    (match d with | .ref _ => Task.references | _ => Task.framing) s = true)) ∧ (∃ (s : State), s.tf.los.set = false ∧
    s.tf.los.raw = true ∧ s.tf.los.since.toNat + 16777216 ≤ s.time.lts.toNat) ∧ (∃ (s : State), s.tf.los.set = false ∧
    s.tf.los.raw = true ∧ s.time.lts.toNat < s.tf.los.since.toNat + 16777216) ∧ (∃ (s : State), s.tf.loa.set = false ∧
    s.tf.loa.raw = true) ∧ (∃ (s : State), s.tf.losf.set = false ∧ s.tf.losf.raw = true) :=
  ⟨⟨.oof, { liveSt with tf := { oof := ⟨false, true, ⟨7, 0⟩, 0⟩ } }, ⟨7, 0⟩, by decide +kernel⟩,
   ⟨.oof, liveSt, by decide +kernel⟩,
   ⟨.oof, { liveSt with tf := { oof := ⟨true, false, ⟨7, 0⟩, 0⟩ } }, ⟨7, 0⟩, by decide +kernel⟩,
   ⟨.los, liveSt, by decide +kernel⟩,
   ⟨.oof, frozenSt, by decide +kernel⟩,
   ⟨liveSt, by decide +kernel⟩,
   ⟨State.reset, by decide +kernel⟩,
   ⟨{ liveSt with tf := { loa := ⟨false, true, ⟨7, 0⟩, 0⟩ } }, by decide +kernel⟩,
   ⟨liveSt, by decide +kernel⟩⟩

theorem witness_DefectIntegration_2 : (∃ (s : State), s.tf.lof.set = false ∧ s.tf.lof.raw = true) ∧ (∃ (s : State),
    s.tf.oof.set = false ∧ s.tf.oof.raw = true) ∧ (∃ (s : State), s.tf.unc.set = false ∧ s.tf.unc.raw = true) ∧ (∃
    (s : State), s.tf.deg.set = false ∧ s.tf.deg.raw = true) ∧ (∃ (s : State), s.tf.bdi.set = false ∧ s.tf.bdi.raw = true ∧
    s.tf.st = 3) ∧ (∃ (i : Byte) (x : Trib) (s : State), tribAt i s = some x ∧ s.tf.st = 3 ∧ x.csf.set = false ∧ x.csf.raw =
    true) ∧ (∃ (i : Byte) (x : Trib) (s : State), tribAt i s = some x ∧ s.tf.st = 3 ∧ x.plm.set = false ∧ x.plm.raw = true) ∧
    (∃ (i : Byte) (x : Trib) (s : State), tribAt i s = some x ∧ s.tf.st = 3 ∧ x.csf.set = true ∧ x.csf.raw = false) ∧ (∃
    (i : Byte) (x : Trib) (s : State), tribAt i s = some x ∧ s.tf.st = 3 ∧ x.plm.set = true ∧ x.plm.raw = false) :=
  ⟨⟨{ liveSt with tf := { lof := ⟨false, true, ⟨7, 0⟩, 0⟩ } }, by decide +kernel⟩,
   ⟨{ liveSt with tf := { oof := ⟨false, true, ⟨7, 0⟩, 0⟩ } }, by decide +kernel⟩,
   ⟨tfSt { unc := integ false true }, by decide +kernel⟩,
   ⟨{ liveSt with tf := { deg := ⟨false, true, ⟨7, 0⟩, 0⟩ } }, by decide +kernel⟩,
   ⟨tfSt { st := 3, bdi := integ false true }, by decide +kernel⟩,
   ⟨1, { trib1 with csf := integ false true }, { tribSt { trib1 with csf := integ false true } with tf := { st := 3 } },
     by decide +kernel⟩,
   ⟨1, { trib1 with plm := integ false true }, { tribSt { trib1 with plm := integ false true } with tf := { st := 3 } },
     by decide +kernel⟩,
   ⟨1, { trib1 with csf := integ true false }, { tribSt { trib1 with csf := integ true false } with tf := { st := 3 } },
     by decide +kernel⟩,
   ⟨1, { trib1 with plm := integ true false }, { tribSt { trib1 with plm := integ true false } with tf := { st := 3 } },
     by decide +kernel⟩⟩

theorem witness_DefectIntegration_3 : (∃ (i : Byte) (x : Trib) (s : State), tribAt i s = some x ∧ x.auth.set = false ∧
    x.auth.raw = true) ∧ (∃ (i : Byte) (x : Trib) (s : State), tribAt i s = some x ∧ x.auth.set = true ∧ x.auth.raw = false) ∧
    (∃ (i : Byte) (x : Trib) (s : State), tribAt i s = some x ∧ x.key.set = false ∧ x.key.raw = true) ∧ (∃ (i : Byte)
    (x : Trib) (s : State), tribAt i s = some x ∧ x.key.set = true ∧ x.key.raw = false) ∧ (∃ (s : State), s.tf.los.set = true
    ∧ s.tf.los.raw = false) ∧ (∃ (s : State), s.tf.loa.set = true) ∧ (∃ (s : State), s.tf.losf.set = true ∧ s.tf.losf.raw =
    false) ∧ (∃ (s : State), s.tf.oof.set = true ∧ s.tf.oof.raw = false) ∧ (∃ (s : State), s.tf.lof.set = true ∧ s.tf.lof.raw
    = false ∧ s.tf.oof.raw = false) :=
  ⟨⟨1, { trib1 with auth := integ false true }, tribSt ({ trib1 with auth := integ false true }), by decide +kernel⟩,
   ⟨1, { trib1 with auth := integ true false }, tribSt ({ trib1 with auth := integ true false }), by decide +kernel⟩,
   ⟨1, { trib1 with key := integ false true }, tribSt ({ trib1 with key := integ false true }), by decide +kernel⟩,
   ⟨1, { trib1 with key := integ true false }, tribSt ({ trib1 with key := integ true false }), by decide +kernel⟩,
   ⟨{ liveSt with tf := { los := ⟨true, false, ⟨7, 0⟩, 0⟩ } }, by decide +kernel⟩,
   ⟨tfSt { loa := integ true false }, by decide +kernel⟩,
   ⟨tfSt { losf := integ true false }, by decide +kernel⟩,
   ⟨tfSt { oof := integ true false }, by decide +kernel⟩,
   ⟨tfSt { lof := integ true false }, by decide +kernel⟩⟩

theorem witness_DefectIntegration_4 : (∃ (s : State), s.tf.deg.set = true ∧ s.tf.deg.raw = false) ∧ (∃ (s : State),
    s.tf.unc.set = true ∧ s.tf.unc.raw = false) ∧ (∃ (s : State), s.tf.bdi.set = true ∧ s.tf.bdi.raw = false ∧ s.tf.st = 3) :=
  ⟨⟨tfSt { deg := integ true false }, by decide +kernel⟩,
   ⟨tfSt { unc := integ true false }, by decide +kernel⟩,
   ⟨tfSt { st := 3, bdi := integ true false }, by decide +kernel⟩⟩

theorem witness_TributaryCommands : (∃ (tid client : Byte) (port : Half) (cipher : Byte) (s : State), admitted 1793 s =
    .accept ∧ firstFail (tribDefineCheck (slotModeNow s) (slotsNow s) tid client port cipher s) = none) ∧ (∃
    (tid client : Byte) (port : Half) (cipher : Byte) (s : State) (st : St), admitted 1793 s = .accept ∧ firstFail
    (tribDefineCheck (slotModeNow s) (slotsNow s) tid client port cipher s) = some st) ∧ (∃ (tid : Byte) (s : State), admitted
    1794 s = .accept ∧ tribAt tid s = none) ∧ (∃ (tid : Byte) (s : State) (t : Trib), admitted 1794 s = .accept ∧ tribAt tid s
    = some t) ∧ (∃ (tid : Byte) (s : State), admitted 1795 s = .accept ∧ tribAt tid s = none) ∧ (∃ (tid : Byte) (t : Trib)
    (s : State), admitted 1795 s = .accept ∧ tribAt tid s = some t) ∧ (∃ (s : State), admitted 1796 s = .accept) :=
  ⟨⟨55, 1, 23, 0, { liveSt with hl := { osier := true } }, by decide +kernel⟩,
   ⟨120, 1, 0, 0, liveSt, .badArg, by decide +kernel⟩,
   ⟨2, liveSt, by decide +kernel⟩,
   ⟨1, liveSt, trib1, by decide +kernel⟩,
   ⟨2, liveSt, by decide +kernel⟩,
   ⟨1, trib1, liveSt, by decide +kernel⟩,
   ⟨liveSt, by decide +kernel⟩⟩

theorem witness_SpanBoundaries : (∃ (s : State), spansExist s = true ∧ ticking s = true ∧ (spanAt s.tf.spanNext s).le
    s.time.lts = true) ∧ (∃ (s : State), spansExist s = true ∧ ticking s = true ∧ (spanAt s.tf.spanNext s).le s.time.lts =
    false) ∧ (∃ (s : State), spansExist s = false) ∧ (∃ (t : Trib) (i : Byte) (s : State) (x : Trib), t.txCur = some i ∧
    txSilent t s = false ∧ i.toNat < s.ciph.slots.length ∧ t.txFresh = false ∧ 2 ^ 40 ≤ t.txSpan + 1 ∧ x ∈ (txSpanOf t
    s).tribs ∧ x.tid = t.tid) ∧ (∃ (t : Trib) (i : Byte) (s : State) (x : Trib), t.txCur = some i ∧ txSilent t s = false ∧
    i.toNat < s.ciph.slots.length ∧ t.txFresh = false ∧ t.txSpan + 1 < 2 ^ 40 ∧ x ∈ (txSpanOf t s).tribs ∧ x.tid = t.tid) ∧ (∃
    (t : Trib) (s : State), txSilent t s = true) ∧ (∃ (tid : Byte) (ph : Option Bool) (t : Trib) (s : State), tribAt tid s =
    some t ∧ t.cipher ≠ 0 ∧ s.tf.st = 3 ∧ ticking s = true ∧ cipherWorks s = true ∧ t.adopt = false ∧ t.rxCur.isSome = true ∧
    ph.getD t.rxPhase = t.rxPhase) ∧ (∃ (tid : Byte) (ph : Option Bool) (t : Trib) (s : State), tribAt tid s = some t ∧
    t.cipher ≠ 0 ∧ s.tf.st = 3 ∧ ticking s = true ∧ cipherWorks s = true ∧ t.adopt = false ∧ t.rxCur.isSome = true ∧ ph.getD
    t.rxPhase ≠ t.rxPhase ∧ t.rxNext = none) ∧ (∃ (tid : Byte) (ph : Option Bool) (t : Trib) (s : State) (n : Byte), tribAt
    tid s = some t ∧ t.cipher ≠ 0 ∧ s.tf.st = 3 ∧ ticking s = true ∧ cipherWorks s = true ∧ t.adopt = false ∧ t.rxCur.isSome =
    true ∧ ph.getD t.rxPhase ≠ t.rxPhase ∧ t.rxNext = some n ∧ usable (slotNow n (modTrib tid (fun t =>
    { t with prevSpan := t.rxSpan, prevSlot := t.rxCur, prevConf := t.confirmed, lineRx := t.lineRx && !s.ciph.lineOk })
    ((List.range 256).foldl (fun s i => rxDrainAt tid i s) (failClose tid s)))) = true) :=
  ⟨⟨liveSt, by decide +kernel⟩,
   ⟨{ liveSt with tf := { origin := ⟨307201, 0⟩ } }, by decide +kernel⟩,
   ⟨runSt, by decide +kernel⟩,
   ⟨{ tribC with txSpan := 1099511627775 }, 2, { cryptSt with tribs := [{ tribC with txSpan := 1099511627775 }] }, (txSpanOf
     { tribC with txSpan := 1099511627775 } { cryptSt with tribs := [{ tribC with txSpan := 1099511627775 }] }).tribs.headD
     trib1, by decide +kernel⟩,
   ⟨tribC, 2, cryptSt, (txSpanOf tribC cryptSt).tribs.headD trib1, by decide +kernel⟩,
   ⟨trib1, liveSt, by decide +kernel⟩,
   ⟨1, none, tribC, cryptSt, by decide +kernel⟩,
   ⟨1, some true, tribC, cryptSt, by decide +kernel⟩,
   ⟨1, some true, { tribC with rxNext := some 5 }, { cryptSt with tribs := [{ tribC with rxNext := some 5 }] }, 5,
     by decide +kernel⟩⟩

theorem witness_SpanRecordsAndTags : (∃ (tid : Byte) (bytes : List Byte) (t : Trib) (s : State), tribAt tid s = some t ∧
    t.cipher ≠ 0 ∧ s.tf.st = 3 ∧ ticking s = true ∧ cipherWorks s = true ∧ recordUsable tid bytes (bytesMarked (tagPlace (3 +
    t.rxEntry / 8) t s) 16 s) = false) ∧ (∃ (tid : Byte) (bytes : List Byte) (t : Trib) (s : State), tribAt tid s = some t ∧
    t.cipher ≠ 0 ∧ s.tf.st = 3 ∧ ticking s = true ∧ cipherWorks s = true ∧ recordUsable tid bytes (bytesMarked (tagPlace (3 +
    t.rxEntry / 8) t s) 16 s) = true ∧ bitOf (byteAt bytes 9) 0 = true) ∧ (∃ (tid : Byte) (bytes : List Byte) (t : Trib)
    (s : State) (i : Byte), tribAt tid s = some t ∧ t.cipher ≠ 0 ∧ s.tf.st = 3 ∧ ticking s = true ∧ cipherWorks s = true ∧
    recordUsable tid bytes (bytesMarked (tagPlace (3 + t.rxEntry / 8) t s) 16 s) = true ∧ bitOf (byteAt bytes 9) 0 = false ∧ 2
    ^ 40 ≤ beNat (slice bytes 0 8) ∧ t.rxCur = some i ∧ i.toNat < s.ciph.slots.length) ∧ (∃ (tid : Byte) (bytes : List Byte)
    (t : Trib) (s : State), tribAt tid s = some t ∧ t.cipher ≠ 0 ∧ s.tf.st = 3 ∧ ticking s = true ∧ cipherWorks s = true ∧
    recordUsable tid bytes (bytesMarked (tagPlace (3 + t.rxEntry / 8) t s) 16 s) = true ∧ bitOf (byteAt bytes 9) 0 = false ∧
    beNat (slice bytes 0 8) < 2 ^ 40 ∧ t.rxCur.isSome = true) ∧ (∃ (tid i : Byte) (t : Trib) (s : State), tribAt tid s = some
    t ∧ t.cipher ≠ 0 ∧ s.tf.st = 3 ∧ ticking s = true ∧ cipherWorks s = true ∧ t.prevSlot = some i ∧ rxBlocked t s = false ∧
    t.prevConf = false) ∧ (∃ (tid i : Byte) (t : Trib) (s : State), tribAt tid s = some t ∧ t.cipher ≠ 0 ∧ s.tf.st = 3 ∧
    ticking s = true ∧ cipherWorks s = true ∧ t.prevSlot = some i ∧ rxBlocked t s = false ∧ t.prevConf = true ∧ spanWhole t =
    false) ∧ (∃ (tid i : Byte) (t : Trib) (s : State), tribAt tid s = some t ∧ t.cipher ≠ 0 ∧ s.tf.st = 3 ∧ ticking s = true ∧
    cipherWorks s = true ∧ t.prevSlot = some i ∧ rxBlocked t s = false ∧ spanWhole t = true ∧ t.farBlocked = false) ∧ (∃
    (tid : Byte) (b : SpanHeld) (rest : List SpanHeld) (t : Trib) (s : State), tribAt tid s = some t ∧ t.buffer = b :: rest ∧
    t.cipher = 2 ∧ ticking s = true ∧ cipherWorks s = true ∧ b.start.toNat + nearest (2 * spanNum s) (spanDen s) ≤
    s.time.lts.toNat) ∧ (∃ (tid : Byte) (b : SpanHeld) (rest : List SpanHeld) (t : Trib) (s : State), tribAt tid s = some t ∧
    t.buffer = b :: rest ∧ t.cipher = 2 ∧ ticking s = true ∧ cipherWorks s = true ∧ s.time.lts.toNat < b.start.toNat + nearest
    (2 * spanNum s) (spanDen s)) ∧ (∃ (tid : Byte) (t : Trib) (s : State), tribAt tid s = some t ∧ t.cipher ≠ 0 ∧ ticking s =
    true ∧ txSilent t s = false) :=
  ⟨⟨1, [], tribC, cryptSt, by decide +kernel⟩,
   ⟨1, rec1 1, tribC, cryptSt, by decide +kernel⟩,
   ⟨1, recFar, tribC, cryptSt, 1, by decide +kernel⟩,
   ⟨1, rec1 0, tribC, cryptSt, by decide +kernel⟩,
   ⟨1, 1, tribC, cryptSt, by decide +kernel⟩,
   ⟨1, 1, { tribC with prevConf := true }, { cryptSt with tribs := [{ tribC with prevConf := true }] }, by decide +kernel⟩,
   ⟨1, 1, tribW, wholeSt, by decide +kernel⟩,
   ⟨1, ⟨0, ⟨0, 0⟩, none⟩, [], { tribC with cipher := 2, buffer := [⟨0, ⟨0, 0⟩, none⟩] },
     { cryptSt with tribs := [{ tribC with cipher := 2, buffer := [⟨0, ⟨0, 0⟩, none⟩] }] }, by decide +kernel⟩,
   ⟨1, ⟨0, ⟨307200, 0⟩, none⟩, [], { tribC with cipher := 2, buffer := [⟨0, ⟨307200, 0⟩, none⟩] },
     { cryptSt with tribs := [{ tribC with cipher := 2, buffer := [⟨0, ⟨307200, 0⟩, none⟩] }] }, by decide +kernel⟩,
   ⟨1, tribC, cryptSt, by decide +kernel⟩⟩

theorem witness_KeyCommands : (∃ (s : State), admitted 2049 s = .accept) ∧ (∃ (h : Hdr) (s : State), admitted 2050 s = .accept
    ∧ (h.buf = false ∨ h.length ≠ 48)) ∧ (∃ (h : Hdr) (slot : Byte) (s : State) (p : List Byte) (d : KeyData), admitted 2050 s
    = .accept ∧ h.buf = true ∧ h.length = 48 ∧ kwUnwrap s.ident.kek (bufData h s) = some p ∧ keyPayload p = some d ∧ d.usage ≠
    2 ∧ ((slotAt slot s).st = .empty ∨ (slotAt slot s).st = .loaded)) ∧ (∃ (h : Hdr) (slot : Byte) (s : State) (p : List Byte)
    (d : KeyData), admitted 2050 s = .accept ∧ h.buf = true ∧ h.length = 48 ∧ kwUnwrap s.ident.kek (bufData h s) = some p ∧
    keyPayload p = some d ∧ ((slotAt slot s).st = .current ∨ (slotAt slot s).st = .draining ∨ (slotAt slot s).st = .spent)) ∧
    (∃ (slot : Byte) (s : State), admitted 2051 s = .accept ∧ (slotAt slot s).st = .loaded ∧ (slotAt slot s).data.usage ≠ 2) ∧
    (∃ (slot : Byte) (s : State), admitted 2051 s = .accept ∧ ((slotAt slot s).st = .current ∨ (slotAt slot s).st = .draining
    ∨ (slotAt slot s).st = .spent)) ∧ (∃ (tid ref slot : Byte) (st : St) (s : State), admitted 2052 s = .accept ∧ firstFail
    (keyAssignCheck (zrNow s) tid ref slot s) = some st) ∧ (∃ (tid slot : Byte) (t : Trib) (s : State), admitted 2052 s =
    .accept ∧ tribAt tid s = some t ∧ slot.toNat < s.ciph.slots.length ∧ firstFail (keyAssignCheck (zrNow s) tid 0 slot s) =
    none) ∧ (∃ (tid slot : Byte) (t : Trib) (s : State), admitted 2052 s = .accept ∧ tribAt tid s = some t ∧ slot.toNat <
    s.ciph.slots.length ∧ firstFail (keyAssignCheck (zrNow s) tid 1 slot s) = none) :=
  ⟨⟨liveSt, by decide +kernel⟩,
   ⟨hA, liveSt, by decide +kernel⟩,
   ⟨{ hB with length := 48 }, 7, bufSt blob1, plain1, key1, by decide +kernel, by decide +kernel, by decide +kernel, unwrap_at
     (by decide +kernel) (by decide +kernel), by decide +kernel⟩,
   ⟨{ hB with length := 48 }, 1, setSlot 1 (slotOf .current 1) (bufSt blob1), plain1, key1, by decide +kernel, by decide +kernel,
     by decide +kernel, unwrap_at (by decide +kernel) (by decide +kernel), by decide +kernel⟩,
   ⟨4, cryptSt, by decide +kernel⟩,
   ⟨1, cryptSt, by decide +kernel⟩,
   ⟨1, 5, 0, .badArg, liveSt, by decide +kernel⟩,
   ⟨1, 4, tribC, cryptSt, by decide +kernel⟩,
   ⟨1, 5, tribC, cryptSt, by decide +kernel⟩⟩

theorem witness_KeyCommands_2 : (∃ (tid slot : Byte) (t : Trib) (s : State), admitted 2052 s = .accept ∧ tribAt tid s = some t
    ∧ slot.toNat < s.ciph.slots.length ∧ firstFail (keyAssignCheck (zrNow s) tid 2 slot s) = none) ∧ (∃ (tid slot : Byte)
    (t : Trib) (s : State), admitted 2052 s = .accept ∧ tribAt tid s = some t ∧ slot.toNat < s.ciph.slots.length ∧ firstFail
    (keyAssignCheck (zrNow s) tid 3 slot s) = none) ∧ (∃ (tid slot : Byte) (t : Trib) (s : State), admitted 2052 s = .accept ∧
    tribAt tid s = some t ∧ slot.toNat < s.ciph.slots.length ∧ firstFail (keyAssignCheck (zrNow s) tid 4 slot s) = none) ∧ (∃
    (tid : Byte) (t : Trib) (s : State) (n : Byte), admitted 2053 s = .accept ∧ tribAt tid s = some t ∧ t.cipher ≠ 0 ∧ zrNow s
    = false ∧ spansExist s = true ∧ usableNext t s = some n) ∧ (∃ (tid : Byte) (t : Trib) (s : State), admitted 2053 s =
    .accept ∧ tribAt tid s = some t ∧ t.cipher ≠ 0 ∧ zrNow s = false ∧ spansExist s = true ∧ usableNext t s = none) ∧ (∃
    (tid : Byte) (t : Trib) (s : State), admitted 2053 s = .accept ∧ tribAt tid s = some t ∧ t.cipher ≠ 0 ∧ zrNow s = false ∧
    spansExist s = false) ∧ (∃ (slot : Byte) (s : State), admitted 2054 s = .accept ∧ (slotNow slot s).data.usage ≠ 2) ∧ (∃
    (tid : Byte) (t : Trib) (s : State), admitted 2055 s = .accept ∧ zrNow s = false ∧ tribAt tid s = some t) ∧ (∃
    (s : State), admitted 2056 s = .accept ∧ cipherBarred s = false) :=
  ⟨⟨1, 5, { tribC with rxCur := none }, { cryptSt with tribs := [{ tribC with rxCur := none }] }, by decide +kernel⟩,
   ⟨1, 4, tribC, cryptSt, by decide +kernel⟩,
   ⟨1, 4, tribC, cryptSt, by decide +kernel⟩,
   ⟨1, tribC, cryptSt, 3, by decide +kernel⟩,
   ⟨1, { tribC with txNext := none }, { cryptSt with tribs := [{ tribC with txNext := none }] }, by decide +kernel⟩,
   ⟨1, tribC, { cryptSt with line := { liveSt.line with txChain := false } }, by decide +kernel⟩,
   ⟨0, liveSt, by decide +kernel⟩,
   ⟨1, tribC, cryptSt, by decide +kernel⟩,
   ⟨cryptSt, by decide +kernel⟩⟩

theorem witness_KeyCommands_3 : (∃ (tid b : Byte) (t : Trib) (s : State), admitted 2057 s = .accept ∧ zrNow s = false ∧ tribAt
    tid s = some t ∧ t.cipher ≠ 0 ∧ 1 ≤ b.toNat ∧ b.toNat ≤ 2) ∧ (∃ (tid b : Byte) (t : Trib) (s : State), admitted 2057 s =
    .accept ∧ zrNow s = false ∧ tribAt tid s = some t ∧ t.cipher = 0 ∧ 1 ≤ b.toNat ∧ b.toNat ≤ 2) ∧ (∃ (tid b : Byte)
    (t : Trib) (s : State), admitted 2057 s = .accept ∧ zrNow s = false ∧ tribAt tid s = some t ∧ (b.toNat < 1 ∨ 2 < b.toNat))
    :=
  ⟨⟨1, 2, tribC, cryptSt, by decide +kernel⟩,
   ⟨1, 2, trib1, liveSt, by decide +kernel⟩,
   ⟨1, 3, trib1, liveSt, by decide +kernel⟩⟩

theorem witness_KeyCommands_4 : ∃ (h : Hdr) (s : State), admitted 2050 s = .accept ∧ h.buf = true ∧ h.length = 48 ∧ kwUnwrap
    s.ident.kek (bufData h s) = none :=
  ⟨{ hB with length := 48 }, bufSt (List.replicate 48 0), by decide +kernel⟩

theorem witness_MemoryMode : (∃ (h : Hdr) (alg dir mode ctx slot prio : Byte) (aadLen : Half) (s : State), admitted 2080 s =
    .accept ∧ s.ciph.mmOk = true ∧ ctx.toNat ≤ 11 ∧ ctx.toNat < s.mm.length ∧ cipherBarred s = false ∧ (ctxAt (ctx.toNat)
    s).damaged = false ∧ (ctxAt (ctx.toNat) s).job = none ∧ mmRunBad h alg dir mode prio aadLen (bufData h s) = false ∧
    (slotNow slot s).data.usage = 2 ∧ usable (slotNow slot s) = true ∧ mode.toNat ≤ 1 ∧ (ctxAt (ctx.toNat) s).busy = false ∧
    (ctxAt (ctx.toNat) s).out = [] ∧ (bufData h s).length ≤ 4096) ∧ (∃ (h : Hdr) (alg dir mode ctx slot prio : Byte)
    (aadLen : Half) (s : State), admitted 2080 s = .accept ∧ s.ciph.mmOk = true ∧ ctx.toNat ≤ 11 ∧ ctx.toNat < s.mm.length ∧
    cipherBarred s = false ∧ (ctxAt (ctx.toNat) s).damaged = false ∧ (ctxAt (ctx.toNat) s).job = none ∧ mmRunBad h alg dir
    mode prio aadLen (bufData h s) = false ∧ (slotNow slot s).data.usage = 2 ∧ usable (slotNow slot s) = true ∧ 2 ≤ mode.toNat
    ∧ (ctxAt (ctx.toNat) s).busy = true ∧ (ctxAt (ctx.toNat) s).alg = alg.toNat ∧ (ctxAt (ctx.toNat) s).dir = dir.toNat ∧
    (ctxAt (ctx.toNat) s).slot = slot ∧ (ctxAt (ctx.toNat) s).out.length + (bufData h s).length ≤ 16777216) ∧ (∃ (ctx : BitVec
    4) (j : MmJob) (left : List (Nat × Nat)) (key : List Byte) (s : State), (ctxAt ctx.toNat s).job = some j ∧
    s.pwr.powered.getLsbD 5 = true ∧ s.dbg.frozen = false ∧ mmRotate 128 s.ciph.mmTurn (mmReady s) = some (ctx.toNat, left) ∧
    key = (slotNow (ctxAt ctx.toNat s).slot s).data.key ∧ s.ciph.mmOk = false) ∧ (∃ (ctx : BitVec 4) (j : MmJob) (left : List
    (Nat × Nat)) (key : List Byte) (s : State), (ctxAt ctx.toNat s).job = some j ∧ s.pwr.powered.getLsbD 5 = true ∧
    s.dbg.frozen = false ∧ mmRotate 128 s.ciph.mmTurn (mmReady s) = some (ctx.toNat, left) ∧ key = (slotNow (ctxAt ctx.toNat
    s).slot s).data.key ∧ s.ciph.mmOk = true ∧ (ctxAt ctx.toNat s).alg = 0) ∧ (∃ (ctx : BitVec 4) (j : MmJob) (left : List
    (Nat × Nat)) (key : List Byte) (s : State), (ctxAt ctx.toNat s).job = some j ∧ s.pwr.powered.getLsbD 5 = true ∧
    s.dbg.frozen = false ∧ mmRotate 128 s.ciph.mmTurn (mmReady s) = some (ctx.toNat, left) ∧ key = (slotNow (ctxAt ctx.toNat
    s).slot s).data.key ∧ s.ciph.mmOk = true ∧ (ctxAt ctx.toNat s).alg = 1) ∧ (∃ (ctx : BitVec 4) (j : MmJob) (left : List
    (Nat × Nat)) (key : List Byte) (s : State), (ctxAt ctx.toNat s).job = some j ∧ s.pwr.powered.getLsbD 5 = true ∧
    s.dbg.frozen = false ∧ mmRotate 128 s.ciph.mmTurn (mmReady s) = some (ctx.toNat, left) ∧ key = (slotNow (ctxAt ctx.toNat
    s).slot s).data.key ∧ s.ciph.mmOk = true ∧ (ctxAt ctx.toNat s).alg = 2) ∧ (∃ (ctx : BitVec 4) (j : MmJob) (left : List
    (Nat × Nat)) (key : List Byte) (s : State), (ctxAt ctx.toNat s).job = some j ∧ s.pwr.powered.getLsbD 5 = true ∧
    s.dbg.frozen = false ∧ mmRotate 128 s.ciph.mmTurn (mmReady s) = some (ctx.toNat, left) ∧ key = (slotNow (ctxAt ctx.toNat
    s).slot s).data.key ∧ s.ciph.mmOk = true ∧ (ctxAt ctx.toNat s).alg = 3) ∧ (∃ (ctx : BitVec 4) (s : State), ∀ (left : List
    (Nat × Nat)), mmRotate 128 s.ciph.mmTurn (mmReady s) ≠ some (ctx.toNat, left)) ∧ (∃ (c : MmCtx) (j : MmJob), j.mode = 0 ∧
    c.dir = 0) :=
  ⟨⟨hB, 0, 0, 0, 11, 6, 0, 0, bufSt [], by decide +kernel⟩,
   ⟨hB, 0, 0, 2, 0, 6, 0, 0, mmBusySt, by decide +kernel⟩,
   ⟨0, jobOf (List.replicate 16 0) [], [], List.replicate 32 0, { jobSt 0 with ciph := { (jobSt 0).ciph with mmOk := false } },
     by decide +kernel⟩,
   ⟨0, jobOf (List.replicate 16 0) [], [], List.replicate 32 0, jobSt 0, by decide +kernel⟩,
   ⟨0, jobOf (List.replicate 16 0) [], [], List.replicate 32 0, jobSt 1, by decide +kernel⟩,
   ⟨0, jobOf (List.replicate 16 0) [], [], List.replicate 32 0, jobSt 2, by decide +kernel⟩,
   ⟨0, jobOf (List.replicate 16 0) [], [], List.replicate 32 0, jobSt 3, by decide +kernel⟩,
   ⟨1, jobSt 0, fun left h => absurd (congrArg (Option.map Prod.fst) h) (show ¬ Option.map Prod.fst (mmRotate 128 (jobSt
     0).ciph.mmTurn (mmReady (jobSt 0))) = some 1 by decide +kernel)⟩,
   ⟨{}, jobOf [] [], by decide +kernel⟩⟩

theorem witness_MemoryMode_2 : (∃ (key : List Byte) (c : MmCtx) (j : MmJob), j.mode = 0 ∧ c.dir = 1 ∧ (gcmPart key c j).2.2 =
    j.tag) ∧ (∃ (key : List Byte) (c : MmCtx) (j : MmJob), j.mode = 0 ∧ c.dir = 1 ∧ (gcmPart key c j).2.2 ≠ j.tag) ∧ (∃
    (h : Hdr) (ctx : Byte) (s : State) (form : Byte), admitted 2081 s = .accept ∧ s.ciph.mmOk = true ∧ ctx.toNat ≤ 11 ∧ h.buf
    = true ∧ ctx.toNat < s.mm.length ∧ (ctxAt (ctx.toNat) s).damaged = false ∧ (ctxAt (ctx.toNat) s).busy = true ∧ (ctxAt
    (ctx.toNat) s).job = none ∧ (form = 1 ∨ form = 0 ∧ ((ctxAt (ctx.toNat) s).alg = 1 ∨ (slotNow (ctxAt (ctx.toNat) s).slot
    s).data.clearCtx = true))) ∧ (∃ (h : Hdr) (ctx : Byte) (s : State), admitted 2081 s = .accept ∧ s.ciph.mmOk = true ∧
    ctx.toNat ≤ 11 ∧ h.buf = true ∧ ctx.toNat < s.mm.length ∧ (ctxAt (ctx.toNat) s).damaged = false ∧ (ctxAt (ctx.toNat)
    s).busy = true ∧ (ctxAt (ctx.toNat) s).job = none ∧ (ctxAt (ctx.toNat) s).alg ≠ 1 ∧ (slotNow (ctxAt (ctx.toNat) s).slot
    s).data.clearCtx = false) ∧ (∃ (h : Hdr) (ctx : Byte) (s : State) (b : List Byte) (st : St), admitted 2082 s = .accept ∧
    s.ciph.mmOk = true ∧ ctx.toNat ≤ 11 ∧ h.buf = true ∧ cipherBarred s = false ∧ ctx.toNat < s.mm.length ∧ (ctxAt (ctx.toNat)
    s).damaged = false ∧ (h.length = 96 ∧ b = bufData h s ∨ h.length = 104 ∧ kwUnwrap s.ident.kek (bufData h s) = some b) ∧
    firstFail (restoreCheck ctx (decide (h.length = 104)) b s) = some st) ∧ (∃ (h : Hdr) (ctx : Byte) (s : State) (b : List
    Byte), admitted 2082 s = .accept ∧ s.ciph.mmOk = true ∧ ctx.toNat ≤ 11 ∧ h.buf = true ∧ cipherBarred s = false ∧ ctx.toNat
    < s.mm.length ∧ (ctxAt (ctx.toNat) s).damaged = false ∧ (h.length = 96 ∧ b = bufData h s ∨ h.length = 104 ∧ kwUnwrap
    s.ident.kek (bufData h s) = some b) ∧ firstFail (restoreCheck ctx (decide (h.length = 104)) b s) = none) ∧ (∃ (h : Hdr)
    (ctx : Byte) (offset : Dword) (s : State), admitted 2083 s = .accept ∧ s.ciph.mmOk = true ∧ ctx.toNat ≤ 11 ∧ h.buf = true
    ∧ (ctxAt (ctx.toNat) s).damaged = false ∧ (ctxAt (ctx.toNat) s).readable = true ∧ offset.toNat ≤ (ctxAt (ctx.toNat)
    s).out.length) :=
  ⟨⟨List.replicate 32 0, { dir := 1 }, jobOf [] (gcmPart (List.replicate 32 0) { dir := 1 } (jobOf [] [])).2.2,
     by decide +kernel⟩,
   ⟨List.replicate 32 0, { dir := 1 }, jobOf [] [], by decide +kernel⟩,
   ⟨hB, 11, { runSt with mm := List.replicate 16 { busy := true, slot := 6 } }, 1, by decide +kernel⟩,
   ⟨hB, 11, { runSt with mm := List.replicate 16 { busy := true } }, by decide +kernel⟩,
   ⟨{ hB with length := 96 }, 0, bufSt (List.replicate 96 1), List.replicate 96 1, .integrity, by decide +kernel⟩,
   ⟨{ hB with length := 96 }, 11, bufSt savedCtx, savedCtx, by decide +kernel⟩,
   ⟨hB, 11, 1, { runSt with mm := List.replicate 16 { out := [0], readable := true } }, by decide +kernel⟩⟩

theorem witness_MemoryMode_3 : ∃ (h : Hdr) (ctx : Byte) (s : State), admitted 2082 s = .accept ∧ s.ciph.mmOk = true ∧
    ctx.toNat ≤ 11 ∧ h.buf = true ∧ cipherBarred s = false ∧ ctx.toNat < s.mm.length ∧ (ctxAt (ctx.toNat) s).damaged = false ∧
    h.length = 104 ∧ kwUnwrap s.ident.kek (bufData h s) = none :=
  ⟨{ hB with length := 104 }, 0, bufSt savedCtx, by decide +kernel⟩

theorem witness_HostLaneEvents : (∃ (f : LaneFrame) (l : Lane) (s : State), linkRuns s = true ∧ f.lane.toNat < s.hl.n ∧
    s.hl.lanes[f.lane.toNat]? = some l ∧ s.hl.link = .up ∧ l.locked = true ∧ markGood f = true ∧ f.laneField = f.lane ∧
    f.cw0Bad = false ∧ f.cw1Bad = false) ∧ (∃ (f : LaneFrame) (l : Lane) (s : State), linkRuns s = true ∧ f.lane.toNat <
    s.hl.n ∧ s.hl.lanes[f.lane.toNat]? = some l ∧ s.hl.link = .up ∧ l.locked = true ∧ markGood f = false ∧ 2 ≤ l.badRun) ∧ (∃
    (f : LaneFrame) (l : Lane) (s : State), linkRuns s = true ∧ f.lane.toNat < s.hl.n ∧ s.hl.lanes[f.lane.toNat]? = some l ∧
    s.hl.link = .up ∧ l.locked = true ∧ markGood f = true ∧ f.laneField = f.lane ∧ (f.cw0Bad = true ∨ f.cw1Bad = true) ∧ 7 ≤
    l.badCwRun) ∧ (∃ (x : LaneHeld) (xs : List LaneHeld) (s : State), List.map (fun (l : Lane) => l.held.head?) (List.take
    s.hl.n s.hl.lanes) = List.map some (x :: xs) ∧ ∀ y ∈ xs, y.lfc = x.lfc) ∧ (∃ (frames : List LaneHeld) (p : Port),
    p.unserved = false ∧ ∀ y ∈ frames, y.cw0Bad = false ∧ y.cw1Bad = false) ∧ (∃ (lane : BitVec 4) (blk : List Byte)
    (s : State), linkRuns s = true ∧ lane.toNat < s.hl.n ∧ s.hl.link = .detect ∧ s.hl.since.toNat ≤ s.time.lts.sf.toNat ∧
    controlGood 1 blk = false) ∧ (∃ (lane : BitVec 4) (blk : List Byte) (s : State), linkRuns s = true ∧ lane.toNat < s.hl.n ∧
    s.hl.link = .detect ∧ s.hl.since.toNat ≤ s.time.lts.sf.toNat ∧ controlGood 1 blk = true ∧ (byteAt blk 6 = 2 ∨ byteAt blk 6
    = 3)) ∧ (∃ (lane : BitVec 4) (blk : List Byte) (s : State), linkRuns s = true ∧ lane.toNat < s.hl.n ∧ s.hl.link = .switch
    ∧ controlGood 3 blk = true ∧ BitVec.toNat (byteAt blk 6) = s.hl.target) ∧ (∃ (lane : BitVec 4) (blk : List Byte)
    (s : State), linkRuns s = true ∧ lane.toNat < s.hl.n ∧ s.hl.link = .switch ∧ controlGood 3 blk = false) :=
  ⟨⟨⟨15, true, 15, 0, false, false, 0, 0, 175, 0, []⟩, { locked := true },
     { liveSt with hl := { osier := true, link := .up, lanes := List.replicate 16 { locked := true } } }, by decide +kernel⟩,
   ⟨⟨15, true, 15, 0, false, false, 0, 0, 176, 0, []⟩, { locked := true, badRun := 2 },
     { liveSt with hl := { osier := true, link := .up, lanes := List.replicate 16 { locked := true, badRun := 2 } } },
     by decide +kernel⟩,
   ⟨⟨15, true, 15, 0, false, true, 0, 0, 0, 0, []⟩, { locked := true, badCwRun := 7 },
     { liveSt with hl := { osier := true, link := .up, lanes := List.replicate 16 { locked := true, badCwRun := 7 } } },
     by decide +kernel⟩,
   ⟨⟨5, false, false, []⟩, [⟨5, true, false, []⟩], { liveSt with hl :=
     { n := 2, lanes := [{ held := [⟨5, false, false, []⟩] }, { held := [⟨5, true, false, []⟩] }] } }, by decide +kernel⟩,
   ⟨[⟨5, false, false, []⟩], { num := 0, client := 4 }, by decide +kernel⟩,
   ⟨0, [], { liveSt with hl := { osier := true, link := .detect } }, by decide +kernel⟩,
   ⟨0, ctl 1 3, { liveSt with hl := { osier := true, link := .detect } }, by decide +kernel⟩,
   ⟨0, ctl 3 2, { liveSt with hl := { osier := true, link := .switch, target := 2 } }, by decide +kernel⟩,
   ⟨0, [], { liveSt with hl := { osier := true, link := .switch, rxSwitch := some 0 } }, by decide +kernel⟩⟩

theorem witness_HostLaneEvents_2 : (∃ (lane : BitVec 4) (blk : List Byte) (s : State), linkRuns s = true ∧ lane.toNat < s.hl.n
    ∧ s.hl.link = .train ∧ controlGood 4 blk = true) ∧ (∃ (lane : BitVec 4) (blk : List Byte) (s : State), linkRuns s = true ∧
    lane.toNat < s.hl.n ∧ s.hl.link = .bond ∧ controlGood 5 blk = true ∧ BitVec.toNat (byteAt blk 6) = s.hl.step ∧ s.hl.upSent
    = true ∧ deskewed s = true) ∧ (∃ (lane : BitVec 4) (blk : List Byte) (s : State), linkRuns s = true ∧ lane.toNat < s.hl.n
    ∧ s.hl.link = .bond ∧ controlGood 5 blk = true ∧ BitVec.toNat (byteAt blk 6) = s.hl.step ∧ s.hl.upSent = true ∧ deskewed s
    = false) ∧ (∃ (lane : BitVec 4) (blk : List Byte) (s : State), linkRuns s = true ∧ lane.toNat < s.hl.n ∧ s.hl.link = .up ∧
    controlGood 6 blk = true ∧ s.hl.lp = none ∧ (byteAt blk 6 = 1 ∨ byteAt blk 6 = 2)) ∧ (∃ (lane : BitVec 4) (blk : List
    Byte) (s : State) (st : Nat) (lfc : Byte) (late : Bool) (h : Hdr), linkRuns s = true ∧ lane.toNat < s.hl.n ∧ s.hl.link =
    .up ∧ controlGood 7 blk = true ∧ s.hl.lp = some (st, lfc, late, some h) ∧ BitVec.toNat (byteAt blk 6) = st) ∧ (∃ (lane :
    BitVec 4) (blk : List Byte) (s : State), linkRuns s = true ∧ lane.toNat < s.hl.n ∧ s.hl.link = .up ∧ controlGood 9 blk =
    true) ∧ (∃ (lane : BitVec 4) (blk : List Byte) (s : State), s.hl.osier = true ∧ zrNow s = false ∧ hostPowered s = true ∧
    ticking s = true ∧ lane.toNat < s.hl.n ∧ s.hl.link = .l2 ∧ controlGood 1 blk = true) ∧ (∃ (s : State), linkRuns s = true ∧
    s.hl.link = .switch ∧ s.hl.rxSwitch.isSome = true ∧ s.hl.rxSwitched = false) ∧ (∃ (s : State), linkRuns s = true ∧
    s.hl.link = .switch ∧ s.hl.rxSwitch.isSome = true ∧ s.hl.rxSwitched = true) :=
  ⟨⟨0, ctl 4 0, { liveSt with hl := { osier := true, link := .train } }, by decide +kernel⟩,
   ⟨0, ctl 5 0, { liveSt with hl :=
     { osier := true, link := .bond, upSent := true, lanes := List.replicate 16 { lfc := some 250 } } }, by decide +kernel⟩,
   ⟨0, ctl 5 0, { liveSt with hl := { osier := true, link := .bond, upSent := true } }, by decide +kernel⟩,
   ⟨0, ctl 6 1, { liveSt with hl := { osier := true, link := .up } }, by decide +kernel⟩,
   ⟨0, ctl 7 1, { liveSt with hl := { osier := true, link := .up, lp := some (1, 0, false, some hA) } }, 1, 0, false, hA,
     by decide +kernel⟩,
   ⟨0, ctl 9 0, { liveSt with hl := { osier := true, link := .up } }, by decide +kernel⟩,
   ⟨0, ctl 1 2, { liveSt with hl := { osier := true, link := .l2 } }, by decide +kernel⟩,
   ⟨{ liveSt with hl := { osier := true, link := .switch, rxSwitch := some 0 } }, by decide +kernel⟩,
   ⟨{ liveSt with hl := { osier := true, link := .switch, rxSwitch := some 0, rxSwitched := true } }, by decide +kernel⟩⟩

theorem witness_HostLaneEvents_3 : (∃ (s : State), linkRuns s = true ∧ s.hl.link = .switch ∧ s.hl.rxSwitch.isSome = true ∧
    s.hl.txSwitched = false) ∧ (∃ (s : State), linkRuns s = true ∧ s.hl.link = .train ∧ s.hl.fast = true ∧ 80 ≤ sfSince
    s.hl.since s) ∧ (∃ (s : State), linkRuns s = true ∧ s.hl.link = .train ∧ s.hl.fast = false ∧ s.hl.step = 3 ∧ 160 ≤ sfSince
    s.hl.since s ∧ s.hl.retried = false) ∧ (∃ (s : State), linkRuns s = true ∧ s.hl.link = .train ∧ s.hl.fast = false ∧
    s.hl.step = 3 ∧ 160 ≤ sfSince s.hl.since s ∧ s.hl.retried = true) ∧ (∃ (s : State), linkRuns s = true ∧ s.hl.link = .bond
    ∧ 16 ≤ sfSince s.hl.since s) ∧ (∃ (s : State), linkRuns s = true ∧ s.hl.link = .bond ∧ sfSince s.hl.since s < 16) ∧ (∃
    (s : State), s.hl.osier = true ∧ zrNow s = false ∧ hostPowered s = true ∧ ticking s = true ∧ s.hl.link = .l1) ∧ (∃
    (port : Byte) (cause : IngressCause) (p : Port) (s : State), List.find? (fun (p : Port) => decide (p.num = port.toNat))
    s.hl.ports = some p ∧ ingressHolds p cause s = true ∧ nearLoop p s = false ∧ ticking s = true ∧ p.failed = none) ∧ (∃
    (port : Byte) (cause : IngressCause) (p : Port) (s : State), List.find? (fun (p : Port) => decide (p.num = port.toNat))
    s.hl.ports = some p ∧ (ingressHolds p cause s = false ∨ nearLoop p s = true)) :=
  ⟨⟨{ liveSt with hl := { osier := true, link := .switch, rxSwitch := some 0 } }, by decide +kernel⟩,
   ⟨{ liveSt with hl := { osier := true, link := .train, fast := true } }, by decide +kernel⟩,
   ⟨{ liveSt with hl := { osier := true, link := .train, step := 3 } }, by decide +kernel⟩,
   ⟨{ liveSt with hl := { osier := true, link := .train, step := 3, retried := true } }, by decide +kernel⟩,
   ⟨{ liveSt with hl := { osier := true, link := .bond } }, by decide +kernel⟩,
   ⟨{ liveSt with hl := { osier := true, link := .bond, since := 307185 } }, by decide +kernel⟩,
   ⟨{ liveSt with hl := { osier := true, link := .l1 } }, by decide +kernel⟩,
   ⟨0, .signal, { num := 0, client := 4 },
     { liveSt with hl := { osier := true, link := .bond, ports := [{ num := 0, client := 4 }] } }, by decide +kernel⟩,
   ⟨0, .signal, { num := 0, client := 4 }, liveSt, by decide +kernel⟩⟩

theorem witness_HostLaneEvents_4 : ∃ (port : Byte) (p : Port) (s : State), List.find? (fun (p : Port) => decide (p.num =
    port.toNat)) s.hl.ports = some p ∧ ticking s = true ∧ (nearLoop p s = true ∨ 16 ≤ sfSince p.condAt s ∧ (standardsNow s =
    true ∨ s.hl.link = .up ∧ p.unserved = false ∧ 16 ≤ sfSince s.hl.upAt s)) :=
  ⟨0, { num := 0, client := 4 }, { liveSt with hl := { liveSt.hl with upAt := 307184 } }, by decide +kernel⟩

theorem witness_HostLaneCommands : (∃ (n step group flags : Byte) (s : State), admitted 2305 s = .accept ∧ zrNow s = false ∧ 1
    ≤ n.toNat ∧ n.toNat ≤ 16 ∧ 2 ≤ step.toNat ∧ step.toNat ≤ 3 ∧ (group.toNat ≤ 3 ∨ group = 255) ∧ flags &&& 254 = 0 ∧
    bringingUp s = false ∧ s.hl.osier = true ∧ n.toNat = s.hl.n) ∧ (∃ (n step group flags : Byte) (s : State), admitted 2305 s
    = .accept ∧ zrNow s = false ∧ 1 ≤ n.toNat ∧ n.toNat ≤ 16 ∧ 2 ≤ step.toNat ∧ step.toNat ≤ 3 ∧ (group.toNat ≤ 3 ∨ group =
    255) ∧ flags &&& 254 = 0 ∧ bringingUp s = false ∧ s.hl.osier = true ∧ n.toNat ≠ s.hl.n ∧ s.tribs ≠ []) ∧ (∃
    (n step group flags : Byte) (s : State), admitted 2305 s = .accept ∧ zrNow s = false ∧ 1 ≤ n.toNat ∧ n.toNat ≤ 16 ∧ 2 ≤
    step.toNat ∧ step.toNat ≤ 3 ∧ (group.toNat ≤ 3 ∨ group = 255) ∧ flags &&& 254 = 0 ∧ bringingUp s = false ∧ s.hl.osier =
    true ∧ n.toNat ≠ s.hl.n ∧ s.tribs = [] ∧ hostPowered s = true) ∧ (∃ (s : State), admitted 2306 s = .accept) ∧ (∃
    (lane : Byte) (s : State), admitted 2307 s = .accept ∧ lane.toNat ≤ 15) ∧ (∃ (lane : Byte) (s : State), admitted 2307 s =
    .accept ∧ 15 < lane.toNat) ∧ (∃ (port : Byte) (p : Port) (s : State), admitted 2308 s = .accept ∧ List.find?
    (fun (p : Port) => decide (p.num = port.toNat)) s.hl.ports = some p) ∧ (∃ (s : State), admitted 2309 s = .accept ∧
    standardsNow s = false ∧ s.pwr.failed.getLsbD 4 = false ∧ bringingUp s = false ∧ s.hl.lp = none ∧ s.hl.link = .up ∧
    trafficAdmitted s = true) ∧ (∃ (s : State) (st : Byte), admitted 2309 s = .accept ∧ standardsNow s = false ∧
    s.pwr.failed.getLsbD 4 = false ∧ bringingUp s = false ∧ s.hl.lp = none ∧ (st = 1 ∨ st = 2) ∧ s.hl.link = .up ∧
    trafficAdmitted s = false) :=
  ⟨⟨16, 2, 0, 0, liveSt, by decide +kernel⟩,
   ⟨1, 2, 0, 0, liveSt, by decide +kernel⟩,
   ⟨1, 2, 0, 0, { runSt with hl := { osier := true } }, by decide +kernel⟩,
   ⟨liveSt, by decide +kernel⟩,
   ⟨0, liveSt, by decide +kernel⟩,
   ⟨16, liveSt, by decide +kernel⟩,
   ⟨0, { num := 0, client := 4 }, liveSt, by decide +kernel⟩,
   ⟨liveSt, by decide +kernel⟩,
   ⟨{ liveSt with tribs := [], hl := { osier := true, link := .up } }, 1, by decide +kernel⟩⟩

theorem witness_HostLaneCommands_2 : (∃ (s : State), admitted 2309 s = .accept ∧ standardsNow s = false ∧ s.pwr.failed.getLsbD
    4 = false ∧ bringingUp s = false ∧ s.hl.lp = none ∧ s.hl.link = .l1) ∧ (∃ (s : State), admitted 2309 s = .accept ∧
    standardsNow s = false ∧ s.pwr.failed.getLsbD 4 = false ∧ bringingUp s = false ∧ s.hl.lp = none ∧ s.hl.link = .l2) ∧ (∃
    (kind : Byte) (lanes : Half) (s : State), admitted 2310 s = .accept ∧ bringingUp s = false ∧ kind.toNat ≤ 2 ∧ (s.hl.osier
    = false ∨ lanes = 0) ∧ s.hl.loopback ≠ 3) ∧ (∃ (s : State), admitted 2310 s = .accept ∧ bringingUp s = false ∧
    standardsNow s = false ∧ s.hl.link = .up ∧ bitOf s.hl.hostCaps 2 = true) ∧ (∃ (s : State), admitted 2310 s = .accept ∧
    bringingUp s = false ∧ (standardsNow s = true ∨ s.hl.link ≠ .up)) ∧ (∃ (s : State), admitted 2311 s = .accept ∧
    standardsNow s = false ∧ s.pwr.failed.getLsbD 4 = false) :=
  ⟨⟨{ liveSt with hl := { osier := true, link := .l1 } }, by decide +kernel⟩,
   ⟨{ liveSt with hl := { osier := true, link := .l2 } }, by decide +kernel⟩,
   ⟨0, 0, liveSt, by decide +kernel⟩,
   ⟨{ liveSt with hl := { osier := true, link := .up, hostCaps := 4 } }, by decide +kernel⟩,
   ⟨{ liveSt with hl := { osier := true, link := .l1 } }, by decide +kernel⟩,
   ⟨liveSt, by decide +kernel⟩⟩

theorem witness_ReferenceEvents : (∃ (input : Byte) (r : RefIn) (s : State), inputExists (input.toNat) = true ∧ refIn
    (input.toNat) s = some r ∧ r.st = RefSt.disabled) ∧ (∃ (input : Byte) (r : RefIn) (s : State), inputExists (input.toNat) =
    true ∧ refIn (input.toNat) s = some r ∧ r.st ≠ RefSt.disabled) ∧ (∃ (input : Byte), inputExists (input.toNat) = false) ∧
    (∃ (s : State), s.ref.clk = ClkSt.locking ∧ atEvaluation s = true ∧ offNow s = s.ref.target) ∧ (∃ (s : State), s.ref.clk =
    ClkSt.locking ∧ (atEvaluation s = false ∨ offNow s ≠ s.ref.target)) ∧ (∃ (width last : Nat) (s : State), s.time.running =
    true ∧ s.ref.todWait = [] ∧ 100 ≤ width ∧ width ≤ 500000000 ∧ 999000000 ≤ last) ∧ (∃ (width last : Nat) (s : State),
    s.time.running = true ∧ s.ref.todWait = [] ∧ (width < 100 ∨ 500000000 < width ∨ last < 999000000)) ∧ (∃ (input : Byte),
    input ≠ 2 ∧ input ≠ 3) ∧ (∃ (h : Hdr) (secs : Sf) (ns from_ : Nat) (late : Bool) (s : State), s.time.running = true ∧
    s.ref.todWait = [(h, 2, secs, ns, from_, late)] ∧ wardenPassed from_ 2 s = false) :=
  ⟨⟨0, { num := 0 }, runSt, by decide +kernel⟩,
   ⟨0, { num := 0, st := .soaking }, { runSt with ref := { inputs := [{ num := 0, st := .soaking }] } }, by decide +kernel⟩,
   ⟨7, by decide +kernel⟩,
   ⟨evalSt { clk := .locking }, by decide +kernel⟩,
   ⟨{ runSt with ref := { clk := .locking, target := 1000000000 } }, by decide +kernel⟩,
   ⟨255, 2147483648, liveSt, by decide +kernel⟩,
   ⟨99, 1000000000, liveSt, by decide +kernel⟩,
   ⟨7, by decide +kernel⟩,
   ⟨hA, 0, 0, 0, false, { runSt with ref := { todWait := [(hA, 2, 0, 0, 0, false)] } }, by decide +kernel⟩⟩

theorem witness_ReferenceEvents_2 : (∃ (h : Hdr) (n : Nat) (secs : Sf) (ns from_ : Nat) (late : Bool) (s : State),
    s.ref.todWait = [(h, n, secs, ns, from_, late)] ∧ wardenPassed from_ 2 s = true) ∧ (∃ (h : Hdr) (n : Nat) (secs : Sf)
    (ns from_ : Nat) (late : Bool) (s : State), s.ref.todWait = [(h, n, secs, ns, from_, late)] ∧ wardenPassed from_ 2 s =
    false) ∧ (∃ (s : State), ppsDue s = false) ∧ (∃ (s : State), ppsDue s = true ∧ s.ref.ppsMode = 1 ∧ s.ref.ppsAnchor =
    false) ∧ (∃ (s : State), ppsDue s = true ∧ s.ref.ppsMode = 1 ∧ s.ref.ppsAnchor = true) ∧ (∃ (s : State), ppsDue s = true ∧
    s.ref.ppsMode = 2 ∧ qualified s.ref.ppsInput s = true ∧ s.ref.ppsFirst = true) ∧ (∃ (e : Int) (s : State), ppsDue s = true
    ∧ s.ref.ppsMode = 2 ∧ qualified s.ref.ppsInput s = true ∧ s.ref.ppsFirst = false ∧ 1000 < e.natAbs ∧ s.ref.ppsErrRun = 15)
    ∧ (∃ (e : Int) (s : State), ppsDue s = true ∧ s.ref.ppsMode = 2 ∧ qualified s.ref.ppsInput s = true ∧ s.ref.ppsFirst =
    false ∧ e.natAbs ≤ 1000) ∧ (∃ (s : State), ppsDue s = true ∧ s.ref.ppsMode = 2 ∧ qualified s.ref.ppsInput s = false) :=
  ⟨⟨hA, 2, 0, 0, 0, false,
     { runSt with time := { runSt.time with wardenNs := 2000000000 }, ref := { todWait := [(hA, 2, 0, 0, 0, false)] } },
     by decide +kernel⟩,
   ⟨hA, 2, 0, 0, 0, false,
     { runSt with time := { runSt.time with wardenNs := 1999999999 }, ref := { todWait := [(hA, 2, 0, 0, 0, false)] } },
     by decide +kernel⟩,
   ⟨runSt, by decide +kernel⟩,
   ⟨{ runSt with ref := { ppsMode := 1 } }, by decide +kernel⟩,
   ⟨{ runSt with ref := { ppsMode := 1, ppsAnchor := true } }, by decide +kernel⟩,
   ⟨{ runSt with ref := { ppsMode := 2, inputs := [{ num := 2, st := .qualified }] } }, by decide +kernel⟩,
   ⟨-1001, { runSt with ref := { ppsMode := 2, inputs := [{ num := 2, st := .qualified }], ppsFirst := false, ppsErrRun := 15 }
     }, by decide +kernel⟩,
   ⟨-1000, { runSt with ref := { ppsMode := 2, inputs := [{ num := 2, st := .qualified }], ppsFirst := false } },
     by decide +kernel⟩,
   ⟨{ runSt with ref := { ppsMode := 2 } }, by decide +kernel⟩⟩

theorem witness_ReferenceEvents_3 : (∃ (ms : List RefMeas) (k : Nat) (r : RefIn) (m : RefMeas) (s : State), refIn k s = some r
    ∧ measOf k ms = some m ∧ r.num = k ∧ r.st = RefSt.qualified ∧ sourcePresent k s = true ∧ r.inactive = false ∧ r.badForm =
    false ∧ m.condition ≠ 1 ∧ m.condition ≠ 6 ∧ r.tol * 100000 < m.offset.natAbs) ∧ (∃ (k : Nat) (r : RefIn) (a : Sf)
    (s : State), refIn k s = some r ∧ r.st = RefSt.soaking ∧ r.soakFrom = some a ∧ r.dref = false ∧ 163840 ≤ sfSince a s) ∧ (∃
    (k : Nat) (r : RefIn) (a : Sf) (s : State), refIn k s = some r ∧ r.st = RefSt.soaking ∧ r.soakFrom = some a ∧ r.dref =
    false ∧ sfSince a s < 163840) :=
  ⟨⟨[⟨0, 0, 4600001, 0, false⟩], 0, { num := 0, st := .qualified }, ⟨0, 0, 4600001, 0, false⟩,
     { runSt with ref := { inputs := [{ num := 0, st := .qualified }] } }, by decide +kernel⟩,
   ⟨0, { num := 0, st := .soaking, soakFrom := some 143360 }, 143360,
     { runSt with ref := { inputs := [{ num := 0, st := .soaking, soakFrom := some 143360 }] } }, by decide +kernel⟩,
   ⟨0, { num := 0, st := .soaking, soakFrom := some 143361 }, 143361,
     { runSt with ref := { inputs := [{ num := 0, st := .soaking, soakFrom := some 143361 }] } }, by decide +kernel⟩⟩

theorem witness_ReferenceCommands : (∃ (input prio freq : Byte) (tol drift off : Half) (s : State), admitted 2561 s = .accept
    ∧ inputExists (input.toNat) = true ∧ (prio.toNat ≤ 7 ∨ prio = 255) ∧ freq.toNat ≤ 4 ∧ tol.toNat ≤ 200 ∧ (drift = 0 ∨ 5 ≤
    drift.toNat ∧ drift.toNat ≤ 5000) ∧ off.toNat ≤ 460) ∧ (∃ (mode input flags : Byte) (s : State), admitted 2562 s = .accept
    ∧ mode.toNat ≤ 3 ∧ flags &&& 254 = 0 ∧ (mode = 2 → memOk s = true) ∧ (mode = 1 → ∃ (r : RefIn), refIn (input.toNat) s =
    some r ∧ r.st ≠ RefSt.disabled)) ∧ (∃ (s : State), admitted 2563 s = .accept) ∧ (∃ (input : Byte) (s : State) (r : RefIn),
    admitted 2564 s = .accept ∧ inputExists (input.toNat) = true ∧ refIn (input.toNat) s = some r) ∧ (∃ (input : Byte)
    (s : State), admitted 2564 s = .accept ∧ inputExists (input.toNat) = false) ∧ (∃ (output source lane freq flags : Byte)
    (s : State), admitted 2565 s = .accept ∧ output.toNat ≤ 1 ∧ source.toNat ≤ 3 ∧ freq.toNat ≤ 4 ∧ (source = 3 → lane.toNat ≤
    15) ∧ flags &&& 254 = 0) ∧ (∃ (o : ClkOut) (s : State), s.time.resNs < o.lowTo) ∧ (∃ (mode input : Byte)
    (offset width : Word) (s : State), admitted 2566 s = .accept ∧ mode.toNat ≤ 2 ∧ (mode = 2 → input = 2 ∨ input = 3) ∧ (s32
    offset).natAbs ≤ 500000000 ∧ 1 ≤ width.toNat ∧ width.toNat ≤ 500000) ∧ (∃ (ns : Word) (anchor : Byte) (s : State),
    admitted 2567 s = .accept ∧ ns.toNat < 1000000000 ∧ anchor = 0) :=
  ⟨⟨0, 0, 0, 0, 0, 0, liveSt, by decide +kernel⟩,
   ⟨3, 0, 1, runSt, by decide +kernel, by decide, by decide, by decide, by decide⟩,
   ⟨liveSt, by decide +kernel⟩,
   ⟨0, runSt, { num := 0 }, by decide +kernel⟩,
   ⟨7, liveSt, by decide +kernel⟩,
   ⟨0, 0, 0, 0, 0, liveSt, by decide +kernel⟩,
   ⟨{ lowTo := 1 }, runSt, by decide +kernel⟩,
   ⟨0, 0, 0, 1, liveSt, by decide +kernel⟩,
   ⟨0, 0, liveSt, by decide +kernel⟩⟩

theorem witness_ReferenceCommands_2 : (∃ (ns : Word) (anchor : Byte) (s : State), admitted 2567 s = .accept ∧ ns.toNat <
    1000000000 ∧ (anchor = 2 ∨ anchor = 3)) ∧ (∃ (ns : Word) (anchor : Byte) (s : State), admitted 2567 s = .accept ∧ ns.toNat
    < 1000000000 ∧ anchor ≠ 0 ∧ anchor ≠ 2 ∧ anchor ≠ 3) ∧ (∃ (s : State), admitted 2568 s = .accept) :=
  ⟨⟨0, 2, liveSt, by decide +kernel⟩,
   ⟨0, 4, liveSt, by decide +kernel⟩,
   ⟨liveSt, by decide +kernel⟩⟩

theorem witness_HistoryEvents : (∃ (rx : RxAt) (s : State), (ticking s = false ∨ s.eq.lastWord = some (frameStart rx s))) ∧ (∃
    (rx : RxAt) (s : State), ticking s = true ∧ s.eq.lastWord ≠ some (frameStart rx s) ∧ storeActive s = true ∧ s.eq.rawLosf =
    false) ∧ (∃ (rx : RxAt) (s : State), ticking s = true ∧ s.eq.lastWord ≠ some (frameStart rx s) ∧ (storeActive s = false ∨
    s.eq.rawLosf = true)) ∧ (∃ (s : State), s.hs.trigRate = false ∧ s.hs.trigExc = false) ∧ (∃ (s : State), s.hs.rateFired =
    false ∧ s.hs.trigM ≤ s.hs.rateRun + 1) ∧ (∃ (s : State), s.hs.rateFired = false ∧ s.hs.rateRun + 1 < s.hs.trigM) ∧ (∃
    (s : State), s.hs.rateFired = false ∧ 0 < s.hs.trigM) ∧ (∃ (s : State), sensing s = true ∧ senseIdxNow s ≠ s.hs.senseIdx)
    ∧ (∃ (s : State), sensing s = true ∧ senseIdxNow s = s.hs.senseIdx) :=
  ⟨⟨rx0, frozenSt, by decide +kernel⟩,
   ⟨rx0, { liveSt with hs := { started := true } }, by decide +kernel⟩,
   ⟨rx0, liveSt, by decide +kernel⟩,
   ⟨liveSt, by decide +kernel⟩,
   ⟨{ liveSt with hs := { rateRun := 7 } }, by decide +kernel⟩,
   ⟨liveSt, by decide +kernel⟩,
   ⟨liveSt, by decide +kernel⟩,
   ⟨{ liveSt with hs := { started := true, rate := 1 } }, by decide +kernel⟩,
   ⟨{ liveSt with hs :=
     { started := true, rate := 1, senseIdx := senseIdxNow { liveSt with hs := { started := true, rate := 1 } } } },
     by decide +kernel⟩⟩

theorem witness_HistoryEvents_2 : (∃ (s : State), sensing s = false ∧ ticking s = true) ∧ (∃ (s : State), recording s = true ∧
    msPassed s ≠ 0) ∧ (∃ (s : State), recording s = false ∧ ticking s = true ∧ msPassed s ≠ 0) ∧ (∃ (s : State), msPassed s =
    0) ∧ (∃ (s : State), ticking s = true ∧ s.hs.capSt = 1 ∧ capFull s = true) ∧ (∃ (s : State), ticking s = true ∧ s.hs.capSt
    = 1 ∧ capFull s = false) ∧ (∃ (s : State), ticking s = true ∧ s.hs.capSt = 2) :=
  ⟨⟨liveSt, by decide +kernel⟩,
   ⟨{ liveSt with hs := { started := true } }, by decide +kernel⟩,
   ⟨liveSt, by decide +kernel⟩,
   ⟨{ liveSt with hs := { acc := { ms := msNow liveSt } } }, by decide +kernel⟩,
   ⟨{ liveSt with hs := { capSt := 1 } }, by decide +kernel⟩,
   ⟨{ liveSt with hs := { capSt := 1, capAt := ⟨307200, 0⟩ } }, by decide +kernel⟩,
   ⟨{ liveSt with hs := { capSt := 2 } }, by decide +kernel⟩⟩

theorem witness_StoreEvents : (∃ (w : Nat), 2147483648 ≤ w) ∧ (∃ (w : Nat) (m : Merge) (s : State), w < 2147483648 ∧
    List.find? (fun (m : Merge) => decide (m.word = w)) s.hs.merge = some m ∧ s.dbg.frozen = false ∧ (m.bytes.all
    fun (b : Option Byte) => b.isSome) = true) ∧ (∃ (w : Nat) (m : Merge) (s : State), w < 2147483648 ∧ List.find?
    (fun (m : Merge) => decide (m.word = w)) s.hs.merge = some m ∧ s.dbg.frozen = false ∧ (m.bytes.any
    fun (b : Option Byte) => b.isNone) = true ∧ wordValid w s = true ∧ pagePoisoned (pageOf w) s = false) ∧ (∃ (w : Nat)
    (m : Merge) (s : State) (x : Merge), w < 2147483648 ∧ List.find? (fun (m : Merge) => decide (m.word = w)) s.hs.merge =
    some m ∧ s.dbg.frozen = false ∧ x ∈ (mergeFlush m s).hs.merge) ∧ (∃ (w : Nat) (s : State), w < 2147483648 ∧ List.find?
    (fun (m : Merge) => decide (m.word = w)) s.hs.merge = none ∧ s.pwr.powered.getLsbD 6 = true ∧ wordValid w s = true ∧
    pagePoisoned (pageOf w) s = false) ∧ (∃ (w : Nat) (s : State), w < 2147483648 ∧ List.find? (fun (m : Merge) => decide
    (m.word = w)) s.hs.merge = none ∧ s.pwr.powered.getLsbD 6 = true ∧ wordValid w s = false) ∧ (∃ (s : State), cruiserPaused
    s = false ∧ sfSince s.hs.winFrom s < 1024 ∧ s.hs.cruisePage + 1 < 4194304 ∧ pageHeld s.hs.cruisePage s = true) ∧ (∃
    (s : State), cruiserPaused s = false ∧ sfSince s.hs.winFrom s < 1024 ∧ s.hs.cruisePage + 1 < 4194304 ∧ pageHeld
    s.hs.cruisePage s = false) ∧ (∃ (s : State), cruiserPaused s = false ∧ sfSince s.hs.winFrom s < 1024 ∧ s.hs.boosted =
    false ∧ 896 ≤ sfSince s.hs.winFrom s ∧ s.hs.winChecked < s.hs.minRate) ∧ (∃ (s : State), cruiserPaused s = false ∧ sfSince
    s.hs.winFrom s < 1024 ∧ s.hs.boosted = false ∧ (sfSince s.hs.winFrom s < 896 ∨ s.hs.minRate ≤ s.hs.winChecked)) :=
  ⟨⟨2147483648, by decide +kernel⟩,
   ⟨0, ⟨0, []⟩, { runSt with hs := { merge := [⟨0, []⟩] } }, by decide +kernel⟩,
   ⟨0, ⟨0, [none]⟩, { runSt with hs := { merge := [⟨0, [none]⟩], valid := [0] } }, by decide +kernel⟩,
   ⟨0, ⟨0, []⟩, { runSt with hs := { merge := [⟨0, []⟩, ⟨1, []⟩] } }, ⟨1, []⟩, by decide +kernel⟩,
   ⟨2147483647, { runSt with hs := { valid := [2147483647] } }, by decide +kernel⟩,
   ⟨0, liveSt, by decide +kernel⟩,
   ⟨{ runSt with hs := { winFrom := 306177, valid := [0] } }, by decide +kernel⟩,
   ⟨{ runSt with hs := { winFrom := 306177 } }, by decide +kernel⟩,
   ⟨{ runSt with hs := { winFrom := 306304 } }, by decide +kernel⟩,
   ⟨{ runSt with hs := { winFrom := 306305 } }, by decide +kernel⟩⟩

theorem witness_HistoryCommands : (∃ (start : Byte) (s : State), admitted 2817 s = .accept ∧ start.toNat ≤ 1 ∧ s.aon.coppice =
    0) ∧ (∃ (start : Byte) (s : State), admitted 2817 s = .accept ∧ start.toNat ≤ 1 ∧ 0 < s.aon.coppice) ∧ (∃ (h : Hdr)
    (first : Dword) (count : Byte) (s : State), admitted 2818 s = .accept ∧ 1 ≤ count.toNat ∧ count.toNat ≤ 32 ∧ h.buf = true
    ∧ first.toNat < s.hs.seq) ∧ (∃ (rate : Byte) (s : State), admitted 2819 s = .accept ∧ rate.toNat ≤ 5 ∧ s.aon.coppice = 0)
    ∧ (∃ (h : Hdr) (first : Dword) (count : Half) (s : State), admitted 2820 s = .accept ∧ h.buf = true ∧ 1 ≤ count.toNat ∧
    count.toNat ≤ 256 ∧ first.toNat < s.hs.sampleN) ∧ (∃ (h : Hdr) (first : Dword) (s : State), admitted 2820 s = .accept ∧
    h.buf = true ∧ s.hs.sampleN ≤ first.toNat) ∧ (∃ (enables action : Byte) (rateThr : Word) (excThr : Half) (s : State),
    admitted 2821 s = .accept ∧ enables &&& 252 = 0 ∧ action.toNat ≤ 2 ∧ (rateThr = 0 ∨ 50 ≤ rateThr.toNat ∧ rateThr.toNat ≤
    20000) ∧ (excThr = 0 ∨ 50 ≤ excThr.toNat ∧ excThr.toNat ≤ 3141)) ∧ (∃ (s : State), admitted 2822 s = .accept ∧
    s.line.cur.isSome = true ∧ s.hs.capSt ≠ 0) ∧ (∃ (s : State) (k : Nat), admitted 2822 s = .accept ∧ s.line.cur.isSome =
    true ∧ s.hs.capSt = 0 ∧ s.aon.coppice = 0 ∧ k < 256 ∧ s.hs.slots.getD k 0 = 0 ∧ ∀ j < k, s.hs.slots.getD j 0 ≠ 0) :=
  ⟨⟨0, liveSt, by decide +kernel⟩,
   ⟨0, { liveSt with aon := { coppice := 1 } }, by decide +kernel⟩,
   ⟨hB, 2, 32, { runSt with hs := { seq := 3 } }, by decide +kernel⟩,
   ⟨0, liveSt, by decide +kernel⟩,
   ⟨hB, 2, 256, { runSt with hs := { sampleN := 3 } }, by decide +kernel⟩,
   ⟨hB, 0, liveSt, by decide +kernel⟩,
   ⟨0, 0, 0, 0, liveSt, by decide +kernel⟩,
   ⟨{ liveSt with hs := { capSt := 1 } }, by decide +kernel⟩,
   ⟨liveSt, 0, by decide +kernel⟩⟩

theorem witness_HistoryCommands_2 : (∃ (s : State), admitted 2822 s = .accept ∧ s.line.cur.isSome = true ∧ s.hs.capSt = 0 ∧ ∀
    k < 256, s.hs.slots.getD k 0 ≠ 0) ∧ (∃ (h : Hdr) (slot : Byte) (s : State), admitted 2823 s = .accept ∧ h.buf = true ∧ 3 ≤
    s.hs.slots.getD (slot.toNat) 0) ∧ (∃ (h : Hdr) (slot : Byte) (s : State), admitted 2823 s = .accept ∧ h.buf = true ∧
    s.hs.slots.getD (slot.toNat) 0 ≤ 2) ∧ (∃ (rate : Half) (flags : Byte) (s : State), admitted 2824 s = .accept ∧ (rate = 0 ∨
    16 ≤ rate.toNat ∧ rate.toNat ≤ 4096) ∧ flags &&& 254 = 0) ∧ (∃ (s : State), admitted 2825 s = .accept) ∧ (∃
    (region : Byte) (s : State), admitted 2826 s = .accept ∧ region.toNat ≤ 1 ∧ s.hs.capSt = 0) ∧ (∃ (region : Byte)
    (s : State), admitted 2826 s = .accept ∧ region.toNat ≤ 1 ∧ s.hs.capSt ≠ 0) :=
  ⟨⟨{ liveSt with hs := { slots := List.replicate 256 1 } }, by decide +kernel⟩,
   ⟨hB, 0, { runSt with hs := { slots := [3] } }, by decide +kernel⟩,
   ⟨hB, 0, liveSt, by decide +kernel⟩,
   ⟨0, 0, liveSt, by decide +kernel⟩,
   ⟨{ liveSt with hs := { capSt := 1 } }, by decide +kernel⟩,
   ⟨0, liveSt, by decide +kernel⟩,
   ⟨0, { liveSt with hs := { capSt := 1 } }, by decide +kernel⟩⟩

theorem witness_CalibrationEvents : (∃ (s : State), ticking s = true ∧ taskHeld Task.calibration s = false ∧ inRun s = true ∧
    s.pwr.shed < 2 ∧ s.time.lts.sf.toNat % 1024 = 0 ∧ s.cal.lastSlot ≠ s.time.lts.sf) ∧ (∃ (s : State), ticking s = true ∧
    taskHeld Task.calibration s = false ∧ inRun s = true ∧ s.pwr.shed < 2 ∧ s.time.lts.sf.toNat % 1024 = 0 ∧ s.cal.lastSlot
    = s.time.lts.sf) ∧ (∃ (s : State), (2 ≤ s.pwr.shed ∨ s.time.lts.sf.toNat % 1024 ≠ 0 ∨ taskHeld Task.calibration s =
    true)) ∧ (∃ (conv : Conv) (s : State), swapOf conv s = none) ∧ (∃ (conv : Conv) (s : State), (swapOf conv s).isSome =
    true) ∧ (∃ (conv : Conv) (s : State) (w : Swap), inCal conv s = none ∧ chooseSwap conv (rotOf conv s) s = some w) ∧ (∃
    (conv : Conv) (s : State), inCal conv s = none ∧ chooseSwap conv (rotOf conv s) s = none) ∧ (∃ (conv : Conv) (ch : BitVec
    2) (sp i : Nat) (s : State), oldestIn .spare (chanOf conv ch s) = some sp ∧ failedIn (chanOf conv ch s) = some i) ∧ (∃
    (conv : Conv) (ch : BitVec 2) (sp i : Nat) (s : State), oldestIn .spare (chanOf conv ch s) = some sp ∧ failedIn (chanOf
    conv ch s) = none ∧ askedFor conv ch s = none ∧ oldestIn .active (chanOf conv ch s) = some i) :=
  ⟨⟨liveSt, by decide +kernel⟩,
   ⟨{ liveSt with cal := { lastSlot := 307200 } }, by decide +kernel⟩,
   ⟨{ liveSt with pwr := { liveSt.pwr with shed := 2 } }, by decide +kernel⟩,
   ⟨.adc, liveSt, by decide +kernel⟩,
   ⟨.adc, swapSt 306688, by decide +kernel⟩,
   ⟨.adc, liveSt, ⟨0, 0, some 64, 307200⟩, by decide +kernel⟩,
   ⟨.adc, { liveSt with fe := { adc := Four.all (Chan.fresh 64 0) } }, by decide +kernel⟩,
   ⟨.adc, 0, 64, 0, { liveSt with fe := { adc := Four.all failCh } }, by decide +kernel⟩,
   ⟨.adc, 0, 64, 0, liveSt, by decide +kernel⟩⟩

theorem witness_CalibrationEvents_2 : (∃ (s : State), s.hs.capSt = 1) ∧ (∃ (s : State), 1 ≤ s.eq.st ∧ s.eq.st ≤ 7) ∧ (∃
    (s : State), stepMarks s.time.lts.sf s = true) ∧ (∃ (s : State), s.tx.st ≠ Opt.lit) ∧ (∃ (conv : Conv) (w : Swap)
    (s : State), swapOf conv s = some w ∧ ticking s = true ∧ s.pwr.shed < 2 ∧ s.time.lts.sym = 0 ∧ sfSince w.slot s ≤ 511 ∧
    swapDeferred conv s = false) ∧ (∃ (conv : Conv) (w : Swap) (s : State), swapOf conv s = some w ∧ ticking s = true ∧
    s.pwr.shed < 2 ∧ swapDeferred conv s = true) ∧ (∃ (conv : Conv) (w : Swap) (s : State), swapOf conv s = some w ∧
    ticking s = true ∧ s.pwr.shed < 2 ∧ 511 < sfSince w.slot s) ∧ (∃ (conv : Conv) (ch : BitVec 2) (i : Nat) (from_ : Sf)
    (x : Slice) (s : State), inCal conv s = some (ch, i, from_) ∧ ticking s = true ∧ taskHeld Task.calibration s = false ∧
    redoOf conv s = false ∧ s.pwr.shed < 2 ∧ (chanOf conv ch s).slices[i]? = some x ∧ 256 ≤ sfSince from_ s) ∧ (∃
    (conv : Conv) (ch : BitVec 2) (i : Nat) (from_ : Sf) (x : Slice) (s : State), inCal conv s = some (ch, i, from_) ∧ ticking
    s = true ∧ taskHeld Task.calibration s = false ∧ redoOf conv s = false ∧ s.pwr.shed < 2 ∧ (chanOf conv ch s).slices[i]?
    = some x ∧ sfSince from_ s < 256) :=
  ⟨⟨{ liveSt with hs := { capSt := 1 } }, by decide +kernel⟩,
   ⟨{ liveSt with eq := { st := 7 } }, by decide +kernel⟩,
   ⟨{ liveSt with fe := { stepSfX := some 307200 } }, by decide +kernel⟩,
   ⟨runSt, by decide +kernel⟩,
   ⟨.adc, ⟨0, 0, some 64, 307200⟩, { liveSt with cal := { adcSwap := some ⟨0, 0, some 64, 307200⟩ } }, by decide +kernel⟩,
   ⟨.adc, ⟨0, 0, some 64, 307200⟩, { liveSt with cal := { adcSwap := some ⟨0, 0, some 64, 307200⟩ }, hs := { capSt := 1 } },
     by decide +kernel⟩,
   ⟨.adc, ⟨0, 0, some 64, 306688⟩, swapSt 306688, by decide +kernel⟩,
   ⟨.adc, 0, 0, 306944, slice1, { liveSt with cal := { adcCal := some (0, 0, 306944) } }, by decide +kernel⟩,
   ⟨.adc, 0, 0, 306945, slice1, { liveSt with cal := { adcCal := some (0, 0, 306945) } }, by decide +kernel⟩⟩

theorem witness_CalibrationEvents_3 : (∃ (v : SliceFound) (median : Int), inRange v = true ∧ v.noise ≤ median + 300) ∧ (∃
    (v : SliceFound) (x : Slice), inRange v = false ∧ x.rangeRun = 2) ∧ (∃ (v : SliceFound) (median : Int) (x : Slice), median
    + 300 < v.noise ∧ x.noiseRun = 2) ∧ (∃ (x : Slice), x.rangeRun < 2 ∧ x.noiseRun < 2) ∧ (∃ (dom : Byte) (item : Half),
    domItems (dom.toNat) ≤ item.toNat) ∧ (∃ (dom : Byte) (item : Half) (s : State), item.toNat < domItems (dom.toNat) ∧
    ticking s = true ∧ s.cal.stale.getD (dom.toNat) 0 ≠ 0 ∧ (itemOf (dom.toNat) (item.toNat) s).stale = false ∧ itemOlder
    (dom.toNat) (item.toNat) (s.cal.stale.getD (dom.toNat) 0) s = true ∧ s.cal.notify.getD (dom.toNat) false = false) ∧ (∃
    (dom : Byte) (item : Half) (s : State), item.toNat < domItems (dom.toNat) ∧ ticking s = true ∧ s.cal.stale.getD
    (dom.toNat) 0 ≠ 0 ∧ (itemOf (dom.toNat) (item.toNat) s).stale = false ∧ itemOlder (dom.toNat) (item.toNat)
    (s.cal.stale.getD (dom.toNat) 0) s = false) ∧ (∃ (d : Nat), d ≠ 5) ∧ (∃ (input : Byte), 2 ≤ input.toNat) :=
  ⟨⟨⟨512, -60000, 150, 300⟩, 0, by decide +kernel⟩,
   ⟨⟨513, 0, 0, 0⟩, { slice1 with rangeRun := 2 }, by decide +kernel⟩,
   ⟨⟨0, 0, 0, 301⟩, 0, { slice1 with noiseRun := 2 }, by decide +kernel⟩,
   ⟨{ slice1 with rangeRun := 1, noiseRun := 1 }, by decide +kernel⟩,
   ⟨0, 1000, by decide +kernel⟩,
   ⟨0, 0, { liveSt with cal := { stale := [1, 4, 4, 4, 4, 0] } }, by decide +kernel⟩,
   ⟨0, 0, liveSt, by decide +kernel⟩,
   ⟨0, by decide +kernel⟩,
   ⟨2, by decide +kernel⟩⟩

theorem witness_CalibrationEvents_4 : ∃ (input : Byte) (s : State), input.toNat < 2 ∧ ticking s = true ∧ s.ref.sel = some
    (input.toNat) ∧ s.ref.clk = ClkSt.locked ∧ wardenPassed s.ref.lockedFrom 86400 s = true ∧ wardenPassed s.ref.calAt 86400 s
    = true ∧ taskHeld Task.calibration s = false :=
  ⟨0, { liveSt with ref := { sel := some 0, clk := .locked }, time := { liveSt.time with wardenNs := 86400000000000 } },
    by decide +kernel⟩

theorem witness_HealthEvents : (∃ (s : State), s.dbg.frozen = false ∧ s.pwr.powered.getLsbD 1 = true ∧ s.mon.hostTurn = false)
    ∧ (∃ (s : State) (k : Nat), s.dbg.frozen = false ∧ s.pwr.powered.getLsbD 1 = true ∧ s.mon.hostTurn = true ∧ s.mon.legacy =
    false ∧ nextMasked s.mon.mask s.mon.hostPos = some k) ∧ (∃ (s : State), s.dbg.frozen = false ∧ s.pwr.powered.getLsbD 1 =
    true ∧ s.mon.hostTurn = true ∧ s.mon.legacy = false ∧ s.mon.mask = 0) ∧ (∃ (c : MonCh) (raw : Nat), c.offset = 0 ∧ c.gain
    = 32768 ∧ raw ≤ 4095) ∧ (∃ (s : State), intervalOver 900 s.health.start15 s = true) ∧ (∃ (s : State), intervalOver 900
    s.health.start15 s = false) ∧ (∃ (s : State), intervalOver 86400 s.health.start24 s = true) ∧ (∃ (s : State), intervalOver
    86400 s.health.start24 s = false) ∧ (∃ (s : State), ticking s = true ∧ s.health.blazePeriod ≠ 0 ∧ s.pwr.shed < 3 ∧
    inRun s = true ∧ s.health.blazeKinds.testBit 0 = true ∧ s.fec.st = 2 ∧ s.health.blazeCw ≠ blazePeriodNow s) :=
  ⟨⟨liveSt, by decide +kernel⟩,
   ⟨{ runSt with mon := { hostTurn := true, mask := 0x80000000 } }, 31, by decide +kernel⟩,
   ⟨{ runSt with mon := { hostTurn := true } }, by decide +kernel⟩,
   ⟨{}, 4095, by decide +kernel⟩,
   ⟨{ runSt with time := { running := true, lts := ⟨20000000, 0⟩ } }, by decide +kernel⟩,
   ⟨{ runSt with health := { agePaused := false } }, by decide +kernel⟩,
   ⟨{ runSt with time := { running := true, lts := ⟨1500000000, 0⟩ } }, by decide +kernel⟩,
   ⟨{ runSt with health := { agePaused := false } }, by decide +kernel⟩,
   ⟨liveSt, by decide +kernel⟩⟩

theorem witness_HealthEvents_2 : (∃ (s : State), ticking s = true ∧ s.health.blazePeriod ≠ 0 ∧ s.pwr.shed < 3 ∧ inRun s =
    true ∧ s.health.blazeKinds.testBit 0 = true ∧ (s.fec.st ≠ 2 ∨ s.health.blazeCw = blazePeriodNow s)) ∧ (∃ (s : State),
    ageRuns s = true ∧ s.health.agePaused = false) ∧ (∃ (s : State), ageRuns s = true ∧ s.health.agePaused = true) ∧ (∃
    (x : Int) (s : State), ageRuns s = true ∧ atBoundary s = true ∧ s.health.slackNow = some x ∧ x < 20 ∧ s.health.coreOffset
    < 12) ∧ (∃ (x : Int) (s : State), ageRuns s = true ∧ atBoundary s = true ∧ s.health.slackNow = some x ∧ 20 ≤ x) ∧ (∃
    (s : State), s.health.slackNow = none) ∧ (∃ (s : State), s.health.dayDue = false) ∧ (∃ (s : State), ageRuns s = true ∧
    ticking s = true ∧ s.health.dayDue = true) :=
  ⟨⟨runSt, by decide +kernel⟩,
   ⟨{ runSt with health := { agePaused := false } }, by decide +kernel⟩,
   ⟨{ runSt with health := { agePaused := true } }, by decide +kernel⟩,
   ⟨19, { runSt with health := { slackNow := some 19, coreOffset := 11 } }, by decide +kernel⟩,
   ⟨20, { runSt with health := { slackNow := some 20, coreOffset := 11 } }, by decide +kernel⟩,
   ⟨{ runSt with health := { agePaused := false } }, by decide +kernel⟩,
   ⟨{ runSt with health := { agePaused := false } }, by decide +kernel⟩,
   ⟨{ runSt with health := { dayDue := true } }, by decide +kernel⟩⟩

theorem witness_HealthCommands : (∃ (dom : Byte) (item : Half) (s : State), admitted 3073 s = .accept ∧ item.toNat < domItems
    (dom.toNat)) ∧ (∃ (dom flags stale : Byte) (s : State), admitted 3074 s = .accept ∧ dom.toNat ≤ 5 ∧ flags &&& 254 = 0 ∧
    stale ≠ 0) ∧ (∃ (slice_ : Half) (x : Slice) (s : State), admitted 3075 s = .accept ∧ slice_.toNat < 272 ∧ s.aon.coppice <
    2 ∧ (chanOf Conv.adc (BitVec.ofNat 2 (slice_.toNat / 68)) s).slices[slice_.toNat % 68]? = some x ∧ x.st ≠ .retired ∧
    sparesOf (chanOf Conv.adc (BitVec.ofNat 2 (slice_.toNat / 68)) s) ≠ 0) ∧ (∃ (mode : Byte) (s : State), admitted 3088 s =
    .accept ∧ mode.toNat ≤ 1) ∧ (∃ (ch ref : Byte) (s : State), admitted 3089 s = .accept ∧ ch.toNat ≤ 31 ∧ ref.toNat ≤ 2) ∧
    (∃ (h : Hdr) (entries : Byte) (s : State), admitted 3090 s = .accept ∧ 1 ≤ entries.toNat ∧ entries.toNat ≤ 16 ∧ h.buf =
    true ∧ h.length.toNat = 4 * entries.toNat ∧ ∀ e ∈ monEntries (entries.toNat) (bufData h s), e.1 ≤ 31) ∧ (∃ (h : Hdr)
    (count : Byte) (s : State), admitted 3091 s = .accept ∧ h.buf = true ∧ count ≠ 0) ∧ (∃ (metric : Byte) (s : State),
    admitted 3104 s = .accept ∧ (metric.toNat ≤ 7 ∨ metric = 255)) ∧ (∃ (margin : Half) (flags : Byte) (s : State), admitted
    3105 s = .accept ∧ margin.toNat ≤ 500 ∧ flags &&& 254 = 0) :=
  ⟨⟨0, 0, liveSt, by decide +kernel⟩,
   ⟨0, 0, 1, liveSt, by decide +kernel⟩,
   ⟨271, { slice1 with st := .spare }, runSt, by decide +kernel⟩,
   ⟨0, liveSt, by decide +kernel⟩,
   ⟨0, 0, liveSt, by decide +kernel⟩,
   ⟨hB, 16, liveSt, by decide +kernel⟩,
   ⟨hB, 1, liveSt, by decide +kernel⟩,
   ⟨0, liveSt, by decide +kernel⟩,
   ⟨0, 0, liveSt, by decide +kernel⟩⟩

theorem witness_HealthCommands_2 : (∃ (id : Half) (t : Tally) (s : State), admitted 3120 s = .accept ∧ tallyOf (id.toNat) s =
    some t ∧ tallyKind t.id = TallyKind.count) ∧ (∃ (id : Half) (s : State), admitted 3121 s = .accept ∧ id ≠ 65535 ∧ (tallyOf
    (id.toNat) s).isSome = true) ∧ (∃ (id : Half) (s : State), admitted 3121 s = .accept ∧ id ≠ 65535 ∧ tallyOf (id.toNat) s =
    none) ∧ (∃ (flags : Byte) (s : State), admitted 3136 s = .accept ∧ flags &&& 252 = 0) ∧ (∃ (h : Hdr) (first : Word)
    (count : Byte) (s : State), admitted 3137 s = .accept ∧ h.buf = true ∧ 1 ≤ count.toNat ∧ count.toNat ≤ 64 ∧ first.toNat <
    s.health.blazeNext ∧ s.health.blazeDamaged = false) ∧ (∃ (h : Hdr) (first : Word) (count : Byte) (s : State), admitted
    3137 s = .accept ∧ h.buf = true ∧ 1 ≤ count.toNat ∧ count.toNat ≤ 64 ∧ first.toNat < s.health.blazeNext ∧
    s.health.blazeDamaged = true) ∧ (∃ (h : Hdr) (first : Word) (count : Byte) (s : State), admitted 3137 s = .accept ∧ h.buf
    = true ∧ 1 ≤ count.toNat ∧ count.toNat ≤ 64 ∧ s.health.blazeNext ≤ first.toNat) :=
  ⟨⟨0x0401, { id := 0x0401 }, runSt, by decide +kernel⟩,
   ⟨0, { liveSt with health := { tallies := [{ id := 0 }] } }, by decide +kernel⟩,
   ⟨0, liveSt, by decide +kernel⟩,
   ⟨0, liveSt, by decide +kernel⟩,
   ⟨hB, 4, 64, { runSt with health := { blazeNext := 5 } }, by decide +kernel⟩,
   ⟨hB, 4, 64, { runSt with health := { blazeNext := 5, blazeDamaged := true } }, by decide +kernel⟩,
   ⟨hB, 0, 1, liveSt, by decide +kernel⟩⟩

theorem witness_LineModes : (∃ (code : Byte) (p : FlexReq) (s : State), admitted 769 s = .accept ∧ modeOf code p = none) ∧ (∃
    (h : Hdr) (code : Byte) (p : FlexReq) (new : Option LMode) (s : State), admitted 769 s = .accept ∧ modeOf code p = some
    new ∧ h.buf = false ∧ h.length = 0 ∧ setBlocked s = true ∧ h.sched = false) ∧ (∃ (h : Hdr) (code : Byte) (p : FlexReq)
    (new : Option LMode) (s : State), admitted 769 s = .accept ∧ modeOf code p = some new ∧ h.buf = false ∧ h.length = 0 ∧
    setBlocked s = false ∧ s.aon.coppice < 4 ∧ s.pwr.failed = 0 ∧ (code = 8 → inWatch s = false) ∧ modeRefused (zrNow s) new
    (changeBegin (setChange h code p s) s) = false) ∧ (∃ (h : Hdr) (code : Byte) (p : FlexReq) (new : Option LMode)
    (s : State), admitted 769 s = .accept ∧ modeOf code p = some new ∧ h.buf = false ∧ h.length = 0 ∧ setBlocked s = false ∧
    s.aon.coppice < 4 ∧ s.pwr.failed = 0 ∧ (code = 8 → inWatch s = false) ∧ modeRefused (zrNow s) new (changeBegin (setChange
    h code p s) s) = true) ∧ (∃ (code : Byte) (p : FlexReq) (s : State) (a b : LMode), modeOf code p = some (some b) ∧
    s.line.cur = some a) ∧ (∃ (code : Byte) (p : FlexReq) (new : Option LMode) (s : State), modeOf code p = some new ∧
    (s.line.cur = none ∨ new = none)) ∧ (∃ (ch : Change) (s : State), s.line.change = some ch ∧ ticking s = true ∧ ch.phase =
    0 ∧ ch.c.toNat ≤ s.time.lts.sf.toNat) ∧ (∃ (ch : Change) (s : State), s.line.change = some ch ∧ ticking s = true ∧
    ch.phase = 0 ∧ s.time.lts.sf.toNat < ch.c.toNat) ∧ (∃ (ch : Change) (s : State), s.line.change = some ch ∧ ticking s =
    true ∧ ch.phase = 1 ∧ ch.c.toNat + 1 ≤ s.time.lts.sf.toNat) :=
  ⟨⟨0xFF, flex0, runSt, by decide +kernel⟩,
   ⟨hA, 4, flex0, some mode4, chSt (chg 307200 true 0), by decide +kernel⟩,
   ⟨hA, 4, flex0, some mode4, runSt, by decide +kernel⟩,
   ⟨hA, 6, flex0, (modeOf 6 flex0).getD none, runSt, by decide +kernel⟩,
   ⟨4, flex0, liveSt, mode4, mode4, by decide +kernel⟩,
   ⟨4, flex0, some mode4, runSt, by decide +kernel⟩,
   ⟨chg 307200 true 0, chSt (chg 307200 true 0), by decide +kernel⟩,
   ⟨chg 307201 true 0, chSt (chg 307201 true 0), by decide +kernel⟩,
   ⟨chg 307199 true 1, chSt (chg 307199 true 1), by decide +kernel⟩⟩

theorem witness_LineModes_2 : (∃ (ch : Change) (s : State), s.line.change = some ch ∧ ticking s = true ∧ ch.phase = 2 ∧
    ((ch.c.toNat + if ch.sameB = true then 2 else 1) ≤ s.time.lts.sf.toNat)) ∧ (∃ (ch : Change) (s : State), s.line.change =
    some ch ∧ ticking s = true ∧ ch.phase = 1 ∧ s.time.lts.sf.toNat < ch.c.toNat + 1) ∧ (∃ (ch : Change) (s : State),
    s.line.change = some ch ∧ ticking s = true ∧ ch.phase = 2 ∧ (s.time.lts.sf.toNat < ch.c.toNat + if ch.sameB = true then 2
    else 1)) ∧ (∃ (ch : Change) (m : LMode), ch.new = some m ∧ ch.sameB = true) ∧ (∃ (ch : Change) (m : LMode), ch.new = some
    m ∧ ch.sameB = false) ∧ (∃ (s : State), admitted 770 s = .accept) ∧ (∃ (p : FlexReq) (s : State), admitted 771 s = .accept
    ∧ flexMode p = none) ∧ (∃ (p : FlexReq) (s : State) (m : LMode), admitted 771 s = .accept ∧ flexMode p = some m) :=
  ⟨⟨chg 307198 true 2, chSt (chg 307198 true 2), by decide +kernel⟩,
   ⟨chg 307200 true 1, chSt (chg 307200 true 1), by decide +kernel⟩,
   ⟨chg 307199 true 2, chSt (chg 307199 true 2), by decide +kernel⟩,
   ⟨chg 0 true 0, mode4, by decide +kernel⟩,
   ⟨chg 0 false 0, mode4, by decide +kernel⟩,
   ⟨liveSt, by decide +kernel⟩,
   ⟨flex0, liveSt, by decide +kernel⟩,
   ⟨flex1, liveSt, (flexMode flex1).getD mode4, by decide +kernel⟩⟩

theorem witness_FreezeAndTestAccess : (∃ (s : State), s.dbg.frozen = false ∧ s.tx.st = Opt.lit) ∧ (∃ (s : State),
    freezeAllowed s = true ∧ s.pins.resetLow = false) ∧ (∃ (t : FreezeTrig) (s : State), s.dbg.armed = some t ∧ tripDue s =
    true ∧ freezeAllowed s = true ∧ s.dbg.frozen = false) ∧ (∃ (t : FreezeTrig) (s : State), (s.dbg.armed ≠ some t ∨ tripDue s
    = false)) ∧ (∃ (t : FreezeTrig) (s : State), s.dbg.armed = some t ∧ s.dbg.trip = none) ∧ (∃ (s : State) (a : Lts),
    s.dbg.trip = some a) ∧ (∃ (trigger : Byte) (s : State) (t : FreezeTrig), admitted 3841 s = .accept ∧ freezeAllowed s =
    true ∧ triggerOf (trigger.toNat) = some t) ∧ (∃ (s : State), admitted 3841 s = .accept ∧ freezeAllowed s = false) ∧ (∃
    (s : State), admitted 3842 s = .accept ∧ s.dbg.frozen = true ∧ s.pins.freezeLow = false) :=
  ⟨⟨liveSt, by decide +kernel⟩,
   ⟨liveSt, by decide +kernel⟩,
   ⟨.cycleSlip, { runSt with dbg := { armed := some .cycleSlip, trip := some ⟨307200, 0⟩ } }, by decide +kernel⟩,
   ⟨.engineHalt, liveSt, by decide +kernel⟩,
   ⟨.cycleSlip, { runSt with dbg := { armed := some .cycleSlip } }, by decide +kernel⟩,
   ⟨{ runSt with dbg := { armed := some .cycleSlip, trip := some ⟨307200, 0⟩ } }, ⟨307200, 0⟩, by decide +kernel⟩,
   ⟨0, liveSt, .engineHalt, by decide +kernel⟩,
   ⟨{ liveSt with aon := { valid := true, code := 3, coppice := 5 } }, by decide +kernel⟩,
   ⟨frozenSt, by decide +kernel⟩⟩

theorem witness_FreezeAndTestAccess_2 : (∃ (s : State), admitted 3842 s = .accept ∧ s.dbg.frozen = true ∧ s.pins.freezeLow =
    true) ∧ (∃ (s : State), admitted 3842 s = .accept ∧ s.dbg.frozen = false) ∧ (∃ (s : State), admitted 3843 s = .accept) ∧
    (∃ (s : State), s.pins.vsbValid = false) ∧ (∃ (s : State), s.pins.vsbValid = true ∧ s.dbg.frozen = false) ∧ (∃
    (s : State), s.pins.vsbValid = true ∧ s.dbg.frozen = true ∧ s.dbg.chain.toNat ≤ 75) :=
  ⟨⟨{ frozenSt with pins := { freezeLow := true } }, by decide +kernel⟩,
   ⟨liveSt, by decide +kernel⟩,
   ⟨liveSt, by decide +kernel⟩,
   ⟨{ runSt with pins := { vsbValid := false } }, by decide +kernel⟩,
   ⟨liveSt, by decide +kernel⟩,
   ⟨frozenSt, by decide +kernel⟩⟩

theorem witness_PowerDomains : (∃ (d : Dom) (s : State), rising d s = false) ∧ (∃ (d : Dom) (s : State), rising d s = true ∧
    s.pwr.attempts < 3) ∧ (∃ (d : Dom) (s : State) (st : PState), rising d s = true ∧ s.pwr.phase = .steady st ∧
    s.pwr.attempts = 3) ∧ (∃ (d : Dom) (s : State) (k : Nat), rising d s = true ∧ s.pwr.phase = .boot k ∧ s.pwr.attempts = 3)
    ∧ (∃ (d : Dom), d ≠ Dom.mgmt) ∧ (∃ (s : State), awaitsWarden s = true ∧ domIn s.pwr.powered Dom.mgmt = true ∧
    s.pwr.attempts < 3) ∧ (∃ (s : State), s.pwr.retryDue = true ∧ s.pins.resetLow = false ∧ awaitsWarden s = true) ∧ (∃
    (s : State), s.pwr.retryDue = false) ∧ (∃ (e : Sf) (s : State), s.pwr.mmVoteEnd = some e ∧ s.pwr.mmVote = true ∧ ticking s
    = true ∧ mmActive s = false ∧ e.toNat ≤ s.time.lts.sf.toNat) ∧ (∃ (e : Sf) (s : State), s.pwr.mmVoteEnd = some e ∧
    s.pwr.mmVote = true ∧ ticking s = true ∧ mmActive s = false ∧ s.time.lts.sf.toNat < e.toNat) :=
  ⟨⟨.mgmt, liveSt, by decide +kernel⟩,
   ⟨.ciph, { runSt with pwr := { closed := 0x7F, powered := 0x5F, attempts := 2 } }, by decide +kernel⟩,
   ⟨.ciph, { runSt with pwr := { phase := .steady .run, closed := 0x7F, powered := 0x5F, attempts := 3 } }, .run,
     by decide +kernel⟩,
   ⟨.ciph, { runSt with pwr := { phase := .boot 4, closed := 0x7F, powered := 0x5F, attempts := 3 } }, 4, by decide +kernel⟩,
   ⟨.ciph, by decide +kernel⟩,
   ⟨inPhase (.boot 2) { runSt with hif := {} }, by decide +kernel⟩,
   ⟨{ State.reset with pwr := { phase := .boot 2, retryDue := true } }, by decide +kernel⟩,
   ⟨liveSt, by decide +kernel⟩,
   ⟨307200, { runSt with pwr := { mmVoteEnd := some 307200, mmVote := true } }, by decide +kernel⟩,
   ⟨307201, { runSt with pwr := { mmVoteEnd := some 307201, mmVote := true } }, by decide +kernel⟩⟩

theorem witness_BootSteps : (∃ (s : State), s.pwr.phase = .boot 1 ∧ s.pins.vsbValid = true ∧ s.pins.resetLow = false) ∧ (∃
    (s : State), s.pwr.phase = .boot 1 ∧ s.pins.vsbValid = true ∧ s.pins.resetLow = true) ∧ (∃ (mv : Nat) (s : State),
    s.pwr.phase = .boot 2 ∧ 11400 ≤ mv ∧ s.pins.vsbValid = true ∧ s.pins.resetLow = false ∧ domIn s.pwr.closed Dom.mgmt =
    false ∧ s.pwr.retryDue = false) ∧ (∃ (s : State), s.pwr.phase = .boot 2 ∧ domIn s.pwr.powered Dom.mgmt = true ∧
    s.aon.coppice = 0 ∧ s.pins.resetLow = false ∧ s.flash.bootDue = false ∧ s.aon.trial = false ∧ bootable s.aon.pref s =
    true) ∧ (∃ (s : State), s.pwr.phase = .boot 2 ∧ domIn s.pwr.powered Dom.mgmt = true ∧ s.aon.coppice = 0 ∧ s.pins.resetLow
    = false ∧ s.flash.bootDue = false ∧ s.aon.trial = false ∧ bootable s.aon.pref s = false ∧ bootable (!s.aon.pref) s =
    false) ∧ (∃ (s : State), s.pwr.phase = .boot 3 ∧ s.hif.ready = false ∧ s.hif.recovery = false ∧ s.aon.coppice = 0 ∧
    s.flash.bootDue = false) ∧ (∃ (s : State), s.pwr.phase = .boot 4 ∧ s.ref.ovenFrom.isSome = true ∧ domainsUp s = true) ∧ (∃
    (s : State), s.pwr.phase = .boot 5 ∧ s.aon.coppice = 0) ∧ (∃ (s : State), s.pwr.phase = .boot 6 ∧ s.aon.coppice = 0 ∧
    s.pwr.heldReq = none ∧ s.pins.freezeLow = false) ∧ (∃ (s : State), 0 < s.aon.coppice ∧ s.pwr.phase = .boot 6) :=
  ⟨⟨State.reset, by decide +kernel⟩,
   ⟨{ State.reset with pins := { resetLow := true } }, by decide +kernel⟩,
   ⟨12000, inPhase (.boot 2) State.reset, by decide +kernel⟩,
   ⟨{ State.reset with pwr := { phase := .boot 2, closed := 3, powered := 3 } }, by decide +kernel⟩,
   ⟨{ State.reset with pwr := { phase := .boot 2, closed := 3, powered := 3 }, flash := { imgA := none } }, by decide +kernel⟩,
   ⟨inPhase (.boot 3) State.reset, by decide +kernel⟩,
   ⟨{ State.reset with pwr := { phase := .boot 4, closed := 0x7F, powered := 0x7F }, ref := { ovenFrom := some 0 } },
     by decide +kernel⟩,
   ⟨inPhase (.boot 5) State.reset, by decide +kernel⟩,
   ⟨inPhase (.boot 6) State.reset, by decide +kernel⟩,
   ⟨{ inPhase (.boot 6) State.reset with aon := { coppice := 1 } }, by decide +kernel⟩⟩

theorem witness_Resets : (∃ (n : Nat) (s : State), s.pins.vsbValid = true ∧ s.pwr.phase ≠ .orderlyOff ∧ n < 1000) ∧ (∃
    (n : Nat) (s : State), s.pins.vsbValid = true ∧ s.pwr.phase ≠ .orderlyOff ∧ 10000 ≤ n) ∧ (∃ (s : State), s.pwr.phase =
    .boot 1 ∧ s.pins.vsbValid = true ∧ s.pins.resetLow = true) ∧ (∃ (mv : Nat) (s : State), 3050 ≤ mv ∧ s.pins.vsbValid =
    false) ∧ (∃ (mv : Nat) (s : State), (s.pins.vsbValid = true ∨ mv < 3050)) ∧ (∃ (mv : Nat) (s : State), mv < 2900 ∧
    s.pins.vsbValid = true) ∧ (∃ (mv : Nat), 2900 ≤ mv) ∧ (∃ (s : State), s.pins.resetLow = false ∧ s.pins.vsbValid = true) ∧
    (∃ (s : State), s.flash.awaiting = true ∧ s.hif.ready = false ∧ wardenPassed s.flash.awaitFrom 10 s = true) :=
  ⟨⟨0, liveSt, by decide +kernel⟩,
   ⟨12000, liveSt, by decide +kernel⟩,
   ⟨{ State.reset with pins := { resetLow := true } }, by decide +kernel⟩,
   ⟨3050, { State.reset with pins := { vsbValid := false } }, by decide +kernel⟩,
   ⟨0, liveSt, by decide +kernel⟩,
   ⟨0, liveSt, by decide +kernel⟩,
   ⟨12000, by decide +kernel⟩,
   ⟨liveSt, by decide +kernel⟩,
   ⟨{ State.reset with flash := { awaiting := true }, time := { wardenNs := 10000000000 } }, by decide +kernel⟩⟩

theorem witness_Resets_2 : (∃ (s : State), (s.hif.ready = true ∨ wardenPassed s.flash.awaitFrom 10 s = false)) ∧ (∃
    (s : State), wardenRuns s = true ∧ s.hif.recovery = false ∧ s.flash.bootDue = false ∧ s.flash.trialRuns = true) ∧ (∃
    (s : State), wardenRuns s = true ∧ s.hif.recovery = false ∧ s.flash.bootDue = false ∧ s.flash.trialRuns = false) :=
  ⟨⟨liveSt, by decide +kernel⟩,
   ⟨{ liveSt with flash := { trialRuns := true } }, by decide +kernel⟩,
   ⟨liveSt, by decide +kernel⟩⟩

theorem witness_WakeSources : (∃ (k : Nat) (st : PState) (s : State), k < 5 ∧ s.pins.vsbValid = true ∧ s.pwr.phase = .steady
    st ∧ s.aon.wakeEn.getLsbD k = false) ∧ (∃ (k : Nat) (st : PState) (s : State), k < 5 ∧ s.pins.vsbValid = true ∧
    s.pwr.phase = .steady st ∧ s.aon.wakeEn.getLsbD k = true ∧ s.pwr.req = none ∧ s.line.change = none ∧ wakesFrom k st = true
    ∧ s.aon.vinOk = true) ∧ (∃ (k : Nat) (st : PState) (s : State), k < 5 ∧ s.pins.vsbValid = true ∧ s.pwr.phase = .steady st
    ∧ s.aon.wakeEn.getLsbD k = true ∧ s.pwr.req = none ∧ s.line.change = none ∧ wakesFrom k st = true ∧ s.aon.vinOk = false) ∧
    (∃ (k : Nat) (st : PState) (s : State), k < 5 ∧ s.pins.vsbValid = true ∧ s.pwr.phase = .steady st ∧ s.aon.wakeEn.getLsbD k
    = true ∧ s.pwr.req = none ∧ s.line.change = none ∧ wakesFrom k st = false) ∧ (∃ (n : Nat), n < 2) ∧ (∃ (n : Nat)
    (s : State), 2 ≤ n ∧ s.pins.wakeLow = false ∧ s.pins.resetLow = false) ∧ (∃ (link : Link) (v : Word) (s : State), answers
    link 288 s = true ∧ v &&& 255 = 90) ∧ (∃ (link : Link) (v : Word) (s : State), answers link 288 s = true ∧ v &&& 255 ≠ 90)
    ∧ (∃ (mv : Nat) (s : State), 11400 ≤ mv ∧ mv ≤ 12600 ∧ s.pins.vsbValid = true ∧ s.pwr.phase = .steady PState.off ∧
    s.aon.supplyArmed = true ∧ s.aon.wakeEn.getLsbD 4 = true ∧ s.pwr.req = none ∧ s.line.change = none) ∧ (∃ (mv : Nat)
    (s : State), s.pwr.phase = .steady PState.off ∧ mv < 11400) :=
  ⟨⟨4, .run, { runSt with aon := { wakeEn := 0 } }, by decide +kernel⟩,
   ⟨0, .deep, { inPhase (.steady .deep) runSt with aon := { vinOk := true } }, by decide +kernel⟩,
   ⟨0, .sleep, inPhase (.steady .sleep) runSt, by decide +kernel⟩,
   ⟨0, .run, liveSt, by decide +kernel⟩,
   ⟨0, by decide +kernel⟩,
   ⟨2, liveSt, by decide +kernel⟩,
   ⟨.spi, 90, liveSt, by decide +kernel⟩,
   ⟨.spi, 0, liveSt, by decide +kernel⟩,
   ⟨12600, { inPhase (.steady .off) runSt with aon := { supplyArmed := true } }, by decide +kernel⟩,
   ⟨0, inPhase (.steady .off) runSt, by decide +kernel⟩⟩

theorem witness_LowStates : (∃ (r : PwrReq) (st : PState) (s : State), s.pwr.req = some r ∧ s.pwr.phase = .steady st ∧
    (r.target = PState.sleep ∨ r.target = PState.deep ∨ r.target = PState.off) ∧ r.due.le (nowLts s) = true ∧ s.line.change =
    none ∧ s.dbg.frozen = false ∧ deferredSet s = false) ∧ (∃ (target origin : PState) (s : State), s.pwr.phase = .entry
    target origin ∧ s.pwr.heldReq = none ∧ s.pins.wakeLow = false ∧ s.aon.supplyArmed = false) ∧ (∃ (r : PwrReq) (s : State),
    s.pwr.req = some r ∧ r.target = PState.run ∧ s.pwr.phase = .steady PState.sleep) ∧ (∃ (r : PwrReq) (s : State), s.pwr.req
    = some r ∧ r.target = PState.run ∧ s.pwr.phase = .steady PState.deep ∧ s.aon.coppice = 0) ∧ (∃ (r : PwrReq) (s : State),
    s.pwr.req = some r ∧ r.target = PState.run ∧ s.pwr.phase = .steady PState.off) ∧ (∃ (s : State), s.aon.coppice = 0 ∧
    s.pwr.phase = .boot 4 ∧ s.ref.ovenFrom = none) ∧ (∃ (temp : Int) (s : State), s.aon.coppice = 0 ∧ s.pwr.phase = .exit
    PState.sleep 1 ∧ temp ≤ 8000) ∧ (∃ (temp : Int) (s : State), s.aon.coppice = 0 ∧ s.pwr.phase = .exit PState.sleep 1 ∧ 8000
    < temp) ∧ (∃ (o : PState) (s : State), s.pwr.phase = .exit o 4 ∧ domainsUp s = true) :=
  ⟨⟨⟨.sleep, none, ⟨0, 0⟩, false, false⟩, .run,
     { runSt with pwr := { runSt.pwr with req := some ⟨.sleep, none, ⟨0, 0⟩, false, false⟩ } }, by decide +kernel⟩,
   ⟨.deep, .run, inPhase (.entry .deep .run) runSt, by decide +kernel⟩,
   ⟨⟨.run, none, ⟨0, 0⟩, false, false⟩, inPhase (.steady .sleep)
     { runSt with pwr := { req := some ⟨.run, none, ⟨0, 0⟩, false, false⟩ } }, by decide +kernel⟩,
   ⟨⟨.run, none, ⟨0, 0⟩, false, false⟩, inPhase (.steady .deep)
     { runSt with pwr := { req := some ⟨.run, none, ⟨0, 0⟩, false, false⟩ } }, by decide +kernel⟩,
   ⟨⟨.run, none, ⟨0, 0⟩, false, false⟩, inPhase (.steady .off)
     { runSt with pwr := { req := some ⟨.run, none, ⟨0, 0⟩, false, false⟩ } }, by decide +kernel⟩,
   ⟨inPhase (.boot 4) runSt, by decide +kernel⟩,
   ⟨0, inPhase (.exit .sleep 1) runSt, by decide +kernel⟩,
   ⟨9000, inPhase (.exit .sleep 1) runSt, by decide +kernel⟩,
   ⟨.sleep, inPhase (.exit .sleep 4) runSt, by decide +kernel⟩⟩

theorem witness_LowStates_2 : (∃ (o : PState) (s : State), s.pwr.phase = .exit o 6 ∧ s.aon.coppice = 0 ∧ s.pwr.then_ = none ∧
    s.pwr.restoreAt7 = false ∧ s.pwr.heldReq = none ∧ s.pins.freezeLow = false) ∧ (∃ (r : PwrReq) (s : State), s.pwr.req =
    some r ∧ s.pwr.phase = .steady PState.watch ∧ (r.target = PState.run ∨ r.target = PState.idle) ∧ r.due.le (nowLts s) =
    true ∧ ticking s = true ∧ s.line.change = none ∧ deferredSet s = false ∧ s.pwr.heldReq = none) ∧ (∃ (s : State),
    s.pwr.phase = .steady PState.watch ∧ ticking s = true ∧ s.aon.coppice < 4 ∧ s.pwr.watchOpen = false ∧ s.time.lts.sf.toNat
    < s.pwr.watchNext.toNat) ∧ (∃ (s : State), s.pwr.phase = .steady PState.watch ∧ ticking s = true ∧ s.aon.coppice < 4 ∧
    s.pwr.watchOpen = false ∧ s.time.lts.sf = s.pwr.watchNext) ∧ (∃ (s : State), s.pwr.phase = .steady PState.watch ∧ ticking
    s = true ∧ s.aon.coppice < 4 ∧ s.pwr.watchOpen = true ∧ s.pwr.watchNext.toNat + 16 ≤ s.time.lts.sf.toNat) ∧ (∃
    (s : State), s.pwr.phase = .steady PState.watch ∧ ticking s = true ∧ s.aon.coppice < 4 ∧ s.pwr.watchOpen = true ∧
    s.time.lts.sf.toNat < s.pwr.watchNext.toNat + 16 ∧ s.pwr.watchCmp = some s.time.lts.sf) ∧ (∃ (p : Int) (s : State), s.pwr.phase =
    .steady PState.watch ∧ ticking s = true ∧ s.aon.coppice < 4 ∧ s.pwr.watchOpen = true ∧ s.time.lts.sf.toNat <
    s.pwr.watchNext.toNat + 16 ∧ s.pwr.watchCmp ≠ some s.time.lts.sf ∧ p ≤ s.fe.losThr * 10 + 100) ∧ (∃ (p : Int) (s : State), s.pwr.phase =
    .steady PState.watch ∧ ticking s = true ∧ s.aon.coppice < 4 ∧ s.pwr.watchOpen = true ∧ s.time.lts.sf.toNat <
    s.pwr.watchNext.toNat + 16 ∧ s.pwr.watchCmp ≠ some s.time.lts.sf ∧ s.fe.losThr * 10 + 100 < p ∧ s.pwr.watchRun = 0) ∧ (∃ (p : Int) (s : State), s.pwr.phase =
    .steady PState.watch ∧ ticking s = true ∧ s.aon.coppice < 4 ∧ s.pwr.watchOpen = true ∧ s.time.lts.sf.toNat <
    s.pwr.watchNext.toNat + 16 ∧ s.pwr.watchCmp ≠ some s.time.lts.sf ∧ s.fe.losThr * 10 + 100 < p ∧ s.pwr.watchRun = 1) :=
  ⟨⟨.sleep, inPhase (.exit .sleep 6) runSt, by decide +kernel⟩,
   ⟨⟨.run, none, ⟨0, 0⟩, false, false⟩, inPhase (.steady .watch)
     { runSt with pwr := { req := some ⟨.run, none, ⟨0, 0⟩, false, false⟩ } }, by decide +kernel⟩,
   ⟨inPhase (.steady .watch) { runSt with pwr := { watchNext := 307201 } }, by decide +kernel⟩,
   ⟨inPhase (.steady .watch) { runSt with pwr := { watchNext := 307200 } }, by decide +kernel⟩,
   ⟨inPhase (.steady .watch) { runSt with pwr := { watchOpen := true, watchNext := 307184 } }, by decide +kernel⟩,
   ⟨inPhase (.steady .watch) { runSt with pwr := { watchOpen := true, watchNext := 307185, watchCmp := some 307200 } },
     by decide +kernel⟩,
   ⟨-2300, inPhase (.steady .watch) { runSt with pwr := { watchOpen := true, watchNext := 307185 } }, by decide +kernel⟩,
   ⟨-2299, inPhase (.steady .watch) { runSt with pwr := { watchOpen := true, watchNext := 307185 } }, by decide +kernel⟩,
   ⟨-2299, inPhase (.steady .watch) { runSt with pwr := { watchOpen := true, watchNext := 307185, watchRun := 1 } },
     by decide +kernel⟩⟩

theorem witness_Coppicing : (∃ (mv : Nat) (s : State), s.pins.vsbValid = true ∧ levelBelow mv ≤ s.aon.coppice) ∧ (∃ (mv : Nat)
    (s : State), s.pins.vsbValid = true ∧ s.aon.coppice < levelBelow mv ∧ levelBelow mv < 5) ∧ (∃ (mv : Nat) (s : State),
    s.pins.vsbValid = true ∧ s.aon.coppice < 5 ∧ levelBelow mv = 5 ∧ c5Acts s = true) ∧ (∃ (s : State), s.dbg.frozen = false ∧
    taskHeld Task.power s = false ∧ (shedsAsRun s = true ∨ inSleep s = true) ∧ (ticking s = true → s.time.lts.sym = 0) ∧ s.pwr.shed < s.aon.coppice) ∧ (∃ (s : State),
    s.dbg.frozen = false ∧ taskHeld Task.power s = false ∧ (shedsAsRun s = true ∨ inSleep s = true) ∧ (ticking s = true → s.time.lts.sym = 0) ∧ s.aon.coppice ≤
    s.pwr.shed) ∧ (∃ (mv : Nat) (s : State), s.pins.vsbValid = true ∧ s.pwr.phase ≠ .orderlyOff ∧ levelLeft mv s.aon.coppice =
    s.aon.coppice) ∧ (∃ (mv : Nat) (s : State), s.pins.vsbValid = true ∧ s.pwr.phase ≠ .orderlyOff ∧ levelLeft mv
    s.aon.coppice ≠ s.aon.coppice) ∧ (∃ (mv n : Nat), 0 < levelLeft mv n) ∧ (∃ (s : State), s.pwr.phase = .orderlyOff ∧
    s.pins.resetLow = false ∧ s.pwr.heldReq = none) ∧ (∃ (a : Nat) (s : State), s.pwr.hotFrom = some a ∧ wardenPassed a 1 s =
    true ∧ 8500 ≤ s.pins.caseTemp ∧ wardenRuns s = true ∧ domIn s.pwr.powered Dom.mgmt = true) ∧ (∃ (s : State), hotLong s =
    false) :=
  ⟨⟨12000, liveSt, by decide +kernel⟩,
   ⟨11199, liveSt, by decide +kernel⟩,
   ⟨0, liveSt, by decide +kernel⟩,
   ⟨{ liveSt with aon := { coppice := 1 } }, by decide +kernel⟩,
   ⟨liveSt, by decide +kernel⟩,
   ⟨0, liveSt, by decide +kernel⟩,
   ⟨12000, { liveSt with aon := { coppice := 1 } }, by decide +kernel⟩,
   ⟨0, 1, by decide +kernel⟩,
   ⟨inPhase .orderlyOff runSt, by decide +kernel⟩,
   ⟨1000000000, { liveSt with time := { liveSt.time with wardenNs := 2000000000 }, pwr :=
     { liveSt.pwr with hotFrom := some 1000000000 }, pins := { caseTemp := 8500 } }, by decide +kernel⟩,
   ⟨liveSt, by decide +kernel⟩⟩

theorem witness_PowerCommands : (∃ (target : Byte) (st to_ : PState) (s : State), admitted 513 s = .accept ∧ codeState
    (target.toNat) = some to_ ∧ s.pwr.phase = .steady st ∧ s.pwr.req = none ∧ s.line.change = none ∧ st = to_) ∧ (∃
    (target : Byte) (st to_ : PState) (s : State), admitted 513 s = .accept ∧ codeState (target.toNat) = some to_ ∧
    s.pwr.phase = .steady st ∧ s.pwr.req = none ∧ s.line.change = none ∧ st = PState.run ∧ (to_ = PState.sleep ∨ to_ =
    PState.deep ∨ to_ = PState.off)) ∧ (∃ (target : Byte) (st to_ : PState) (s : State), admitted 513 s = .accept ∧ codeState
    (target.toNat) = some to_ ∧ s.pwr.phase = .steady st ∧ s.pwr.req = none ∧ s.line.change = none ∧ st = PState.run ∧ to_ =
    PState.idle) ∧ (∃ (target : Byte) (st to_ : PState) (s : State), admitted 513 s = .accept ∧ codeState (target.toNat) =
    some to_ ∧ s.pwr.phase = .steady st ∧ s.pwr.req = none ∧ s.line.change = none ∧ st = PState.run ∧ to_ = PState.watch ∧
    s.aon.coppice < 4) ∧ (∃ (target : Byte) (to_ : PState) (s : State), admitted 513 s = .accept ∧ codeState (target.toNat) =
    some to_ ∧ inTransition s = true) ∧ (∃ (target : Byte) (s : State), admitted 513 s = .accept ∧ codeState (target.toNat) =
    none) ∧ (∃ (s : State), admitted 514 s = .accept) ∧ (∃ (domains : Byte) (s : State), admitted 515 s = .accept ∧ domains
    &&& 195 = 0 ∧ 3 ≤ s.aon.coppice) ∧ (∃ (domains : Byte) (s : State), admitted 515 s = .accept ∧ domains &&& 195 = 0 ∧
    s.aon.coppice < 3) ∧ (∃ (period : Half) (flags : Byte) (s : State), admitted 516 s = .accept ∧ flags &&& 248 = 0 ∧ (period
    = 0 ∨ 256 ≤ period.toNat)) :=
  ⟨⟨4, .run, .run, liveSt, by decide +kernel⟩,
   ⟨2, .run, .sleep, liveSt, by decide +kernel⟩,
   ⟨3, .run, .idle, liveSt, by decide +kernel⟩,
   ⟨5, .run, .watch, liveSt, by decide +kernel⟩,
   ⟨4, .run, inPhase (.exit .sleep 1) runSt, by decide +kernel⟩,
   ⟨7, liveSt, by decide +kernel⟩,
   ⟨liveSt, by decide +kernel⟩,
   ⟨0, { liveSt with aon := { coppice := 3 } }, by decide +kernel⟩,
   ⟨0, liveSt, by decide +kernel⟩,
   ⟨0, 0, liveSt, by decide +kernel⟩⟩

theorem witness_StepKeepsMemories : ∃ (s t : State), memoriesWf s = true ∧ step s = Host.Outcome.next t :=
  ⟨State.reset, clockTick State.reset, by decide +kernel, rfl⟩

/-! ### The coding of the line and the lanes, and the contact map -/

/-- R151: the frame's first pilot, the first data symbol, and the last symbol. -/
theorem test_symbolUse :
    symbolUse 511 = .training 511 ∧ symbolUse 512 = .pilot 0 ∧ symbolUse 513 = .data 0 ∧
      symbolUse 65472 = .pilot 1015 ∧ symbolUse 65535 = .data 64007 := by decide

/-- R180's example: K = 13,821 makes 61 sub-blocks of 216 bits and three of 215. -/
theorem test_subBlocks :
    dmBits 22013 = 13821 ∧ subBlockBits 13821 60 = 216 ∧ subBlockBits 13821 61 = 215 := by decide

/-- R179 by hand: of two 64QAM amplitudes the four of least energy are 11, 13, 31, 33, in this order. -/
theorem test_shape : shape 1 2 [true, false] = [3, 1] ∧ unshape 1 2 [3, 1] = [true, false] := by decide

/-- R204: 16 codewords of type B in each run of 23. -/
theorem test_typeB : ((List.range 23).filter isTypeB).length = 16 := by decide

/-- R208: the minimal polynomial of α is the field polynomial. -/
theorem test_minimalPoly : minimalPoly 2 = 0x1002D := by decide +kernel

/-- R289: MARK's levels at PAM4. -/
theorem test_mark :
    pamSymbols (msbBits 32 0x78C6936C) = [1, 2, 3, 0, 2, 0, 1, 3, 3, 1, 0, 2, 1, 3, 2, 0] := by decide

/-- R408: 64, 43 and 36 signal contacts; R409's example of HL5. -/
theorem test_contacts :
    signalContacts 1 16 = 64 ∧ signalContacts 17 24 = 43 ∧ signalContacts 25 40 = 36 ∧
      contactAt .G 6 = .lane 5 false false ∧ contactAt .T 6 = .lane 5 true true := by decide

end

end Sys2Proof.Tests
end

section
/-! The management window's queue heads and its fault register (R429, R441): what accesses, interrupts and waiting responses
leave of them, then O7 and O9. -/
namespace Sys2Proof.Machine

open Sys2Proof

/-! ### Accesses -/

/-- R41: while the window answers, every offset of it does, over both links. -/
theorem answers_of_windowUp (link : Link) (a : Nat) {s : State} (h : windowUp s = true) : answers link a s = true := by
  cases link with
  | pcie => exact h
  | spi =>
    have hv : s.pins.vsbValid = true := by
      simp only [windowUp, Bool.and_eq_true] at h
      obtain ⟨⟨⟨hvsb, -⟩, -⟩, -⟩ := h
      exact hvsb
    simp [answers, hv, h]

@[simp] theorem accessed_hif (link : Link) (s : State) : (accessed link s).hif = s.hif := by cases link <;> rfl

@[simp] theorem accessed_aon (link : Link) (s : State) : (accessed link s).aon = s.aon := by cases link <;> rfl

@[simp] theorem accessed_q (link : Link) (s : State) : (accessed link s).q = s.q := by cases link <;> rfl

theorem exec_nqHeadWrite (link : Link) (v : Word) {s : State} (h : answers link 0x03C s = true) :
    exec (.nqHeadWrite link v) s = .next (accessed link (moveNqHead v s)) := by
  simp [exec, execNqHeadWrite, h]

theorem exec_rqHeadWrite (link : Link) (v : Word) {s : State} (h : answers link 0x034 s = true) :
    exec (.rqHeadWrite link v) s = .next (accessed link (moveRqHead v s)) := by
  simp [exec, execRqHeadWrite, h]

theorem exec_aonFaultClear (link : Link) (v : Word) {s : State} (h : answers link 0x104 s = true) :
    exec (.aonFaultClear link v) s = .next (accessed link (clearFault v s)) := by
  simp [exec, execAonFaultClear, h]

/-! ### Interrupts write neither causes nor queue heads -/

@[simp] theorem sendMsix_irqStatus (v : BitVec 2) (h : Hif) : (sendMsix v h).irqStatus = h.irqStatus := by
  unfold sendMsix
  split
  · split <;> rfl
  · rfl

@[simp] theorem sendMsix_rqHead (v : BitVec 2) (h : Hif) : (sendMsix v h).rqHead = h.rqHead := by
  unfold sendMsix
  split
  · split <;> rfl
  · rfl

@[simp] theorem raiseNew_irqStatus (old h : Hif) : (raiseNew old h).irqStatus = h.irqStatus := by
  simp only [raiseNew, apply_ite Hif.irqStatus, sendMsix_irqStatus, ite_self]

@[simp] theorem raiseNew_rqHead (old h : Hif) : (raiseNew old h).rqHead = h.rqHead := by
  simp only [raiseNew, apply_ite Hif.rqHead, sendMsix_rqHead, ite_self]

@[simp] theorem setCause_irqStatus (c : BitVec 6) (s : State) : (setCause c s).hif.irqStatus = s.hif.irqStatus ||| c :=
  raiseNew_irqStatus _ _

@[simp] theorem rqPut_rqHead (tag : Half) (bs : List Byte) (s : State) : (rqPut tag bs s).hif.rqHead = s.hif.rqHead :=
  raiseNew_rqHead _ _

/-- R57: only the host moves the head; responses that enter the ring leave it. -/
theorem drainResponses_rqHead : ∀ (n : Nat) (s : State), (drainResponses n s).hif.rqHead = s.hif.rqHead
  | 0, _ => rfl
  | n + 1, s => by
    unfold drainResponses
    split
    · rfl
    · split
      · rw [drainResponses_rqHead n, rqPut_rqHead]
        rfl
      · rfl

/-! ### The heads (R429) -/

theorem headMoves_iff (m old new tail : Nat) :
    headMoves m old new tail = true ↔ (new + m - old) % m ≤ (tail + m - old) % m := decide_eq_true_iff

theorem moveNqHead_of_le {v : Word} {s : State}
    (h : (v.toNat % 512 + 512 - s.hif.nqHead.toNat) % 512 ≤ (s.hif.nqTail.toNat + 512 - s.hif.nqHead.toNat) % 512) :
    moveNqHead v s = { s with hif := { s.hif with nqHead := BitVec.ofNat 9 v.toNat } } :=
  if_pos ((headMoves_iff ..).2 h)

theorem moveNqHead_of_lt {v : Word} {s : State}
    (h : (s.hif.nqTail.toNat + 512 - s.hif.nqHead.toNat) % 512 < (v.toNat % 512 + 512 - s.hif.nqHead.toNat) % 512) :
    moveNqHead v s = s :=
  if_neg fun hm => Nat.not_le_of_lt h ((headMoves_iff ..).1 hm)

/-- The state once the host has consumed responses up to a new head, before responses that wait enter the ring (R58). -/
def consumedTo (new : BitVec 8) (s : State) : State :=
  { s with
    hif := { s.hif with rqHead := new },
    q := { s.q with
      rqTags := (consume (new - s.hif.rqHead).toNat s.q.rqTags s.q.outst).1,
      outst := (consume (new - s.hif.rqHead).toNat s.q.rqTags s.q.outst).2 } }

theorem moveRqHead_of_le {v : Word} {s : State}
    (h : (v.toNat % 256 + 256 - s.hif.rqHead.toNat) % 256 ≤ (s.hif.rqTail.toNat + 256 - s.hif.rqHead.toNat) % 256) :
    moveRqHead v s = drainResponses s.q.rspWait.length (consumedTo (BitVec.ofNat 8 v.toNat) s) :=
  if_pos ((headMoves_iff ..).2 h)

theorem moveRqHead_of_lt {v : Word} {s : State}
    (h : (s.hif.rqTail.toNat + 256 - s.hif.rqHead.toNat) % 256 < (v.toNat % 256 + 256 - s.hif.rqHead.toNat) % 256) :
    moveRqHead v s = s :=
  if_neg fun hm => Nat.not_le_of_lt h ((headMoves_iff ..).1 hm)

/-- Settles O7: each head moves exactly under R429's bound, and the responses that then enter the ring of responses leave its
head where the host put it. -/
theorem queueHeadWrites : Obligations.QueueHeadWrites := by
  unfold Obligations.QueueHeadWrites
  intro link v s hup
  rw [exec_nqHeadWrite link v (answers_of_windowUp link _ hup), exec_rqHeadWrite link v (answers_of_windowUp link _ hup)]
  refine ⟨fun h => ?_, fun h => ?_, fun h => ?_, fun h => ?_⟩
  · rw [moveNqHead_of_le h]
  · rw [moveNqHead_of_lt h]
  · rw [moveRqHead_of_le h]
    refine ⟨_, rfl, ?_, fun hw => ?_⟩
    · rw [accessed_hif, drainResponses_rqHead]
      rfl
    · rw [hw, accessed_q]
      rfl
  · rw [moveRqHead_of_lt h]

/-! ### The fault register (R53, R441) -/

theorem clearFault_of_not_stands {v : Word} {s : State} (hw : v.getLsbD 31 = true) (hv : s.aon.valid = true)
    (h : faultStands s = false) : clearFault v s = { s with aon := { s.aon with valid := false, count := 0 } } := by
  simp [clearFault, hw, hv, h]

theorem clearFault_of_stands {v : Word} {s : State} (hw : v.getLsbD 31 = true) (hv : s.aon.valid = true)
    (h : faultStands s = true) : clearFault v s = setCause causeFault { s with aon := { s.aon with count := 1 } } := by
  simp [clearFault, hw, hv, h]

/-- R441's table: its rows name different codes, so the code alone picks the row that decides. -/
theorem faultStands_iff (s : State) :
    faultStands s = true ↔
      (s.aon.code = 0x01 ∧ s.pwr.failed.getLsbD s.aon.source.toNat = true) ∨ (s.aon.code = 0x03 ∧ s.aon.coppice = 5) ∨
        (s.aon.code = 0x04 ∧ s.pwr.powered.getLsbD 1 = true ∧ 8500 ≤ s.pins.caseTemp) ∨
        (s.aon.code = 0x05 ∧ s.hif.recovery = true) := by
  unfold faultStands
  split
  case isTrue h1 => simp [h1]
  case isFalse h1 =>
    split
    case isTrue h3 => simp [h3]
    case isFalse h3 =>
      split
      case isTrue h4 => simp [h4, domIn, domCode]
      case isFalse h4 =>
        split
        case isTrue h5 => simp [h5]
        case isFalse h5 => simp only [h1, h3, h4, h5, false_and, or_self, Bool.false_eq_true]

/-- Settles O9: a fault that stands sets FAULT again and leaves VALID, CODE and SOURCE; one that does not is cleared with its
count. -/
theorem faultClear : Obligations.FaultClear := by
  unfold Obligations.FaultClear
  intro link v s ha hv hw
  rw [exec_aonFaultClear link v ha]
  refine ⟨fun h => ?_, fun h => ?_, faultStands_iff s⟩
  · rw [clearFault_of_not_stands hw hv h]
  · rw [clearFault_of_stands hw hv h]
    refine ⟨_, rfl, by simp, ?_⟩
    rw [accessed_hif, setCause_irqStatus, BitVec.getLsbD_or]
    simp [causeFault]

end Sys2Proof.Machine
end

section
/-! The schedule of the sedge tasks (R23, R106, R107): what a change of one task leaves of the task table, when a start is due,
which deficits are written off, then O20. -/
namespace Sys2Proof.Machine

open Sys2Proof

/-! ### The task table -/

theorem task_of_taskAt {t : Task} {x : TaskSt} {s : State} (h : taskAt t s = some x) : x.task = t :=
  of_decide_eq_true (List.find?_some (p := fun y : TaskSt => decide (y.task = t)) h)

/-- A change that keeps the names of the tasks keeps the entry that each task is found at. -/
theorem taskAt_modTask (t v : Task) {f : TaskSt → TaskSt} (s : State) (hf : ∀ x, (f x).task = x.task) :
    taskAt v (modTask t f s) = (taskAt v s).map fun x => if x.task = t then f x else x := by
  have htask : ∀ x : TaskSt, (if x.task = t then f x else x).task = x.task := fun x => by
    split
    · exact hf x
    · rfl
  simp only [taskAt, modTask, List.find?_map, Function.comp_def, htask]

theorem taskAt_modTask_same {t : Task} {f : TaskSt → TaskSt} {x : TaskSt} {s : State} (hf : ∀ y, (f y).task = y.task)
    (h : taskAt t s = some x) : taskAt t (modTask t f s) = some (f x) := by
  rw [taskAt_modTask t t s hf, h, Option.map_some, if_pos (task_of_taskAt h)]

theorem taskAt_modTask_of_ne {t v : Task} {f : TaskSt → TaskSt} (s : State) (hf : ∀ y, (f y).task = y.task) (hv : v ≠ t) :
    taskAt v (modTask t f s) = taskAt v s := by
  rw [taskAt_modTask t v s hf]
  cases h : taskAt v s with
  | none => rfl
  | some x => rw [Option.map_some, if_neg (task_of_taskAt h ▸ hv)]

/-! ### Completion (R106) -/

/-- What SEDGE_TASK_COMPLETE makes of the entry of its task: only a task that runs completes. -/
def taskCompleted (sf : Sf) (x : TaskSt) : TaskSt := if x.running && !x.halted then taskEnd sf x else x

@[simp] theorem taskCompleted_task (sf : Sf) (x : TaskSt) : (taskCompleted sf x).task = x.task := by
  unfold taskCompleted
  split <;> rfl

theorem taskCompleted_of_running {x : TaskSt} (sf : Sf) (hr : x.running = true) (hh : x.halted = false) :
    taskCompleted sf x = taskEnd sf x := by
  simp [taskCompleted, hr, hh]

theorem exec_sedgeTaskComplete (t : Task) {s : State} (h : s.dbg.frozen = false) :
    exec (.sedgeTaskComplete t) s = .next (modTask t (taskCompleted s.time.lts.sf) s) := by
  simp only [exec, execSedgeTaskComplete, h]
  rfl

/-! ### Start (R23) -/

theorem exec_sedgeTaskStart_of_sym_ne (t : Task) (w : TaskInput) {s : State} (h : s.time.lts.sym ≠ 0) :
    exec (.sedgeTaskStart t w) s = .next s := by
  simp only [exec, execSedgeTaskStart, h, decide_false, Bool.and_false, Bool.false_and, Bool.false_eq_true, if_false]
  split <;> rfl

/-- At a boundary of a state that runs tasks, the start of an idle task whose engines run turns on its next start alone. -/
theorem exec_sedgeTaskStart (t : Task) (w : TaskInput) {x : TaskSt} {s : State} (hb : atBoundary s = true)
    (hrun : inRun s = true) (ht : taskAt t s = some x) (hr : x.running = false) (hh : x.halted = false)
    (hheld : taskHeld t s = false) :
    exec (.sedgeTaskStart t w) s = .next (if x.next.toNat ≤ s.time.lts.sf.toNat then
      taskWork t w (modTask t (fun _ => taskBegin s.time.lts.sf x) s) else s) := by
  obtain ⟨htick, hsym⟩ : ticking s = true ∧ s.time.lts.sym = 0 := by simpa [atBoundary] using hb
  simp [exec, execSedgeTaskStart, ht, htick, hsym, hrun, hr, hh, hheld]

/-! ### Deficits (R107) -/

/-- R107: the deficit of a start at a boundary, against the task's nominal start. -/
def taskDeficit (b : Sf) (x : TaskSt) : Nat := b.toNat - (x.anchor.toNat + x.n * x.period)

/-- R107: a start at a boundary writes its deficit off. -/
def WritesOff (b : Sf) (x : TaskSt) : Prop :=
  (x.period = 1 ∧ x.anchor.toNat + x.n < b.toNat) ∨
    (x.period ≠ 1 ∧ x.anchor.toNat + x.n * x.period + 4 * x.period < b.toNat)

theorem writesOff_iff (b : Sf) (x : TaskSt) :
    WritesOff b x ↔ if x.period = 1 then 0 < taskDeficit b x else 4 * x.period < taskDeficit b x := by
  unfold WritesOff taskDeficit
  split
  case isTrue hp => simp only [hp, true_and, ne_eq, not_true_eq_false, false_and, or_false]; omega
  case isFalse hp => simp only [hp, false_and, ne_eq, not_false_eq_true, true_and, false_or]; omega

theorem taskBegin_eq (b : Sf) (x : TaskSt) :
    taskBegin b x = if (if x.period = 1 then 0 < taskDeficit b x else 4 * x.period < taskDeficit b x) then
      { x with skipped := addSkipped (taskDeficit b x / x.period) x.skipped, anchor := b, n := 1, start := b, running := true }
    else { x with n := x.n + 1, start := b, running := true } := by
  by_cases hp : x.period = 1 <;> simp [taskBegin, taskDeficit, hp]

theorem taskBegin_of_writesOff {b : Sf} {x : TaskSt} (h : WritesOff b x) :
    taskBegin b x = { x with
      skipped := addSkipped (taskDeficit b x / x.period) x.skipped, anchor := b, n := 1, start := b, running := true } := by
  rw [taskBegin_eq, if_pos ((writesOff_iff b x).1 h)]

theorem taskBegin_of_not_writesOff {b : Sf} {x : TaskSt} (h : ¬ WritesOff b x) :
    taskBegin b x = { x with n := x.n + 1, start := b, running := true } := by
  rw [taskBegin_eq, if_neg (mt (writesOff_iff b x).2 h)]

theorem not_writesOff_of_le {b : Sf} {x : TaskSt}
    (h : (x.period = 1 ∧ b.toNat ≤ x.anchor.toNat + x.n) ∨
      (x.period ≠ 1 ∧ b.toNat ≤ x.anchor.toNat + x.n * x.period + 4 * x.period)) : ¬ WritesOff b x := by
  unfold WritesOff
  omega

/-- Settles O20: completion rewrites only its task's entry, a start at a boundary turns on the task's next start, and a start
re-anchors its task exactly when it writes its deficit off. -/
theorem taskSchedule : Obligations.TaskSchedule := by
  unfold Obligations.TaskSchedule
  refine ⟨fun t x s hf ht hr hh => ?_, fun t w x s hb hrun ht hr hh hheld => ?_,
    fun t w s hsym => exec_sedgeTaskStart_of_sym_ne t w hsym,
    fun b x => ⟨taskBegin_of_writesOff, fun h => taskBegin_of_not_writesOff (not_writesOff_of_le h)⟩⟩
  · refine ⟨_, exec_sedgeTaskComplete t hf, ?_, fun v => taskAt_modTask_of_ne s (taskCompleted_task _), rfl⟩
    rw [taskAt_modTask_same (taskCompleted_task _) ht, taskCompleted_of_running _ hr hh]
    rfl
  · rw [exec_sedgeTaskStart t w hb hrun ht hr hh hheld]
    exact ⟨fun h => by rw [if_pos h], fun h => by rw [if_neg (Nat.not_le_of_lt h)]⟩

end Sys2Proof.Machine
end

section
/-! The memories' canonical form (O60): every operation of the model keeps it, chapter by chapter in the order of the model; then
every command, and every step. -/
namespace Sys2Proof.Machine

open Sys2Proof

/-! ### The three memories of a state -/

theorem win_wf {s : State} (h : memoriesWf s = true) : memWf 0 s.win = true := by
  simp only [memoriesWf, Bool.and_eq_true] at h
  obtain ⟨⟨hw, -⟩, -⟩ := h
  exact hw

theorem store_wf {s : State} (h : memoriesWf s = true) : memWf 0 s.hs.mem = true := by
  simp only [memoriesWf, Bool.and_eq_true] at h
  obtain ⟨⟨-, hm⟩, -⟩ := h
  exact hm

theorem flash_wf {s : State} (h : memoriesWf s = true) : memWf 0xFF s.flash.mem = true := by
  simp only [memoriesWf, Bool.and_eq_true] at h
  obtain ⟨-, hf⟩ := h
  exact hf

/-- Only the window, the store's bytes and the flash's bytes of a state count. -/
theorem memoriesWf_mk {pending ident time pins hif aon win q reply pwr line fe eq tx fec tf tribs ciph mm hl ref hs cal mon health
    dbg flash cv sedge} (hw : memWf 0 win = true) (hm : memWf 0 hs.mem = true) (hf : memWf 0xFF flash.mem = true) :
    memoriesWf ⟨pending, ident, time, pins, hif, aon, win, q, reply, pwr, line, fe, eq, tx, fec, tf, tribs, ciph, mm, hl, ref, hs,
      cal, mon, health, dbg, flash, cv, sedge⟩ = true := by
  simp only [memoriesWf, Bool.and_eq_true]
  exact ⟨⟨hw, hm⟩, hf⟩

/-- A state that takes over a flash with the same bytes keeps the form. -/
theorem flashPut_wf {f : Flash} {s : State} (hf : f.mem = s.flash.mem) (hs : memoriesWf s = true) :
    memoriesWf { s with flash := f } = true := memoriesWf_mk (win_wf hs) (store_wf hs) (hf ▸ flash_wf hs)

theorem ite_wf {c : Prop} [Decidable c] {a b : State} (ha : memoriesWf a = true) (hb : memoriesWf b = true) :
    memoriesWf (if c then a else b) = true := by
  split <;> assumption

/-- What every turn of a loop keeps, the loop keeps. -/
theorem foldl_wf {α : Type} {f : State → α → State} (hf : ∀ s x, memoriesWf s = true → memoriesWf (f s x) = true) :
    ∀ (l : List α) {s : State}, memoriesWf s = true → memoriesWf (l.foldl f s) = true
  | [], _, hs => hs
  | x :: t, _, hs => foldl_wf hf t (hf _ x hs)

/-! ### The flash's bookkeeping writes none of its bytes -/

theorem dated_mem (b now : Nat) (f : Flash) : (dated b now f).mem = f.mem := by
  unfold dated
  split <;> rfl

theorem exchange_mem (a b : Nat) (f : Flash) : (exchange a b f).mem = f.mem := by
  unfold exchange
  split <;> rfl

theorem erase_mem (b : Nat) (f : Flash) : (erase b f).1.mem = f.mem := by
  unfold erase
  dsimp only
  split
  · rfl
  · split
    · exact exchange_mem _ _ _
    · rfl

theorem foldl_mem {α : Type} {g : Flash → α → Flash} (l : List α) (f : Flash) (hg : ∀ f x, (g f x).mem = f.mem) :
    (l.foldl g f).mem = f.mem := by
  induction l generalizing f with
  | nil => rfl
  | cons x t ih => exact (ih (g f x)).trans (hg f x)

theorem readBlocks_mem (b n : Nat) (f : Flash) : (readBlocks b n f).mem = f.mem := foldl_mem _ f fun _ _ => rfl

theorem readBlocksEach_mem (bs : List Nat) (f : Flash) : (bs.foldl (fun f b => readBlocks b 1 f) f).mem = f.mem :=
  foldl_mem bs f fun f b => readBlocks_mem b 1 f

theorem readRange_mem (r offset len : Nat) (f : Flash) : (readRange r offset len f).mem = f.mem := by
  unfold readRange
  split
  · rfl
  · exact readBlocks_mem _ _ f

/-! ### What a command answers -/

/-- A command that answers a next state answers one in canonical form. -/
def outWf (o : Out) : Bool :=
  match o with
  | .next t => memoriesWf t
  | _ => true

theorem outWf_next {t : State} (h : memoriesWf t = true) : outWf (.next t) = true := h

theorem outWf_fault (f : Fault) : outWf (.fault f) = true := rfl

theorem endHolds_wf {s : State} (hs : memoriesWf s = true) : memoriesWf (endHolds s) = true := hs

theorem withIrq_wf (f : Hif → Hif) {s : State} (hs : memoriesWf s = true) : memoriesWf (withIrq f s) = true := hs

theorem setBusy_wf {s : State} (hs : memoriesWf s = true) : memoriesWf (setBusy s) = true := hs

theorem flushLog_wf {s : State} (hs : memoriesWf s = true) : memoriesWf (flushLog s) = true := flushEntries_wf _ hs

theorem guarded_wf (op : Nat) (h : Hdr) (fails : List (Bool × St)) {body : State → State} {s : State} (hs : memoriesWf s = true)
    (hb : memoriesWf (body s) = true) : memoriesWf (guarded op h fails body s) = true := by
  unfold guarded
  split
  · exact refuse_wf _ _ _ hs
  · exact hb

theorem command_wf (op : Nat) (h : Hdr) {body : State → State} {s : State} (hs : memoriesWf s = true)
    (hb : memoriesWf (body s) = true) : outWf (command op h s body) = true := by
  refine outWf_next ?_
  split
  · exact hs
  · exact refuse_wf _ _ _ hs
  · exact hb

theorem query_wf (op : Nat) (h : Hdr) {fs : List (Nat × List Byte)} {s : State} (hs : memoriesWf s = true) :
    outWf (query op h s fs) = true := command_wf _ _ hs (reply_wf _ _ _ hs)

theorem answerLate_wf (late : Bool) {f : State → State} {s : State} (hs : ∀ q, memoriesWf (f { s with q := q }) = true) :
    memoriesWf (answerLate late f s) = true := hs _

/-! ### Ops -/

theorem freezeTrip_wf (t : FreezeTrig) {s : State} (hs : memoriesWf s = true) : memoriesWf (freezeTrip t s) = true := by
  unfold freezeTrip
  split <;> exact hs

/-! ### Chains -/

theorem refreshRawsAt_wf (t : Lts) {s : State} (hs : memoriesWf s = true) : memoriesWf (refreshRawsAt t s) = true := hs

theorem refreshRaws_wf {s : State} (hs : memoriesWf s = true) : memoriesWf (refreshRaws s) = true := hs

theorem txMoveAt_wf (t : Lts) (st : Opt) (reason : Nat) (quiet : Bool) {s : State} (hs : memoriesWf s = true) :
    memoriesWf (txMoveAt t st reason quiet s) = true := by
  grind [txMoveAt, notifyAt_wf, memoriesWf_mk, win_wf, store_wf, flash_wf]

theorem txMove_wf (st : Opt) (reason : Nat) (quiet : Bool) {s : State} (hs : memoriesWf s = true) :
    memoriesWf (txMove st reason quiet s) = true := txMoveAt_wf _ _ _ _ hs

theorem txAdvance_wf (reason : Nat) {s : State} (hs : memoriesWf s = true) : memoriesWf (txAdvance reason s) = true := by
  grind [txAdvance, txMove_wf, memoriesWf_mk, win_wf, store_wf, flash_wf]

theorem txDark_wf (reason : Nat) {s : State} (hs : memoriesWf s = true) :
    memoriesWf (txDark reason s) = true := ite_wf hs (txMove_wf _ _ _ hs)

theorem txNull_wf (reason : Nat) {s : State} (hs : memoriesWf s = true) :
    memoriesWf (txNull reason s) = true := ite_wf (txMove_wf _ _ _ hs) hs

theorem txBlank_wf (reason : Nat) (quiet : Bool) {s : State} (hs : memoriesWf s = true) :
    memoriesWf (txBlank reason quiet s) = true := by
  grind [txBlank, txMove_wf, memoriesWf_mk, win_wf, store_wf, flash_wf]

theorem fecEvent_wf (st cause : Nat) {s : State} (hs : memoriesWf s = true) :
    memoriesWf (fecEvent st cause s) = true := ite_wf (notifyAt_wf _ _ _ _ _ hs) hs

theorem framerClose_wf (cause : Nat) (t : Lts) {s : State} (hs : memoriesWf s = true) :
    memoriesWf (framerClose cause t s) = true := hs

theorem fecDrop_wf (st cause : Nat) {s : State} (hs : memoriesWf s = true) :
    memoriesWf (fecDrop st cause s) = true := ite_wf (fecEvent_wf _ _ hs) hs

theorem replaceAll_wf {s : State} (hs : memoriesWf s = true) : memoriesWf (replaceAll s) = true := hs

theorem eqEvent_wf (old new reason : Nat) (warm : Bool) {s : State} (hs : memoriesWf s = true) :
    memoriesWf (eqEvent old new reason warm s) = true := ite_wf hs (notifyAt_wf _ _ _ _ _ hs)

theorem exclude_wf (a b : Nat) {s : State} (hs : memoriesWf s = true) : memoriesWf (exclude a b s) = true := hs

theorem eqMove_wf (new reason : Nat) (warm : Bool) {s : State} (hs : memoriesWf s = true) :
    memoriesWf (eqMove new reason warm s) = true := by
  grind [eqMove, eqEvent_wf, fecDrop_wf, freezeTrip_wf, refreshRaws_wf, memoriesWf_mk, win_wf, store_wf, flash_wf]

theorem eqToA0_wf (reason : Nat) {s : State} (hs : memoriesWf s = true) :
    memoriesWf (eqToA0 reason s) = true := ite_wf hs (eqMove_wf _ _ _ hs)

theorem stopRx_wf (cause : Nat) {s : State} (hs : memoriesWf s = true) :
    memoriesWf (stopRx cause s) = true := ite_wf (eqToA0_wf _ (fecDrop_wf _ _ hs)) hs

theorem coefEvent_wf (set : Nat) (was now : Bool) (stages : Nat) {s : State} (hs : memoriesWf s = true) :
    memoriesWf (coefEvent set was now stages s) = true := ite_wf (notify_wf _ _ _ _ hs) hs

theorem startRx_wf (rate cause : Nat) {s : State} (hs : memoriesWf s = true) : memoriesWf (startRx rate cause s) = true := by
  grind [startRx, coefEvent_wf, exclude_wf, refreshRaws_wf, memoriesWf_mk, win_wf, store_wf, flash_wf]

theorem stopTx_wf {s : State} (hs : memoriesWf s = true) : memoriesWf (stopTx s) = true := hs

theorem framesFrom_wf (sf : Sf) {s : State} (hs : memoriesWf s = true) : memoriesWf (framesFrom sf s) = true := hs

theorem startTx_wf (sf : Sf) {s : State} (hs : memoriesWf s = true) : memoriesWf (startTx sf s) = true := hs

theorem histPartial_wf {s : State} (hs : memoriesWf s = true) : memoriesWf (histPartial s) = true := hs

theorem senseReset_wf {s : State} (hs : memoriesWf s = true) : memoriesWf (senseReset s) = true := hs

theorem incomplete_wf (cause : Nat) {s : State} (hs : memoriesWf s = true) : memoriesWf (incomplete cause s) = true := hs

/-! ### FrontEnd -/

theorem execLosCompare_wf (power : Int) {s : State} (hs : memoriesWf s = true) : outWf (execLosCompare power s) = true := by
  unfold execLosCompare
  refine outWf_next ?_
  split <;> exact hs

theorem setChan_wf (conv : Conv) (ch : BitVec 2) (c : Chan) {s : State} (hs : memoriesWf s = true) :
    memoriesWf (setChan conv ch c s) = true := by
  cases conv
  all_goals exact hs

theorem sliceEvent_wf (conv : Conv) (ch : BitVec 2) (slice spares : Nat) (subst : Bool) {s : State} (hs : memoriesWf s = true) :
    memoriesWf (sliceEvent conv ch slice spares subst s) = true := by
  cases conv
  all_goals exact notify_wf _ _ _ _ hs

theorem execSliceFailure_wf (conv : Conv) (ch : BitVec 2) (slice : Byte) {s : State} (hs : memoriesWf s = true) :
    outWf (execSliceFailure conv ch slice s) = true := by
  grind [execSliceFailure, logEntry_wf, setChan_wf, sliceEvent_wf, outWf_next, outWf_fault, memoriesWf_mk, win_wf, store_wf,
    flash_wf]

theorem disturb_wf (t : Lts) (n : Nat) {s : State} (hs : memoriesWf s = true) : memoriesWf (disturb t n s) = true := hs

theorem capMark_wf (bit : Nat) {s : State} (hs : memoriesWf s = true) : memoriesWf (capMark bit s) = true := by
  unfold capMark
  split <;> exact hs

theorem overrangeEvent_wf (ch : BitVec 2) (t : Lts) (n : Nat) {s : State} (hs : memoriesWf s = true) :
    memoriesWf (overrangeEvent ch t n s) = true := by
  grind [overrangeEvent, notify_wf, notifyAt_wf, memoriesWf_mk, win_wf, store_wf, flash_wf]

theorem capBurst_wf (ch : BitVec 2) (t : Lts) (samples : Nat) {s : State} (hs : memoriesWf s = true) :
    memoriesWf (capBurst ch t samples s) = true := by
  unfold capBurst
  split <;> exact hs

theorem execAdcOverrange_wf (ch : BitVec 2) (_high : Bool) (samples : Nat) (rx : RxAt) {s : State} (hs : memoriesWf s = true) :
    outWf (execAdcOverrange ch _high samples rx s) = true := by
  grind [execAdcOverrange, capBurst_wf, capMark_wf, disturb_wf, overrangeEvent_wf, outWf_next, outWf_fault, memoriesWf_mk,
    win_wf, store_wf, flash_wf]

theorem execGainStepApply_wf (rx : RxAt) {s : State} (hs : memoriesWf s = true) :
    outWf (execGainStepApply rx s) = true := outWf_next (ite_wf (capMark_wf _ hs) hs)

theorem agcPeriod_wf (rmsX rmsY : Nat) {s : State} (hs : memoriesWf s = true) :
    memoriesWf (agcPeriod rmsX rmsY s) = true := ite_wf hs hs

theorem timingMove_wf (ppb : Int) (step : Word) {s : State} (hs : memoriesWf s = true) :
    memoriesWf (timingMove ppb step s) = true := by
  grind [timingMove, memoriesWf_mk, win_wf, store_wf, flash_wf]

theorem execFeConfig_wf (h : Hdr) (mode : Byte) (xGain yGain : Half) (rms : Byte) (ovrStep losThr : Half) (flags : Byte) {s :
    State} (hs : memoriesWf s = true) :
    outWf (execFeConfig h mode xGain yGain rms ovrStep losThr flags s) = true :=
  command_wf _ _ hs (guarded_wf _ _ _ hs (done_wf _ _ hs))

theorem execFeStatus_wf (h : Hdr) (flags : Byte) {s : State} (hs : memoriesWf s = true) :
    outWf (execFeStatus h flags s) = true := by
  grind [execFeStatus, command_wf, guarded_wf, reply_wf, outWf_next, outWf_fault, memoriesWf_mk, win_wf, store_wf, flash_wf]

theorem execFeSlices_wf (h : Hdr) (ch : Byte) {s : State} (hs : memoriesWf s = true) :
    outWf (execFeSlices h ch s) = true := command_wf _ _ hs (guarded_wf _ _ _ hs (respond_wf _ _ _ _ _ hs))

theorem storeCoef_wf (set : Byte) (vs : Option (List Int)) {s : State} (hs : memoriesWf s = true) :
    memoriesWf (storeCoef set vs s) = true := by
  unfold storeCoef
  split <;> exact hs

theorem execFeCoefSet_wf (h : Hdr) (set action : Byte) (check : Word) {s : State} (hs : memoriesWf s = true) :
    outWf (execFeCoefSet h set action check s) = true := by
  refine command_wf _ _ hs (guarded_wf _ _ _ hs ?_)
  generalize i16s (bufData h s) = vs
  dsimp only
  split
  · exact reply_wf _ _ _ (storeCoef_wf _ _ hs)
  · split
    · exact reply_wf _ _ _ (storeCoef_wf _ _ hs)
    · split
      · exact reply_wf _ _ _ (storeCoef_wf _ _ hs)
      · exact stopRx_wf 3 (storeCoef_wf _ _ hs)

/-! ### Equaliser -/

theorem execAcqEntry_wf {s : State} (hs : memoriesWf s = true) : outWf (execAcqEntry s) = true := by
  grind [execAcqEntry, eqMove_wf, outWf_next, outWf_fault, memoriesWf_mk, win_wf, store_wf, flash_wf]

theorem execAcqStateComplete_wf (cands : List Int) (cfoKhz : Int) {s : State} (hs : memoriesWf s = true) :
    outWf (execAcqStateComplete cands cfoKhz s) = true := by
  grind [execAcqStateComplete, eqMove_wf, senseReset_wf, outWf_next, outWf_fault, memoriesWf_mk, win_wf, store_wf, flash_wf]

theorem passFails_wf (st reason : Nat) {s : State} (hs : memoriesWf s = true) : memoriesWf (passFails st reason s) = true := by
  grind [passFails, eqMove_wf, notify_wf, memoriesWf_mk, win_wf, store_wf, flash_wf]

theorem execAcqStateTimeout_wf {s : State} (hs : memoriesWf s = true) : outWf (execAcqStateTimeout s) = true := by
  grind [execAcqStateTimeout, eqMove_wf, passFails_wf, outWf_next, outWf_fault, memoriesWf_mk, win_wf, store_wf, flash_wf]

theorem execAcqReturnA0_wf (cause : A0Cause) {s : State} (hs : memoriesWf s = true) :
    outWf (execAcqReturnA0 cause s) = true :=
  outWf_next (ite_wf (eqToA0_wf _ hs) hs)

theorem trainWord_wf (i : SenseIn) (rx : RxAt) {s : State} (hs : memoriesWf s = true) :
    memoriesWf (trainWord i rx s) = true := by
  unfold trainWord
  split <;> exact hs

theorem execTrackExit_wf {s : State} (hs : memoriesWf s = true) : outWf (execTrackExit s) = true := by
  grind [execTrackExit, eqMove_wf, outWf_next, outWf_fault, memoriesWf_mk, win_wf, store_wf, flash_wf]

theorem slipEvent_wf (src : Half) (noted : Option Sf) (n : Nat) (t : Lts) {mark : State → State} {s : State} (hs : memoriesWf s = true)
    (hm : memoriesWf (mark s) = true) : memoriesWf (slipEvent src noted n t mark s) = true := by
  unfold slipEvent
  split
  · split
    · exact notifyAt_wf _ _ _ _ _ hm
    · split
      · exact hs
      · exact ite_wf (notifyAt_wf _ _ _ _ _ hm) hs
  · exact hs

theorem eraseSlip_wf (polY : Bool) (w : Nat × Nat) {s : State} (hs : memoriesWf s = true) :
    memoriesWf (eraseSlip polY w s) = true := hs

theorem execCycleSlip_wf (polY : Bool) (r1 r2 : Int) (rx : RxAt) {s : State} (hs : memoriesWf s = true) :
    outWf (execCycleSlip polY r1 r2 rx s) = true := by
  grind [execCycleSlip, eraseSlip_wf, freezeTrip_wf, slipEvent_wf, outWf_next, outWf_fault, memoriesWf_mk, win_wf, store_wf,
    flash_wf]

theorem limitEvent_wf (which : Nat) (was now : Bool) {s : State} (hs : memoriesWf s = true) :
    memoriesWf (limitEvent which was now s) = true := ite_wf hs (notify_wf _ _ _ _ hs)

theorem eqEstimate_wf (v : Estimates) {s : State} (hs : memoriesWf s = true) : memoriesWf (eqEstimate v s) = true := by
  grind [eqEstimate, limitEvent_wf, memoriesWf_mk, win_wf, store_wf, flash_wf]

theorem eqAdapt_wf (v : Supervised) {s : State} (hs : memoriesWf s = true) :
    memoriesWf (eqAdapt v s) = true := ite_wf hs (ite_wf (timingMove_wf _ _ hs) hs)

theorem eqSupervise_wf (v : Supervised) {s : State} (hs : memoriesWf s = true) :
    memoriesWf (eqSupervise v s) = true := ite_wf hs (eqEstimate_wf _ (eqAdapt_wf _ hs))

theorem execEqConfig_wf (h : Hdr) (taps profile bw flags : Byte) (hint window : Word) (floor warmHold : Half) {s : State} (hs :
    memoriesWf s = true) :
    outWf (execEqConfig h taps profile bw flags hint window floor warmHold s) = true :=
  command_wf _ _ hs (guarded_wf _ _ _ hs (done_wf _ _ hs))

theorem execEqStatus_wf (h : Hdr) {s : State} (hs : memoriesWf s = true) : outWf (execEqStatus h s) = true := query_wf _ _ hs

theorem execEqEstimates_wf (h : Hdr) {s : State} (hs : memoriesWf s = true) :
    outWf (execEqEstimates h s) = true := query_wf _ _ hs

theorem execEqNlc_wf (h : Hdr) (mode : Byte) (scale : Half) {s : State} (hs : memoriesWf s = true) :
    outWf (execEqNlc h mode scale s) = true := command_wf _ _ hs (guarded_wf _ _ _ hs (reply_wf _ _ _ hs))

theorem reacquire_wf (warm : Bool) {s : State} (hs : memoriesWf s = true) : memoriesWf (reacquire warm s) = true := by
  grind [reacquire, eqMove_wf, memoriesWf_mk, win_wf, store_wf, flash_wf]

theorem execEqReacquire_wf (h : Hdr) (entry : Byte) {s : State} (hs : memoriesWf s = true) :
    outWf (execEqReacquire h entry s) = true := command_wf _ _ hs (guarded_wf _ _ _ hs (reply_wf _ _ _ (reacquire_wf _ hs)))

theorem execEqHold_wf (h : Hdr) (hold : Byte) {s : State} (hs : memoriesWf s = true) :
    outWf (execEqHold h hold s) = true := command_wf _ _ hs (guarded_wf _ _ _ hs (done_wf _ _ hs))

/-! ### Transmit -/

theorem laserMove_wf {s : State} (hs : memoriesWf s = true) : memoriesWf (laserMove s) = true := ite_wf hs hs

theorem tune_wf (grid fine : Int) {s : State} (hs : memoriesWf s = true) : memoriesWf (tune grid fine s).1 = true := by
  grind [tune, laserMove_wf, txMove_wf, txAdvance_wf, memoriesWf_mk, win_wf, store_wf, flash_wf]

theorem txLaserApply_wf (grid fine power : Half) (flags : Byte) {s : State} (hs : memoriesWf s = true) :
    memoriesWf (txLaserApply grid fine power flags s).1 = true := by
  grind [txLaserApply, tune_wf, memoriesWf_mk, win_wf, store_wf, flash_wf]

theorem execTxLaser_wf (h : Hdr) (grid fine power : Half) (flags : Byte) {s : State} (hs : memoriesWf s = true) :
    outWf (execTxLaser h grid fine power flags s) = true :=
  command_wf _ _ hs (guarded_wf _ _ _ hs (reply_wf _ _ _ (txLaserApply_wf _ _ _ _ hs)))

theorem txEnableApply_wf (request : Byte) {s : State} (hs : memoriesWf s = true) :
    memoriesWf (txEnableApply request s) = true := by
  grind [txEnableApply, txAdvance_wf, txBlank_wf, txDark_wf, txMove_wf, memoriesWf_mk, win_wf, store_wf, flash_wf]

theorem execTxEnable_wf (h : Hdr) (request : Byte) {s : State} (hs : memoriesWf s = true) :
    outWf (execTxEnable h request s) = true := command_wf _ _ hs (guarded_wf _ _ _ hs (reply_wf _ _ _ (txEnableApply_wf _ hs)))

theorem txShapingApply_wf (beta flags : Byte) (cd : Word) (scale : Half) (clip : Byte) {s : State} (hs : memoriesWf s = true) :
    memoriesWf (txShapingApply beta flags cd scale clip s) = true := hs

theorem execTxShaping_wf (h : Hdr) (beta action flags : Byte) (cd : Word) (scale : Half) (clip : Byte) {s : State} (hs :
    memoriesWf s = true) :
    outWf (execTxShaping h beta action flags cd scale clip s) = true := by
  grind [execTxShaping, command_wf, done_wf, guarded_wf, stopTx_wf, txNull_wf, txShapingApply_wf, outWf_next, outWf_fault,
    memoriesWf_mk, win_wf, store_wf, flash_wf]

theorem execTxStatus_wf (h : Hdr) {s : State} (hs : memoriesWf s = true) :
    outWf (execTxStatus h s) = true := command_wf _ _ hs (reply_wf _ _ _ hs)

theorem execTxSlices_wf (h : Hdr) (ch : Byte) {s : State} (hs : memoriesWf s = true) :
    outWf (execTxSlices h ch s) = true := command_wf _ _ hs (guarded_wf _ _ _ hs (respond_wf _ _ _ _ _ hs))

theorem alsStart_wf {s : State} (hs : memoriesWf s = true) : memoriesWf (alsStart s) = true := ite_wf (txBlank_wf _ _ hs) hs

theorem alsLight_wf (quiet : Bool) {s : State} (hs : memoriesWf s = true) : memoriesWf (alsLight quiet s) = true := by
  grind [alsLight, txMove_wf, memoriesWf_mk, win_wf, store_wf, flash_wf]

theorem alsStop_wf {s : State} (hs : memoriesWf s = true) : memoriesWf (alsStop s) = true := alsLight_wf _ hs

theorem txSafetyApply_wf (on : Byte) (interval : Half) (pulse : Byte) {s : State} (hs : memoriesWf s = true) :
    memoriesWf (txSafetyApply on interval pulse s) = true := by
  grind [txSafetyApply, alsStart_wf, alsStop_wf, memoriesWf_mk, win_wf, store_wf, flash_wf]

theorem execTxSafety_wf (h : Hdr) (on : Byte) (interval : Half) (pulse : Byte) {s : State} (hs : memoriesWf s = true) :
    outWf (execTxSafety h on interval pulse s) = true :=
  command_wf _ _ hs (guarded_wf _ _ _ hs (done_wf _ _ (txSafetyApply_wf _ _ _ hs)))

theorem execAlsPulseStart_wf {s : State} (hs : memoriesWf s = true) :
    outWf (execAlsPulseStart s) = true := outWf_next (ite_wf (alsLight_wf _ hs) hs)

theorem execAlsPulseEnd_wf {s : State} (hs : memoriesWf s = true) :
    outWf (execAlsPulseEnd s) = true := outWf_next (ite_wf (txBlank_wf _ _ hs) hs)

theorem execLaserLock_wf {s : State} (hs : memoriesWf s = true) :
    outWf (execLaserLock s) = true := outWf_next (ite_wf (txAdvance_wf _ (txMove_wf _ _ _ hs)) hs)

theorem execBiasConverged_wf (loops : BitVec 6) {s : State} (hs : memoriesWf s = true) :
    outWf (execBiasConverged loops s) = true := by
  grind [execBiasConverged, txMove_wf, outWf_next, outWf_fault, memoriesWf_mk, win_wf, store_wf, flash_wf]

theorem biasTask_wf (beyond : BitVec 6) {s : State} (hs : memoriesWf s = true) : memoriesWf (biasTask beyond s) = true := by
  unfold biasTask
  split <;> exact hs

theorem execBiasConvergeLimit_wf (loop : BitVec 3) (drift : Bool) {s : State} (hs : memoriesWf s = true) :
    outWf (execBiasConvergeLimit loop drift s) = true := by
  grind [execBiasConvergeLimit, notify_wf, outWf_next, outWf_fault, memoriesWf_mk, win_wf, store_wf, flash_wf]

theorem execOverpowerTrip_wf (peak : Int) {s : State} (hs : memoriesWf s = true) : outWf (execOverpowerTrip peak s) = true :=
  outWf_next (ite_wf (logEntry_wf _ _ _ _ (notify_wf _ _ _ _ (txMoveAt_wf _ _ _ _ hs))) hs)

/-! ### Decoder -/

theorem framerHunt_wf {s : State} (hs : memoriesWf s = true) : memoriesWf (framerHunt s) = true := hs

theorem execFecAlignDecision_wf (fractions : List Nat) (rxSf : Sf) {s : State} (hs : memoriesWf s = true) :
    outWf (execFecAlignDecision fractions rxSf s) = true := by
  grind [execFecAlignDecision, fecEvent_wf, framerHunt_wf, refreshRaws_wf, outWf_next, outWf_fault, memoriesWf_mk, win_wf,
    store_wf, flash_wf]

theorem execFecAlignLoss_wf (fractions : List Nat) {s : State} (hs : memoriesWf s = true) :
    outWf (execFecAlignLoss fractions s) = true := outWf_next (ite_wf (fecDrop_wf _ _ hs) hs)

theorem latchFec_wf (t : Lts) {s : State} (hs : memoriesWf s = true) :
    memoriesWf (latchFec t s) = true := ite_wf (freezeTrip_wf _ hs) hs

theorem deliverCodeword_wf (c : Codeword) (t : Lts) {s : State} (hs : memoriesWf s = true) :
    memoriesWf (deliverCodeword c t s) = true := hs

theorem nextSuperframe_wf (sf : Sf) (t : Lts) {s : State} (hs : memoriesWf s = true) :
    memoriesWf (nextSuperframe sf t s) = true := by
  grind [nextSuperframe, latchFec_wf, memoriesWf_mk, win_wf, store_wf, flash_wf]

theorem execCodewordDeliver_wf (c : Codeword) (rx : RxAt) {s : State} (hs : memoriesWf s = true) :
    outWf (execCodewordDeliver c rx s) = true := by
  grind [execCodewordDeliver, deliverCodeword_wf, nextSuperframe_wf, outWf_next, outWf_fault, memoriesWf_mk, win_wf,
    store_wf, flash_wf]

theorem execFecConfig_wf (h : Hdr) (l : Half) (flags : Byte) (deg : Word) {s : State} (hs : memoriesWf s = true) :
    outWf (execFecConfig h l flags deg s) = true := by
  grind [execFecConfig, command_wf, done_wf, fecDrop_wf, guarded_wf, notify_wf, outWf_next, outWf_fault, memoriesWf_mk,
    win_wf, store_wf, flash_wf]

theorem execFecStatus_wf (h : Hdr) {s : State} (hs : memoriesWf s = true) :
    outWf (execFecStatus h s) = true := command_wf _ _ hs (reply_wf _ _ _ hs)

theorem execFecCounters_wf (h : Hdr) (flags : Byte) {s : State} (hs : memoriesWf s = true) :
    outWf (execFecCounters h flags s) = true := by
  grind [execFecCounters, command_wf, guarded_wf, reply_wf, outWf_next, outWf_fault, memoriesWf_mk, win_wf, store_wf,
    flash_wf]

theorem execFecInject_wf (h : Hdr) (on : Byte) (ber : Word) {s : State} (hs : memoriesWf s = true) :
    outWf (execFecInject h on ber s) = true := command_wf _ _ hs (guarded_wf _ _ _ hs (done_wf _ _ hs))

/-! ### Cipher -/

theorem setSlot_wf (i : Byte) (k : KeySlot) {s : State} (hs : memoriesWf s = true) : memoriesWf (setSlot i k s) = true := hs

theorem modSlot_wf (i : Byte) (f : KeySlot → KeySlot) {s : State} (hs : memoriesWf s = true) :
    memoriesWf (modSlot i f s) = true := hs

theorem zeroise_wf (i : Byte) (cause : Nat) {s : State} (hs : memoriesWf s = true) :
    memoriesWf (zeroise i cause s) = true := ite_wf hs (notify_wf _ _ _ _ hs)

theorem modTrib_wf (tid : Byte) (f : Trib → Trib) {s : State} (hs : memoriesWf s = true) :
    memoriesWf (modTrib tid f s) = true := hs

theorem refreshTribsAt_wf (at_ : Lts) {s : State} (hs : memoriesWf s = true) : memoriesWf (refreshTribsAt at_ s) = true := hs

theorem refreshTribs_wf {s : State} (hs : memoriesWf s = true) : memoriesWf (refreshTribs s) = true := hs

theorem drain_wf (tid : Byte) (r : Option Byte) {s : State} (hs : memoriesWf s = true) : memoriesWf (drain tid r s) = true := by
  cases r
  all_goals exact hs

theorem releaseRef_wf (r : Option Byte) {s : State} (hs : memoriesWf s = true) : memoriesWf (releaseRef r s) = true := by
  cases r
  all_goals exact hs

theorem releaseRefs_wf (t : Trib) {s : State} (hs : memoriesWf s = true) : memoriesWf (releaseRefs t s) = true := by
  grind [releaseRefs, releaseRef_wf, memoriesWf_mk, win_wf, store_wf, flash_wf]

theorem switchEvent_wf (tid : Byte) (rx : Bool) (new : Byte) (left : Option Byte) (phase : Bool) (at_ : Lts) {s : State} (hs :
    memoriesWf s = true) :
    memoriesWf (switchEvent tid rx new left phase at_ s) = true := notifyAt_wf _ _ _ _ _ hs

theorem ageEvent_wf (tid slot : Byte) (at_ : Lts) {s : State} (hs : memoriesWf s = true) :
    memoriesWf (ageEvent tid slot at_ s) = true := ite_wf (notifyAt_wf _ _ _ _ _ hs) hs

theorem txSpanOf_wf (t : Trib) {s : State} (hs : memoriesWf s = true) : memoriesWf (txSpanOf t s) = true := by
  grind [txSpanOf, ageEvent_wf, modSlot_wf, modTrib_wf, memoriesWf_mk, win_wf, store_wf, flash_wf]

theorem txDrainAt_wf (i : Nat) {s : State} (hs : memoriesWf s = true) : memoriesWf (txDrainAt i s) = true := by
  grind [txDrainAt, setSlot_wf, zeroise_wf, memoriesWf_mk, win_wf, store_wf, flash_wf]

theorem txSpanTick_wf {s : State} (hs : memoriesWf s = true) : memoriesWf (txSpanTick s) = true :=
  refreshTribs_wf (foldl_wf (fun _ t h => txSpanOf_wf t h) _ (foldl_wf (fun _ i h => txDrainAt_wf i h) _ hs))

theorem rxPromote_wf (t : Trib) (phase : Bool) (at_ : Lts) {s : State} (hs : memoriesWf s = true) :
    memoriesWf (rxPromote t phase at_ s) = true := by
  grind [rxPromote, drain_wf, modSlot_wf, modTrib_wf, switchEvent_wf, memoriesWf_mk, win_wf, store_wf, flash_wf]

theorem rxDrainAt_wf (tid : Byte) (i : Nat) {s : State} (hs : memoriesWf s = true) : memoriesWf (rxDrainAt tid i s) = true := by
  grind [rxDrainAt, zeroise_wf, memoriesWf_mk, win_wf, store_wf, flash_wf]

theorem rxSpanOf_wf (tid : Byte) (switched : Bool) (at_ : Lts) {s : State} (hs : memoriesWf s = true) :
    memoriesWf (rxSpanOf tid switched at_ s) = true := by
  grind [rxSpanOf, ageEvent_wf, modSlot_wf, modTrib_wf, memoriesWf_mk, win_wf, store_wf, flash_wf]

theorem failClose_wf (tid : Byte) {s : State} (hs : memoriesWf s = true) : memoriesWf (failClose tid s) = true := by
  grind [failClose, logEntry_wf, modTrib_wf, memoriesWf_mk, win_wf, store_wf, flash_wf]

theorem execRxSpanStart_wf (tid : Byte) (phase : Option Bool) (rx : RxAt) {s : State} (hs : memoriesWf s = true) :
    outWf (execRxSpanStart tid phase rx s) = true := by
  have hd : memoriesWf ((List.range 256).foldl (fun s i => rxDrainAt tid i s) (failClose tid s)) = true :=
    foldl_wf (fun _ i h => rxDrainAt_wf tid i h) _ (failClose_wf tid hs)
  unfold execRxSpanStart
  generalize (List.range 256).foldl (fun s i => rxDrainAt tid i s) (failClose tid s) = d at hd
  grind [outWf_next, modTrib_wf, rxSpanOf_wf, rxPromote_wf, modSlot_wf, refreshTribsAt_wf]

theorem execSpanRecordReceive_wf (tid : Byte) (bytes : List Byte) (rx : RxAt) {s : State} (hs : memoriesWf s = true) :
    outWf (execSpanRecordReceive tid bytes rx s) = true := by
  grind [execSpanRecordReceive, modSlot_wf, modTrib_wf, refreshTribsAt_wf, rxPromote_wf, outWf_next, outWf_fault,
    memoriesWf_mk, win_wf, store_wf, flash_wf]

theorem failLog_wf (tid : Byte) (span : Nat) {s : State} (hs : memoriesWf s = true) :
    memoriesWf (failLog tid span s) = true := by
  grind [failLog, failClose_wf, logEntry_wf, modTrib_wf, memoriesWf_mk, win_wf, store_wf, flash_wf]

theorem markHandled_wf (tid : Byte) {s : State} (hs : memoriesWf s = true) : memoriesWf (markHandled tid s) = true := hs

theorem cutThrough_wf (t : Trib) {s : State} (hs : memoriesWf s = true) : memoriesWf (cutThrough t s) = true := by
  unfold cutThrough
  split <;> exact hs

theorem execSpanTagVerify_wf (tid : Byte) (data tag : List Byte) (rx : RxAt) {s : State} (hs : memoriesWf s = true) :
    outWf (execSpanTagVerify tid data tag rx s) = true := by
  have hm := markHandled_wf tid hs
  unfold execSpanTagVerify
  refine outWf_next ?_
  split
  · exact hs
  · split
    · exact hs
    · dsimp only
      split
      · exact hm
      · repeat' split
        · exact hm
        · exact hm
        · exact modTrib_wf _ _ hm
        · exact hm
        · exact modTrib_wf _ _ hm
        · exact cutThrough_wf _ (failLog_wf _ _ (modTrib_wf _ _ hm))

theorem execSpanRelease_wf (tid : Byte) {s : State} (hs : memoriesWf s = true) : outWf (execSpanRelease tid s) = true := by
  grind [execSpanRelease, modTrib_wf, refreshTribs_wf, outWf_next, outWf_fault, memoriesWf_mk, win_wf, store_wf, flash_wf]

theorem selftestEvent_wf (which : Nat) {s : State} (hs : memoriesWf s = true) :
    memoriesWf (selftestEvent which s) = true := logEntry_wf _ _ _ _ (notify_wf _ _ _ _ hs)

theorem lineFails_wf {s : State} (hs : memoriesWf s = true) : memoriesWf (lineFails s) = true := hs

theorem runSelftests_wf {s : State} (hs : memoriesWf s = true) : memoriesWf (runSelftests s) = true := by
  grind [runSelftests, lineFails_wf, refreshTribs_wf, selftestEvent_wf, memoriesWf_mk, win_wf, store_wf, flash_wf]

theorem execTagRecomputeMismatch_wf (tid : Byte) {s : State} (hs : memoriesWf s = true) :
    outWf (execTagRecomputeMismatch tid s) = true := by
  grind [execTagRecomputeMismatch, lineFails_wf, refreshTribs_wf, selftestEvent_wf, outWf_next, outWf_fault, memoriesWf_mk,
    win_wf, store_wf, flash_wf]

theorem execKeyKekInfo_wf (h : Hdr) {s : State} (hs : memoriesWf s = true) :
    outWf (execKeyKekInfo h s) = true := query_wf _ _ hs

theorem raiseMmVote_wf {s : State} (hs : memoriesWf s = true) : memoriesWf (raiseMmVote s) = true := hs

theorem execKeyLoad_wf (h : Hdr) (slot : Byte) {s : State} (hs : memoriesWf s = true) : outWf (execKeyLoad h slot s) = true := by
  refine command_wf _ _ hs (guarded_wf _ _ _ hs ?_)
  split
  · exact refuse_wf _ _ _ hs
  · split
    · exact refuse_wf _ _ _ hs
    · exact guarded_wf _ _ _ hs (reply_wf _ _ _ (ite_wf (raiseMmVote_wf (setSlot_wf _ _ hs)) (setSlot_wf _ _ hs)))

theorem forceErase_wf (slot : Byte) {s : State} (hs : memoriesWf s = true) :
    memoriesWf (forceErase slot s) = true := zeroise_wf _ _ hs

theorem plainErase_wf (slot : Byte) {s : State} (hs : memoriesWf s = true) : memoriesWf (plainErase slot s) = true := hs

theorem execKeyErase_wf (h : Hdr) (slot flags : Byte) {s : State} (hs : memoriesWf s = true) :
    outWf (execKeyErase h slot flags s) = true := by
  grind [execKeyErase, command_wf, forceErase_wf, guarded_wf, plainErase_wf, raiseMmVote_wf, reply_wf, outWf_next,
    outWf_fault, memoriesWf_mk, win_wf, store_wf, flash_wf]

theorem keyAssignApply_wf (tid ref slot : Byte) {s : State} (hs : memoriesWf s = true) :
    memoriesWf (keyAssignApply tid ref slot s) = true := by
  grind [keyAssignApply, drain_wf, modSlot_wf, modTrib_wf, refreshTribs_wf, releaseRef_wf, memoriesWf_mk, win_wf, store_wf,
    flash_wf]

theorem execKeyAssign_wf (h : Hdr) (tid ref slot : Byte) {s : State} (hs : memoriesWf s = true) :
    outWf (execKeyAssign h tid ref slot s) = true :=
  command_wf _ _ hs (guarded_wf _ _ _ hs (done_wf _ _ (keyAssignApply_wf _ _ _ hs)))

theorem activate_wf (t : Trib) (n : Byte) {s : State} (hs : memoriesWf s = true) : memoriesWf (activate t n s) = true := by
  grind [activate, drain_wf, modSlot_wf, modTrib_wf, refreshTribs_wf, switchEvent_wf, memoriesWf_mk, win_wf, store_wf,
    flash_wf]

theorem keyActivateAt_wf (h : Hdr) (tid : Byte) {s : State} (hs : memoriesWf s = true) :
    memoriesWf (keyActivateAt h tid s) = true := by
  grind [keyActivateAt, activate_wf, refuse_wf, reply_wf, memoriesWf_mk, win_wf, store_wf, flash_wf]

theorem waitForSpan_wf (cmd : Instr) {s : State} (hs : memoriesWf s = true) : memoriesWf (waitForSpan cmd s) = true := hs

theorem execKeyActivate_wf (h : Hdr) (tid : Byte) {s : State} (hs : memoriesWf s = true) :
    outWf (execKeyActivate h tid s) = true := command_wf _ _ hs (guarded_wf _ _ _ hs (ite_wf (keyActivateAt_wf _ _ hs) hs))

theorem execKeyStatus_wf (h : Hdr) (slot : Byte) {s : State} (hs : memoriesWf s = true) :
    outWf (execKeyStatus h slot s) = true := by
  grind [execKeyStatus, command_wf, guarded_wf, raiseMmVote_wf, reply_wf, outWf_next, outWf_fault, memoriesWf_mk, win_wf,
    store_wf, flash_wf]

theorem execCiphTribStatus_wf (h : Hdr) (tid flags : Byte) {s : State} (hs : memoriesWf s = true) :
    outWf (execCiphTribStatus h tid flags s) = true := by
  grind [execCiphTribStatus, command_wf, guarded_wf, incomplete_wf, modTrib_wf, reply_wf, outWf_next, outWf_fault,
    memoriesWf_mk, win_wf, store_wf, flash_wf]

theorem execCiphSelftest_wf (h : Hdr) {s : State} (hs : memoriesWf s = true) : outWf (execCiphSelftest h s) = true := by
  grind [execCiphSelftest, command_wf, raiseMmVote_wf, respond_wf, runSelftests_wf, outWf_next, outWf_fault, memoriesWf_mk,
    win_wf, store_wf, flash_wf]

theorem ciphTribModeApply_wf (tid behaviour : Byte) {s : State} (hs : memoriesWf s = true) :
    memoriesWf (ciphTribModeApply tid behaviour s) = true := hs

theorem execCiphTribMode_wf (h : Hdr) (tid behaviour : Byte) {s : State} (hs : memoriesWf s = true) :
    outWf (execCiphTribMode h tid behaviour s) = true := command_wf _ _ hs (guarded_wf _ _ _ hs (done_wf _ _ hs))

/-! ### Store -/

theorem clearPage_wf (p : Nat) {s : State} (hs : memoriesWf s = true) : memoriesWf (clearPage p s) = true := by
  grind [clearPage, memoriesWf_mk, win_wf, store_wf, flash_wf, memWriteN_wf, memFilter_wf]

theorem wordWrite_wf (w : Nat) (bs : List Byte) {s : State} (hs : memoriesWf s = true) :
    memoriesWf (wordWrite w bs s) = true := by
  grind [wordWrite, clearPage_wf, memWriteN_wf, memoriesWf_mk, win_wf, store_wf, flash_wf, memWriteN_wf, memFilter_wf]

theorem wordsWrite_wf : ∀ (n : Nat) (bs : List Byte) (w : Nat) {s : State}, memoriesWf s = true →
    memoriesWf (wordsWrite n bs w s) = true
  | 0, _, _, _, hs => hs
  | n + 1, bs, w, _, hs => wordsWrite_wf n (bs.drop 8) (w + 1) (wordWrite_wf w (bs.take 8) hs)

theorem storeWrite_wf (a : Nat) (bs : List Byte) {s : State} (hs : memoriesWf s = true) :
    memoriesWf (storeWrite a bs s) = true := by
  grind [storeWrite, wordsWrite_wf, memoriesWf_mk, win_wf, store_wf, flash_wf]

theorem poisonOwner_wf (p : Nat) {s : State} (hs : memoriesWf s = true) : memoriesWf (poisonOwner p s) = true := by
  grind [poisonOwner, clearPage_wf, incomplete_wf, logEntry_wf, memoriesWf_mk, win_wf, store_wf, flash_wf, memWriteN_wf,
    memFilter_wf]

theorem poisonNote_wf (p finder : Nat) {s : State} (hs : memoriesWf s = true) :
    memoriesWf (poisonNote p finder s) = true := notify_wf _ _ _ _ (logEntry_wf _ _ _ _ hs)

theorem poisonData_wf (finder p : Nat) {s : State} (hs : memoriesWf s = true) : memoriesWf (poisonData finder s p) = true := by
  grind [poisonData, poisonNote_wf, poisonOwner_wf, memoriesWf_mk, win_wf, store_wf, flash_wf]

theorem poisonPage_wf (p finder : Nat) {s : State} (hs : memoriesWf s = true) : memoriesWf (poisonPage p finder s) = true := by
  unfold poisonPage
  split
  · exact ite_wf (foldl_wf (fun _ p h => poisonData_wf finder p h) _ hs) hs
  · exact poisonData_wf finder p hs

theorem mergeFlush_wf (m : Merge) {s : State} (hs : memoriesWf s = true) :
    memoriesWf (mergeFlush m s) = true := ite_wf (poisonOwner_wf _ hs) (wordWrite_wf _ _ hs)

theorem mergeFlushAll_wf {s : State} (hs : memoriesWf s = true) : memoriesWf (mergeFlushAll s) = true :=
  foldl_wf (fun _ m h => mergeFlush_wf m h) _ hs

theorem mergeWrite_wf (a : Nat) (b : Byte) {s : State} (hs : memoriesWf s = true) : memoriesWf (mergeWrite a b s) = true := by
  grind [mergeWrite, mergeFlush_wf, memoriesWf_mk, win_wf, store_wf, flash_wf, memWriteN_wf, memFilter_wf]

theorem storeNarrow_wf : ∀ (bs : List Byte) (a : Nat) {s : State}, memoriesWf s = true → memoriesWf (storeNarrow bs a s) = true
  | [], _, _, hs => hs
  | b :: t, a, _, hs => storeNarrow_wf t (a + 1) (mergeWrite_wf a b hs)

theorem wordRead_wf (w : Nat) (d : WordDecode) (pageDecodes : Bool) (finder : Nat) {s : State} (hs : memoriesWf s = true) :
    memoriesWf (wordRead w d pageDecodes finder s) = true := by
  cases d with
  | clean => exact hs
  | corrected => exact hs
  | uncorrectable => exact ite_wf hs (poisonPage_wf _ finder hs)

theorem mergeFlushRead_wf (m : Merge) (d : WordDecode) (pageDecodes : Bool) {s : State} (hs : memoriesWf s = true) :
    memoriesWf (mergeFlushRead m d pageDecodes s) = true := by
  grind [mergeFlushRead, mergeFlush_wf, wordRead_wf, memoriesWf_mk, win_wf, store_wf, flash_wf, memWriteN_wf, memFilter_wf]

theorem execMergeBufferTimeout_wf (word : Nat) (d : WordDecode) (pageDecodes : Bool) {s : State} (hs : memoriesWf s = true) :
    outWf (execMergeBufferTimeout word d pageDecodes s) = true := by
  grind [execMergeBufferTimeout, mergeFlushRead_wf, outWf_next, outWf_fault, memoriesWf_mk, win_wf, store_wf, flash_wf]

theorem execStoreRead_wf (word : Nat) (d : WordDecode) (pageDecodes : Bool) {s : State} (hs : memoriesWf s = true) :
    outWf (execStoreRead word d pageDecodes s) = true := by
  grind [execStoreRead, mergeFlushRead_wf, wordRead_wf, outWf_next, outWf_fault, memoriesWf_mk, win_wf, store_wf, flash_wf]

theorem regionClear_wf (r : Nat) {s : State} (hs : memoriesWf s = true) : memoriesWf (regionClear r s) = true := by
  grind [regionClear, memoriesWf_mk, win_wf, store_wf, flash_wf, memWriteN_wf, memFilter_wf]

/-! ### MemMode -/

theorem setCtx_wf (i : Nat) (c : MmCtx) {s : State} (hs : memoriesWf s = true) : memoriesWf (setCtx i c s) = true := hs

theorem mmSound_wf (op : Nat) (h : Hdr) (ctx : Byte) {body : State → State} {s : State} (hs : memoriesWf s = true)
    (hb : memoriesWf (body s) = true) : memoriesWf (mmSound op h ctx body s) = true :=
  ite_wf (refuse_wf _ _ _ (setCtx_wf _ _ hs)) hb

theorem execMmRun_wf (h : Hdr) (alg dir mode ctx slot prio : Byte) (aadLen : Half) (iv tag : List Byte) {s : State} (hs :
    memoriesWf s = true) :
    outWf (execMmRun h alg dir mode ctx slot prio aadLen iv tag s) = true := by
  grind [execMmRun, command_wf, guarded_wf, mmSound_wf, raiseMmVote_wf, setCtx_wf, outWf_next, outWf_fault, memoriesWf_mk,
    win_wf, store_wf, flash_wf]

theorem zeroBuffer_wf (h : Hdr) {s : State} (hs : memoriesWf s = true) : memoriesWf (zeroBuffer h s) = true := by
  grind [zeroBuffer, memWriteN_wf, memoriesWf_mk, win_wf, store_wf, flash_wf, memWriteN_wf, memFilter_wf]

theorem mmReply_wf (h : Hdr) (tag : List Byte) (bytes area : Nat) (out : Option (List Byte)) {s : State} (hs : memoriesWf s =
    true) :
    memoriesWf (mmReply h tag bytes area out s) = true := respond_wf _ _ _ _ _ hs

theorem gcmDone_wf (ctx : Nat) (key : List Byte) (c : MmCtx) (j : MmJob) {s : State} (hs : memoriesWf s = true) :
    memoriesWf (gcmDone ctx key c j s) = true := by
  have hn : ∀ (bs : List Byte) (a : Nat), memoriesWf (storeNarrow bs a s) = true := fun bs a => storeNarrow_wf bs a hs
  exact ite_wf (mmReply_wf _ _ _ _ _ (setCtx_wf _ _ hs))
    (ite_wf (ite_wf (mmReply_wf _ _ _ _ _ (setCtx_wf _ _ hs)) (refuse_wf _ _ _ (zeroBuffer_wf _ (setCtx_wf _ _ hs))))
      (ite_wf (ite_wf (mmReply_wf _ _ _ _ _ (setCtx_wf _ _ (hn _ _)))
          (refuse_wf _ _ _ (setCtx_wf _ _ (storeNarrow_wf _ _ (hn _ _)))))
        (mmReply_wf _ _ _ _ _ (setCtx_wf _ _ (hn _ _)))))

theorem ctrDone_wf (ctx : Nat) (key : List Byte) (c : MmCtx) (j : MmJob) {s : State} (hs : memoriesWf s = true) :
    memoriesWf (ctrDone ctx key c j s) = true := mmReply_wf _ _ _ _ _ hs

theorem ecbDone_wf (ctx : Nat) (key : List Byte) (c : MmCtx) (j : MmJob) {s : State} (hs : memoriesWf s = true) :
    memoriesWf (ecbDone ctx key c j s) = true := mmReply_wf _ _ _ _ _ hs

theorem kwDone_wf (ctx : Nat) (key : List Byte) (c : MmCtx) (j : MmJob) {s : State} (hs : memoriesWf s = true) :
    memoriesWf (kwDone ctx key c j s) = true := by
  grind [kwDone, mmReply_wf, refuse_wf, setCtx_wf, zeroBuffer_wf, memoriesWf_mk, win_wf, store_wf, flash_wf]

theorem execMmJobDone_wf (ctx : BitVec 4) {s : State} (hs : memoriesWf s = true) : outWf (execMmJobDone ctx s) = true := by
  grind [execMmJobDone, answerLate_wf, ctrDone_wf, ecbDone_wf, gcmDone_wf, kwDone_wf, raiseMmVote_wf, refuse_wf, setCtx_wf,
    outWf_next, outWf_fault, memoriesWf_mk, win_wf, store_wf, flash_wf]

theorem execMmCtxSave_wf (h : Hdr) (ctx form : Byte) {s : State} (hs : memoriesWf s = true) :
    outWf (execMmCtxSave h ctx form s) = true := by
  grind [execMmCtxSave, command_wf, guarded_wf, mmSound_wf, raiseMmVote_wf, respond_wf, setCtx_wf, outWf_next, outWf_fault,
    memoriesWf_mk, win_wf, store_wf, flash_wf]

theorem execMmCtxRestore_wf (h : Hdr) (ctx : Byte) {s : State} (hs : memoriesWf s = true) :
    outWf (execMmCtxRestore h ctx s) = true := by
  grind [execMmCtxRestore, command_wf, guarded_wf, mmSound_wf, raiseMmVote_wf, refuse_wf, reply_wf, setCtx_wf, outWf_next,
    outWf_fault, memoriesWf_mk, win_wf, store_wf, flash_wf]

theorem execMmRead_wf (h : Hdr) (ctx flags : Byte) (offset : Dword) {s : State} (hs : memoriesWf s = true) :
    outWf (execMmRead h ctx flags offset s) = true := by
  grind [execMmRead, command_wf, guarded_wf, mmSound_wf, raiseMmVote_wf, respond_wf, setCtx_wf, outWf_next, outWf_fault,
    memoriesWf_mk, win_wf, store_wf, flash_wf]

/-! ### HostLanes -/

theorem readmit_wf {s : State} (hs : memoriesWf s = true) : memoriesWf (readmit s) = true := by
  grind [readmit, memoriesWf_mk, win_wf, store_wf, flash_wf]

theorem linkTo_wf (st : LinkSt) (cause : Nat) {s : State} (hs : memoriesWf s = true) :
    memoriesWf (linkTo st cause s) = true := by
  grind [linkTo, notify_wf, readmit_wf, memoriesWf_mk, win_wf, store_wf, flash_wf]

theorem sendControl_wf (type : Byte) (lanes : Half) (fields : List Byte) {s : State} (hs : memoriesWf s = true) :
    memoriesWf (sendControl type lanes fields s) = true := hs

theorem modLane_wf (i : Nat) (f : Lane → Lane) {s : State} (hs : memoriesWf s = true) : memoriesWf (modLane i f s) = true := hs

theorem mapLanes_wf (f : Lane → Lane) {s : State} (hs : memoriesWf s = true) : memoriesWf (mapLanes f s) = true := hs

theorem bringUp_wf (quick : Bool) (cause silence : Nat) {s : State} (hs : memoriesWf s = true) :
    memoriesWf (bringUp quick cause silence s) = true := linkTo_wf _ _ hs

theorem switchTo_wf (target : Nat) {s : State} (hs : memoriesWf s = true) :
    memoriesWf (switchTo target s) = true := linkTo_wf _ _ hs

theorem startBond_wf {s : State} (hs : memoriesWf s = true) : memoriesWf (startBond s) = true := linkTo_wf _ _ hs

theorem phaseCheck_wf {s : State} (hs : memoriesWf s = true) : memoriesWf (phaseCheck s) = true := by
  grind [phaseCheck, linkTo_wf, mapLanes_wf, startBond_wf, switchTo_wf, memoriesWf_mk, win_wf, store_wf, flash_wf]

theorem lpAbandon_wf {s : State} (hs : memoriesWf s = true) : memoriesWf (lpAbandon s) = true := by
  grind [lpAbandon, answerLate_wf, reply_wf, memoriesWf_mk, win_wf, store_wf, flash_wf]

theorem laneEvent_wf (i : Nat) (locked : Bool) {s : State} (hs : memoriesWf s = true) :
    memoriesWf (laneEvent i locked s) = true := notify_wf _ _ _ _ hs

theorem deskew_wf {s : State} (hs : memoriesWf s = true) : memoriesWf (deskew s) = true := by
  grind [deskew, memoriesWf_mk, win_wf, store_wf, flash_wf, memWriteN_wf, memFilter_wf]

theorem refreshRdi_wf {s : State} (hs : memoriesWf s = true) : memoriesWf (refreshRdi s) = true := hs

theorem frameSent_wf (i : Nat) {s : State} (hs : memoriesWf s = true) : memoriesWf (frameSent i s) = true := by
  unfold frameSent
  split <;> exact hs

theorem execLaneFrameReceive_wf (f : LaneFrame) {s : State} (hs : memoriesWf s = true) :
    outWf (execLaneFrameReceive f s) = true := by
  grind [execLaneFrameReceive, bringUp_wf, deskew_wf, frameSent_wf, laneEvent_wf, lpAbandon_wf, modLane_wf, phaseCheck_wf,
    refreshRdi_wf, sendControl_wf, outWf_next, outWf_fault, memoriesWf_mk, win_wf, store_wf, flash_wf]

theorem execOsierAdvertise_wf (lane : BitVec 4) (blk : List Byte) {s : State} (hs : memoriesWf s = true) :
    outWf (execOsierAdvertise lane blk s) = true := by
  grind [execOsierAdvertise, bringUp_wf, modLane_wf, phaseCheck_wf, outWf_next, outWf_fault, memoriesWf_mk, win_wf,
    store_wf, flash_wf]

theorem execOsierStepAck_wf (lane : BitVec 4) (blk : List Byte) {s : State} (hs : memoriesWf s = true) :
    outWf (execOsierStepAck lane blk s) = true := by
  unfold execOsierStepAck
  refine outWf_next ?_
  split <;> exact hs

theorem execOsierStepSwitch_wf (transmitter : Bool) {s : State} (hs : memoriesWf s = true) :
    outWf (execOsierStepSwitch transmitter s) = true := by
  grind [execOsierStepSwitch, mapLanes_wf, phaseCheck_wf, outWf_next, outWf_fault, memoriesWf_mk, win_wf, store_wf,
    flash_wf]

theorem execOsierTrain_wf (lane : BitVec 4) (blk : List Byte) {s : State} (hs : memoriesWf s = true) :
    outWf (execOsierTrain lane blk s) = true := by
  grind [execOsierTrain, drawMany_wf, modLane_wf, phaseCheck_wf, sendControl_wf, outWf_next, outWf_fault, memoriesWf_mk,
    win_wf, store_wf, flash_wf]

theorem execOsierLinkUp_wf (lane : BitVec 4) (blk : List Byte) {s : State} (hs : memoriesWf s = true) :
    outWf (execOsierLinkUp lane blk s) = true := outWf_next (ite_wf (phaseCheck_wf hs) hs)

theorem linkLow_wf (state : Nat) (cause : Nat) {s : State} (hs : memoriesWf s = true) :
    memoriesWf (linkLow state cause s) = true := linkTo_wf _ _ hs

theorem execOsierLpReq_wf (lane : BitVec 4) (blk : List Byte) {s : State} (hs : memoriesWf s = true) :
    outWf (execOsierLpReq lane blk s) = true := outWf_next (ite_wf (linkLow_wf _ _ hs) hs)

theorem execOsierLpAck_wf (lane : BitVec 4) (blk : List Byte) {s : State} (hs : memoriesWf s = true) :
    outWf (execOsierLpAck lane blk s) = true := by
  grind [execOsierLpAck, answerLate_wf, linkLow_wf, reply_wf, outWf_next, outWf_fault, memoriesWf_mk, win_wf, store_wf,
    flash_wf]

theorem execOsierFault_wf (lane : BitVec 4) (blk : List Byte) {s : State} (hs : memoriesWf s = true) :
    outWf (execOsierFault lane blk s) = true := outWf_next (ite_wf (bringUp_wf _ _ _ (lpAbandon_wf hs)) hs)

theorem execOsierPhaseLimit_wf {s : State} (hs : memoriesWf s = true) : outWf (execOsierPhaseLimit s) = true := by
  grind [execOsierPhaseLimit, bringUp_wf, mapLanes_wf, sendControl_wf, switchTo_wf, outWf_next, outWf_fault, memoriesWf_mk,
    win_wf, store_wf, flash_wf]

theorem execOsierL1Exit_wf {s : State} (hs : memoriesWf s = true) :
    outWf (execOsierL1Exit s) = true := outWf_next (ite_wf (linkTo_wf _ _ hs) hs)

theorem modPort_wf (n : Nat) (f : Port → Port) {s : State} (hs : memoriesWf s = true) : memoriesWf (modPort n f s) = true := hs

theorem setCsf_wf (n : Nat) (b : Bool) {s : State} (hs : memoriesWf s = true) : memoriesWf (setCsf n b s) = true := hs

theorem execIngressFail_wf (port : Byte) (cause : IngressCause) {s : State} (hs : memoriesWf s = true) :
    outWf (execIngressFail port cause s) = true := by
  grind [execIngressFail, modPort_wf, notify_wf, setCsf_wf, outWf_next, outWf_fault, memoriesWf_mk, win_wf, store_wf,
    flash_wf]

theorem execIngressRecover_wf (port : Byte) {s : State} (hs : memoriesWf s = true) :
    outWf (execIngressRecover port s) = true := by
  grind [execIngressRecover, modPort_wf, notify_wf, setCsf_wf, outWf_next, outWf_fault, memoriesWf_mk, win_wf, store_wf,
    flash_wf]

theorem linkHold_wf (st : LinkSt) (cause : Nat) {s : State} (hs : memoriesWf s = true) :
    memoriesWf (linkHold st cause s) = true := ite_wf (linkTo_wf _ _ (lpAbandon_wf hs)) hs

theorem linkReturn_wf (cause : Nat) {s : State} (hs : memoriesWf s = true) : memoriesWf (linkReturn cause s) = true := by
  grind [linkReturn, bringUp_wf, linkTo_wf, memoriesWf_mk, win_wf, store_wf, flash_wf]

theorem linkShutdown_wf {s : State} (hs : memoriesWf s = true) :
    memoriesWf (linkShutdown s) = true := ite_wf (linkHold_wf _ _ hs) hs

theorem linkOff_wf {s : State} (hs : memoriesWf s = true) :
    memoriesWf (linkOff s) = true := ite_wf (linkTo_wf _ _ (lpAbandon_wf hs)) hs

theorem zrPorts_wf {s : State} (hs : memoriesWf s = true) : memoriesWf (zrPorts s) = true := by
  grind [zrPorts, memoriesWf_mk, win_wf, store_wf, flash_wf]

theorem hlConfigApply_wf (mode n step group flags : Byte) (inPol outPol : Half) {s : State} (hs : memoriesWf s = true) :
    memoriesWf (hlConfigApply mode n step group flags inPol outPol s) = true := by
  grind [hlConfigApply, bringUp_wf, linkTo_wf, lpAbandon_wf, notify_wf, readmit_wf, zrPorts_wf, memoriesWf_mk, win_wf,
    store_wf, flash_wf]

theorem execHlConfig_wf (h : Hdr) (mode n step group flags : Byte) (inPol outPol : Half) {s : State} (hs : memoriesWf s = true)
    :
    outWf (execHlConfig h mode n step group flags inPol outPol s) = true :=
  command_wf _ _ hs (guarded_wf _ _ _ hs (done_wf _ _ (hlConfigApply_wf _ _ _ _ _ _ _ hs)))

theorem execHlStatus_wf (h : Hdr) {s : State} (hs : memoriesWf s = true) :
    outWf (execHlStatus h s) = true := command_wf _ _ hs (reply_wf _ _ _ hs)

theorem execHlLaneStatus_wf (h : Hdr) (lane : Byte) {s : State} (hs : memoriesWf s = true) :
    outWf (execHlLaneStatus h lane s) = true := command_wf _ _ hs (guarded_wf _ _ _ hs (reply_wf _ _ _ hs))

theorem execHlPort_wf (h : Hdr) (port flags : Byte) {s : State} (hs : memoriesWf s = true) :
    outWf (execHlPort h port flags s) = true := by
  unfold execHlPort
  split
  · exact command_wf _ _ hs (refuse_wf _ _ _ hs)
  · exact command_wf _ _ hs (guarded_wf _ _ _ hs (reply_wf _ _ _ (ite_wf (modPort_wf _ _ hs) hs)))

theorem execHlPower_wf (h : Hdr) (state : Byte) {s : State} (hs : memoriesWf s = true) :
    outWf (execHlPower h state s) = true := by
  grind [execHlPower, bringUp_wf, command_wf, guarded_wf, linkTo_wf, reply_wf, sendControl_wf, outWf_next, outWf_fault,
    memoriesWf_mk, win_wf, store_wf, flash_wf]

theorem execHlLoopback_wf (h : Hdr) (kind : Byte) (lanes : Half) {s : State} (hs : memoriesWf s = true) :
    outWf (execHlLoopback h kind lanes s) = true := by
  grind [execHlLoopback, command_wf, done_wf, guarded_wf, sendControl_wf, outWf_next, outWf_fault, memoriesWf_mk, win_wf,
    store_wf, flash_wf]

theorem execHlRetrain_wf (h : Hdr) (kind : Byte) {s : State} (hs : memoriesWf s = true) :
    outWf (execHlRetrain h kind s) = true :=
  command_wf _ _ hs (guarded_wf _ _ _ hs (done_wf _ _ (bringUp_wf _ _ _ (lpAbandon_wf hs))))

/-! ### Transport -/

theorem inFrame_wf (c : Cand) (t : Lts) {s : State} (hs : memoriesWf s = true) : memoriesWf (inFrame c t s) = true := hs

theorem judgeCands_wf (t : Lts) {s : State} (hs : memoriesWf s = true) : memoriesWf (judgeCands t s) = true := by
  grind [judgeCands, inFrame_wf, refreshRaws_wf, memoriesWf_mk, win_wf, store_wf, flash_wf, memWriteN_wf, memFilter_wf]

theorem execSfohReceive_wf (bytes : List Byte) (rxSf : Sf) {s : State} (hs : memoriesWf s = true) :
    outWf (execSfohReceive bytes rxSf s) = true := outWf_next (ite_wf (judgeCands_wf _ hs) hs)

theorem egress_wf (port n : Nat) {s : State} (hs : memoriesWf s = true) : memoriesWf (egress port n s) = true := hs

theorem settleJo_wf (t : Trib) (pos : Nat) (tfn : Word) (bp : Option Nat) {s : State} (hs : memoriesWf s = true) :
    memoriesWf (settleJo t pos tfn bp s) = true := by
  unfold settleJo
  split <;> exact hs

theorem tribTake_wf (t : Trib) (tfn : Word) (pos : Nat) (table : List (List Byte)) (at_ : Lts) {s : State} (hs : memoriesWf s =
    true) :
    memoriesWf (tribTake t tfn pos table at_ s) = true := by
  grind [tribTake, modTrib_wf, settleJo_wf, memoriesWf_mk, win_wf, store_wf, flash_wf]

theorem huntTake_wf (x : TfRx) (ok marked : Bool) (at_ : Lts) {s : State} (hs : memoriesWf s = true) :
    memoriesWf (huntTake x ok marked at_ s) = true := judgeCands_wf _ hs

theorem loseFrame_wf (at_ : Lts) {s : State} (hs : memoriesWf s = true) :
    memoriesWf (loseFrame at_ s) = true := framerHunt_wf hs

theorem frameTake_wf (x : TfRx) (ok marked : Bool) (at_ : Lts) {s : State} (hs : memoriesWf s = true) :
    memoriesWf (frameTake x ok marked at_ s) = true := by
  unfold frameTake
  dsimp only
  refine ite_wf (loseFrame_wf _ ?_) (refreshTribs_wf (foldl_wf (fun _ t h => tribTake_wf t _ _ _ _ h) _ ?_))
  all_goals
    repeat' split
    all_goals exact memoriesWf_mk (win_wf hs) (store_wf hs) (flash_wf hs)

theorem agreementFrame_wf (x : TfRx) (at_ : Lts) {s : State} (hs : memoriesWf s = true) :
    memoriesWf (agreementFrame x at_ s) = true := by
  grind [agreementFrame, framerClose_wf, framerHunt_wf, refreshRawsAt_wf, memoriesWf_mk, win_wf, store_wf, flash_wf]

theorem execTfHeaderReceive_wf (f : TfRx) (rx : RxAt) {s : State} (hs : memoriesWf s = true) :
    outWf (execTfHeaderReceive f rx s) = true := by
  grind [execTfHeaderReceive, agreementFrame_wf, frameTake_wf, huntTake_wf, outWf_next, outWf_fault, memoriesWf_mk, win_wf,
    store_wf, flash_wf]

theorem txStream_wf {s : State} (hs : memoriesWf s = true) : memoriesWf (txStream s) = true := by
  grind [txStream, memoriesWf_mk, win_wf, store_wf, flash_wf]

theorem execTfTransmit_wf (fills : List ClientFill) {s : State} (hs : memoriesWf s = true) :
    outWf (execTfTransmit fills s) = true := by
  grind [execTfTransmit, txStream_wf, outWf_next, outWf_fault, memoriesWf_mk, win_wf, store_wf, flash_wf]

theorem putDefect_wf (d : Defect) (b : Bool) {s : State} (hs : memoriesWf s = true) : memoriesWf (putDefect d b s) = true := by
  cases d
  all_goals exact hs

theorem moveDefect_wf (d : Defect) (b : Bool) (t : Lts) {s : State} (hs : memoriesWf s = true) :
    memoriesWf (moveDefect d b t s) = true := notifyAt_wf _ _ _ _ _ (putDefect_wf _ _ hs)

theorem clearHeld_wf (t : Lts) {s : State} (hs : memoriesWf s = true) : memoriesWf (clearHeld t s) = true := by
  unfold clearHeld
  extract_lets one s1
  have hone : ∀ (d : Defect) {u : State}, memoriesWf u = true → memoriesWf (one d u) = true := fun d u hu => by
    dsimp only [one]
    split
    · exact ite_wf (moveDefect_wf _ _ _ hu) hu
    · exact hu
  have h1 : memoriesWf s1 = true := hone .bdi hs
  have h2 := foldl_wf (f := fun s x => one (.plm x.tid) (one (.csf x.tid) s)) (fun _ _ h => hone _ (hone _ h)) s1.tribs h1
  exact memoriesWf_mk (win_wf h2) (store_wf h2) (flash_wf h2)

theorem defectFollow_wf (d : Defect) (b : Bool) (t : Lts) {s : State} (hs : memoriesWf s = true) :
    memoriesWf (defectFollow d b t s) = true := by
  unfold defectFollow
  split
  · exact ite_wf (alsStart_wf hs) (alsStop_wf hs)
  · exact refreshTribs_wf hs
  · exact ite_wf (refreshTribs_wf (clearHeld_wf t hs)) hs
  · exact refreshTribs_wf hs
  · exact hs

theorem execDefectSet_wf (d : Defect) {s : State} (hs : memoriesWf s = true) : outWf (execDefectSet d s) = true := by
  grind [execDefectSet, defectFollow_wf, moveDefect_wf, outWf_next, outWf_fault, memoriesWf_mk, win_wf, store_wf, flash_wf]

theorem execDefectClear_wf (d : Defect) {s : State} (hs : memoriesWf s = true) : outWf (execDefectClear d s) = true := by
  grind [execDefectClear, defectFollow_wf, moveDefect_wf, outWf_next, outWf_fault, memoriesWf_mk, win_wf, store_wf,
    flash_wf]

theorem restartIntegs_wf {s : State} (hs : memoriesWf s = true) : memoriesWf (restartIntegs s) = true := hs

theorem tribDefineApply_wf (tid client : Byte) (port : Half) (cipher : Byte) {s : State} (hs : memoriesWf s = true) :
    memoriesWf (tribDefineApply tid client port cipher s) = true := readmit_wf hs

theorem execTribDefine_wf (h : Hdr) (tid client : Byte) (port : Half) (cipher : Byte) {s : State} (hs : memoriesWf s = true) :
    outWf (execTribDefine h tid client port cipher s) = true :=
  command_wf _ _ hs (guarded_wf _ _ _ hs (reply_wf _ _ _ (tribDefineApply_wf _ _ _ _ hs)))

theorem tribRemoveApply_wf (tid : Byte) {s : State} (hs : memoriesWf s = true) : memoriesWf (tribRemoveApply tid s) = true := by
  grind [tribRemoveApply, readmit_wf, releaseRefs_wf, memoriesWf_mk, win_wf, store_wf, flash_wf, memWriteN_wf, memFilter_wf]

theorem execTribRemove_wf (h : Hdr) (tid : Byte) {s : State} (hs : memoriesWf s = true) :
    outWf (execTribRemove h tid s) = true := command_wf _ _ hs (guarded_wf _ _ _ hs (done_wf _ _ (tribRemoveApply_wf _ hs)))

theorem execTribStatus_wf (h : Hdr) (tid flags : Byte) {s : State} (hs : memoriesWf s = true) :
    outWf (execTribStatus h tid flags s) = true := by
  unfold execTribStatus
  split
  · exact command_wf _ _ hs (refuse_wf _ _ _ hs)
  · exact command_wf _ _ hs (guarded_wf _ _ _ hs (reply_wf _ _ _ (ite_wf (modTrib_wf _ _ hs) hs)))

theorem execTfStatus_wf (h : Hdr) {s : State} (hs : memoriesWf s = true) : outWf (execTfStatus h s) = true := query_wf _ _ hs

/-! ### References -/

theorem modRef_wf (k : Nat) (f : RefIn → RefIn) {s : State} (hs : memoriesWf s = true) : memoriesWf (modRef k f s) = true := hs

theorem drefMove_wf (k : Nat) (b : Bool) {s : State} (hs : memoriesWf s = true) :
    memoriesWf (drefMove k b s) = true := moveDefect_wf _ _ _ hs

theorem refFail_wf (k cause : Nat) {s : State} (hs : memoriesWf s = true) :
    memoriesWf (refFail k cause s) = true := ite_wf hs (drefMove_wf _ _ hs)

theorem failStep_wf (ms : List RefMeas) (k : Nat) {s : State} (hs : memoriesWf s = true) :
    memoriesWf (failStep ms s k) = true := by
  grind [failStep, modRef_wf, refFail_wf, memoriesWf_mk, win_wf, store_wf, flash_wf]

theorem soakStep_wf (k : Nat) {s : State} (hs : memoriesWf s = true) : memoriesWf (soakStep s k) = true := by
  grind [soakStep, drefMove_wf, modRef_wf, memoriesWf_mk, win_wf, store_wf, flash_wf]

theorem memSet_wf (l : List (Nat × Int)) {s : State} (hs : memoriesWf s = true) : memoriesWf (memSet l s) = true := hs

theorem learn_wf (ms : List RefMeas) {s : State} (hs : memoriesWf s = true) : memoriesWf (learn ms s) = true := by
  grind [learn, memSet_wf, memoriesWf_mk, win_wf, store_wf, flash_wf]

theorem calGather_wf {s : State} (hs : memoriesWf s = true) : memoriesWf (calGather s) = true := by
  grind [calGather, memoriesWf_mk, win_wf, store_wf, flash_wf]

theorem forget_wf {s : State} (hs : memoriesWf s = true) : memoriesWf (forget s) = true := hs

theorem switchNote_wf (new old : Option Nat) (now was : ClkSt) (cause : Nat) (slew : Int) {s : State} (hs : memoriesWf s = true) :
    memoriesWf (switchNote new old now was cause slew s) = true := notify_wf _ _ _ _ hs

theorem clockTo_wf (sel : Option Nat) (goal : ClkSt) (cause : Nat) {s : State} (hs : memoriesWf s = true) :
    memoriesWf (clockTo sel goal cause s) = true := switchNote_wf _ _ _ _ _ _ hs

theorem retarget_wf (t : Int) {s : State} (hs : memoriesWf s = true) : memoriesWf (retarget t s) = true := by
  unfold retarget
  split <;> exact hs

theorem followStep_wf {s : State} (hs : memoriesWf s = true) : memoriesWf (followStep s) = true := by
  grind [followStep, retarget_wf, memoriesWf_mk, win_wf, store_wf, flash_wf]

theorem selectStep_wf {s : State} (hs : memoriesWf s = true) : memoriesWf (selectStep s) = true := by
  grind [selectStep, clockTo_wf, forget_wf, memoriesWf_mk, win_wf, store_wf, flash_wf]

theorem disagreeNote_wf (a b : RefIn) (set : Bool) {s : State} (hs : memoriesWf s = true) :
    memoriesWf (disagreeNote a b set s) = true := notify_wf _ _ _ _ hs

theorem pairStep_wf (a b : RefIn) {s : State} (hs : memoriesWf s = true) : memoriesWf (pairStep a b s) = true := by
  grind [pairStep, disagreeNote_wf, memoriesWf_mk, win_wf, store_wf, flash_wf, memWriteN_wf, memFilter_wf]

theorem disagreeStep_wf {s : State} (hs : memoriesWf s = true) : memoriesWf (disagreeStep s) = true :=
  foldl_wf (fun _ p h => pairStep_wf p.1 p.2 h) _ hs

theorem refEvaluate_wf (ms : List RefMeas) {s : State} (hs : memoriesWf s = true) : memoriesWf (refEvaluate ms s) = true :=
  calGather_wf (learn_wf ms (disagreeStep_wf (followStep_wf (selectStep_wf (foldl_wf (fun _ k h => soakStep_wf k h) _
    (foldl_wf (fun _ k h => failStep_wf ms k h) _ hs))))))

theorem execClockSlewComplete_wf {s : State} (hs : memoriesWf s = true) :
    outWf (execClockSlewComplete s) = true := outWf_next (ite_wf (switchNote_wf _ _ _ _ _ _ hs) hs)

theorem execRefActivityLoss_wf (input : Byte) {s : State} (hs : memoriesWf s = true) :
    outWf (execRefActivityLoss input s) = true := by
  grind [execRefActivityLoss, modRef_wf, outWf_next, outWf_fault, memoriesWf_mk, win_wf, store_wf, flash_wf]

theorem refWake_wf {s : State} (hs : memoriesWf s = true) : memoriesWf (refWake s) = true := by
  grind [refWake, clockTo_wf, memoriesWf_mk, win_wf, store_wf, flash_wf]

theorem carryTod_wf {s : State} (hs : memoriesWf s = true) : memoriesWf (carryTod s) = true := hs

theorem newAnchor_wf (a : Anchor) {s : State} (hs : memoriesWf s = true) : memoriesWf (newAnchor a s) = true := by
  unfold newAnchor
  exact memoriesWf_mk (win_wf hs) (store_wf hs) (flash_wf hs)

theorem todReply_wf (h : Hdr) (t : Lts) {s : State} (hs : memoriesWf s = true) :
    memoriesWf (todReply h t s) = true := reply_wf _ _ _ hs

theorem execRefTodSet_wf (h : Hdr) (secs : Sf) (ns : Word) (anchor : Byte) (sf : Sf) (sym : Sym) {s : State} (hs : memoriesWf s
    = true) :
    outWf (execRefTodSet h secs ns anchor sf sym s) = true :=
  command_wf _ _ hs (guarded_wf _ _ _ hs (ite_wf (todReply_wf _ _ (newAnchor_wf _ hs)) hs))

theorem execTodAnchorTimeout_wf {s : State} (hs : memoriesWf s = true) : outWf (execTodAnchorTimeout s) = true :=
  outWf_next (foldl_wf (fun _ _ h => refuse_wf _ _ _ h) _ hs)

theorem execPpsEdge_wf (input : Byte) (offset : BitVec 16) (widthNs sinceLastNs : Nat) {s : State} (hs : memoriesWf s = true) :
    outWf (execPpsEdge input offset widthNs sinceLastNs s) = true := by
  have step (t : Lts) (u : State) (w : Hdr × Nat × Sf × Nat × Nat × Bool) (hu : memoriesWf u = true) :
      memoriesWf (answerLate w.2.2.2.2.2 (todReply w.1 t) (newAnchor ⟨w.2.2.1, w.2.2.2.1, t⟩ u)) = true :=
    have hn := newAnchor_wf ⟨w.2.2.1, w.2.2.2.1, t⟩ hu
    answerLate_wf _ fun _ => todReply_wf _ _ (memoriesWf_mk (win_wf hn) (store_wf hn) (flash_wf hn))
  unfold execPpsEdge
  dsimp only
  split
  · refine outWf_next (ite_wf (foldl_wf (step _) _ ?_) hs)
    split
    all_goals exact memoriesWf_mk (win_wf hs) (store_wf hs) (flash_wf hs)
  · exact outWf_fault _

theorem ppsStep_wf (kind : Nat) (ns : Int) {s : State} (hs : memoriesWf s = true) :
    memoriesWf (ppsStep kind ns s) = true := notify_wf _ _ _ _ hs

theorem execPpsoutEdge_wf (errorNs : Int) {s : State} (hs : memoriesWf s = true) : outWf (execPpsoutEdge errorNs s) = true := by
  grind [execPpsoutEdge, ppsStep_wf, outWf_next, outWf_fault, memoriesWf_mk, win_wf, store_wf, flash_wf]

theorem execRefInputConfig_wf (h : Hdr) (input prio freq : Byte) (tol drift off : Half) {s : State} (hs : memoriesWf s = true) :
    outWf (execRefInputConfig h input prio freq tol drift off s) = true :=
  command_wf _ _ hs (guarded_wf _ _ _ hs (reply_wf _ _ _ hs))

theorem execRefSelect_wf (h : Hdr) (mode input flags : Byte) {s : State} (hs : memoriesWf s = true) :
    outWf (execRefSelect h mode input flags s) = true := command_wf _ _ hs (guarded_wf _ _ _ hs (reply_wf _ _ _ hs))

theorem execRefStatus_wf (h : Hdr) {s : State} (hs : memoriesWf s = true) : outWf (execRefStatus h s) = true := query_wf _ _ hs

theorem execRefInputStatus_wf (h : Hdr) (input : Byte) {s : State} (hs : memoriesWf s = true) :
    outWf (execRefInputStatus h input s) = true := by
  unfold execRefInputStatus
  split
  · exact command_wf _ _ hs (refuse_wf _ _ _ hs)
  · exact command_wf _ _ hs (reply_wf _ _ _ hs)

theorem execRefOutputConfig_wf (h : Hdr) (output source lane freq flags : Byte) {s : State} (hs : memoriesWf s = true) :
    outWf (execRefOutputConfig h output source lane freq flags s) = true :=
  command_wf _ _ hs (guarded_wf _ _ _ hs (done_wf _ _ hs))

theorem execRefPpsConfig_wf (h : Hdr) (mode input : Byte) (offset width : Word) {s : State} (hs : memoriesWf s = true) :
    outWf (execRefPpsConfig h mode input offset width s) = true := command_wf _ _ hs (guarded_wf _ _ _ hs (done_wf _ _ hs))

theorem execRefTodGet_wf (h : Hdr) {s : State} (hs : memoriesWf s = true) : outWf (execRefTodGet h s) = true := query_wf _ _ hs

/-! ### History -/

theorem capStart_wf (slot cause : Nat) (trig : Lts) {s : State} (hs : memoriesWf s = true) :
    memoriesWf (capStart slot cause trig s) = true := hs

theorem capNote_wf (slot state cause : Nat) (t : Lts) {s : State} (hs : memoriesWf s = true) :
    memoriesWf (capNote slot state cause t s) = true := notifyAt_wf _ _ _ _ _ hs

theorem capTrigger_wf (cause : Nat) (t : Lts) {s : State} (hs : memoriesWf s = true) :
    memoriesWf (capTrigger cause t s) = true := by
  grind [capTrigger, capStart_wf, memoriesWf_mk, win_wf, store_wf, flash_wf]

theorem capEnd_wf (state : Nat) {s : State} (hs : memoriesWf s = true) : memoriesWf (capEnd state s) = true := hs

theorem capHeaderKept_wf {s : State} (hs : memoriesWf s = true) : memoriesWf (capHeaderKept s) = true := hs

theorem capAbort_wf (discardFill : Bool) {s : State} (hs : memoriesWf s = true) :
    memoriesWf (capAbort discardFill s) = true := by
  grind [capAbort, capEnd_wf, capHeaderKept_wf, capNote_wf, memoriesWf_mk, win_wf, store_wf, flash_wf]

theorem capModeChange_wf {s : State} (hs : memoriesWf s = true) :
    memoriesWf (capModeChange s) = true := ite_wf (capAbort_wf _ hs) hs

theorem trigNote_wf (exc : Bool) (t : Lts) {s : State} (hs : memoriesWf s = true) : memoriesWf (trigNote exc t s) = true := by
  grind [trigNote, notifyAt_wf, memoriesWf_mk, win_wf, store_wf, flash_wf]

theorem trigFire_wf (exc : Bool) (t : Lts) {s : State} (hs : memoriesWf s = true) :
    memoriesWf (trigFire exc t s) = true := capTrigger_wf _ _ (trigNote_wf _ _ (freezeTrip_wf _ hs))

theorem trigStep_wf (exc : Bool) (valid present : Bool) (t : Lts) {s : State} (hs : memoriesWf s = true) :
    memoriesWf (trigStep exc valid present t s) = true := by
  grind [trigStep, trigFire_wf, memoriesWf_mk, win_wf, store_wf, flash_wf]

theorem senseTake_wf (i : SenseIn) (valid : Bool) (t : Lts) {s : State} (hs : memoriesWf s = true) :
    memoriesWf (senseTake i valid t s) = true := by
  grind [senseTake, trigStep_wf, memoriesWf_mk, win_wf, store_wf, flash_wf]

theorem execSenseInput_wf (i : SenseIn) (rx : RxAt) {s : State} (hs : memoriesWf s = true) :
    outWf (execSenseInput i rx s) = true := by
  grind [execSenseInput, senseTake_wf, trainWord_wf, outWf_next, outWf_fault, memoriesWf_mk, win_wf, store_wf, flash_wf]

theorem execSenseSampleWrite_wf (s1 s2 s3 phaseRate : Int) (dgd : Nat) {s : State} (hs : memoriesWf s = true) :
    outWf (execSenseSampleWrite s1 s2 s3 phaseRate dgd s) = true := by
  unfold execSenseSampleWrite
  refine outWf_next ?_
  split
  · split
    · exact hs
    · exact storeWrite_wf (sampleAddr s.hs.sampleN) _ hs
  · split <;> exact hs

theorem execHistoryRecordClose_wf {s : State} (hs : memoriesWf s = true) : outWf (execHistoryRecordClose s) = true := by
  have h1 := storeWrite_wf (recordAddr s.hs.seq) (recordBytes s) hs
  unfold execHistoryRecordClose
  exact outWf_next (ite_wf hs (ite_wf (memoriesWf_mk (win_wf h1) (store_wf h1) (flash_wf h1))
    (memoriesWf_mk (win_wf hs) (store_wf hs) (flash_wf hs))))

theorem execCaptureFillDone_wf (codes : List Byte) {s : State} (hs : memoriesWf s = true) :
    outWf (execCaptureFillDone codes s) = true := by
  unfold execCaptureFillDone
  refine outWf_next ?_
  split <;> exact hs

theorem execCaptureCopyDone_wf {s : State} (hs : memoriesWf s = true) : outWf (execCaptureCopyDone s) = true := by
  grind [execCaptureCopyDone, capEnd_wf, capHeaderKept_wf, capNote_wf, storeWrite_wf, outWf_next, outWf_fault,
    memoriesWf_mk, win_wf, store_wf, flash_wf]

theorem rollWindow_wf {s : State} (hs : memoriesWf s = true) : memoriesWf (rollWindow s) = true := ite_wf hs hs

theorem lapEnd_wf {s : State} (hs : memoriesWf s = true) : memoriesWf (lapEnd s) = true := ite_wf (notify_wf _ _ _ _ hs) hs

theorem execCruiserPageCheck_wf (corrected : Nat) (syndromeZero decodable : Bool) {s : State} (hs : memoriesWf s = true) :
    outWf (execCruiserPageCheck corrected syndromeZero decodable s) = true := by
  grind [execCruiserPageCheck, lapEnd_wf, poisonPage_wf, rollWindow_wf, outWf_next, outWf_fault, memoriesWf_mk, win_wf,
    store_wf, flash_wf]

theorem execCruiserBoost_wf {s : State} (hs : memoriesWf s = true) : outWf (execCruiserBoost s) = true := by
  grind [execCruiserBoost, rollWindow_wf, outWf_next, outWf_fault, memoriesWf_mk, win_wf, store_wf, flash_wf]

theorem regionEmpty_wf (r : Nat) {s : State} (hs : memoriesWf s = true) : memoriesWf (regionEmpty r s) = true := by
  grind [regionEmpty, regionClear_wf, memoriesWf_mk, win_wf, store_wf, flash_wf]

theorem execRegionInitDone_wf {s : State} (hs : memoriesWf s = true) : outWf (execRegionInitDone s) = true := by
  refine outWf_next (ite_wf (foldl_wf (fun _ r h => ?_) _ (foldl_wf (fun _ r h => regionEmpty_wf r.1 h) _ hs)) hs)
  split
  · exact answerLate_wf _ fun _ => done_wf _ _ h
  · exact h

theorem storePowerUp_wf {s : State} (hs : memoriesWf s = true) : memoriesWf (storePowerUp s) = true :=
  memoriesWf_mk (win_wf hs) rfl (flash_wf hs)

theorem execHsHistory_wf (h : Hdr) (start : Byte) {s : State} (hs : memoriesWf s = true) :
    outWf (execHsHistory h start s) = true := command_wf _ _ hs (guarded_wf _ _ _ hs (reply_wf _ _ _ hs))

theorem execHsHistoryRead_wf (h : Hdr) (first : Dword) (count : Byte) {s : State} (hs : memoriesWf s = true) :
    outWf (execHsHistoryRead h first count s) = true := command_wf _ _ hs (guarded_wf _ _ _ hs (respond_wf _ _ _ _ _ hs))

theorem execHsSenseConfig_wf (h : Hdr) (rate : Byte) {s : State} (hs : memoriesWf s = true) :
    outWf (execHsSenseConfig h rate s) = true := by
  grind [execHsSenseConfig, command_wf, guarded_wf, reply_wf, senseReset_wf, outWf_next, outWf_fault, memoriesWf_mk, win_wf,
    store_wf, flash_wf]

theorem execHsSenseRead_wf (h : Hdr) (first : Dword) (count : Half) {s : State} (hs : memoriesWf s = true) :
    outWf (execHsSenseRead h first count s) = true := command_wf _ _ hs (guarded_wf _ _ _ hs (respond_wf _ _ _ _ _ hs))

theorem execHsTriggerConfig_wf (h : Hdr) (enables m action : Byte) (rateThr : Word) (excThr : Half) {s : State} (hs : memoriesWf
    s = true) :
    outWf (execHsTriggerConfig h enables m action rateThr excThr s) = true :=
  command_wf _ _ hs (guarded_wf _ _ _ hs (done_wf _ _ hs))

theorem execHsCaptureCmd_wf (h : Hdr) (action flags : Byte) {s : State} (hs : memoriesWf s = true) :
    outWf (execHsCaptureCmd h action flags s) = true := by
  grind [execHsCaptureCmd, capStart_wf, command_wf, guarded_wf, reply_wf, outWf_next, outWf_fault, memoriesWf_mk, win_wf,
    store_wf, flash_wf]

theorem execHsCaptureRead_wf (h : Hdr) (slot flags : Byte) (offset : Dword) {s : State} (hs : memoriesWf s = true) :
    outWf (execHsCaptureRead h slot flags offset s) = true := command_wf _ _ hs (guarded_wf _ _ _ hs (respond_wf _ _ _ _ _ hs))

theorem execHsCruiser_wf (h : Hdr) (rate : Half) (flags : Byte) {s : State} (hs : memoriesWf s = true) :
    outWf (execHsCruiser h rate flags s) = true := command_wf _ _ hs (guarded_wf _ _ _ hs (done_wf _ _ hs))

theorem execHsStoreStatus_wf (h : Hdr) {s : State} (hs : memoriesWf s = true) :
    outWf (execHsStoreStatus h s) = true := query_wf _ _ hs

theorem execHsRegionInit_wf (h : Hdr) (region : Byte) {s : State} (hs : memoriesWf s = true) :
    outWf (execHsRegionInit h region s) = true := command_wf _ _ hs (guarded_wf _ _ _ hs hs)

/-! ### Health -/

theorem advanceRot_wf (conv : Conv) {s : State} (hs : memoriesWf s = true) : memoriesWf (advanceRot conv s) = true := by
  cases conv
  all_goals exact hs

theorem putSwap_wf (conv : Conv) (w : Option Swap) {s : State} (hs : memoriesWf s = true) :
    memoriesWf (putSwap conv w s) = true := by
  cases conv
  all_goals exact hs

theorem putCal_wf (conv : Conv) (c : Option (BitVec 2 × Nat × Sf)) {s : State} (hs : memoriesWf s = true) :
    memoriesWf (putCal conv c s) = true := by
  cases conv
  all_goals exact hs

theorem putRedo_wf (conv : Conv) (b : Bool) {s : State} (hs : memoriesWf s = true) : memoriesWf (putRedo conv b s) = true := by
  cases conv
  all_goals exact hs

theorem dropAsked_wf (conv : Conv) (ch : BitVec 2) (i : Nat) {s : State} (hs : memoriesWf s = true) :
    memoriesWf (dropAsked conv ch i s) = true := hs

theorem openSlot_wf (conv : Conv) {s : State} (hs : memoriesWf s = true) : memoriesWf (openSlot conv s) = true := by
  grind [openSlot, advanceRot_wf, putCal_wf, putRedo_wf, putSwap_wf, memoriesWf_mk, win_wf, store_wf, flash_wf]

theorem skipSlot_wf (conv : Conv) {s : State} (hs : memoriesWf s = true) : memoriesWf (skipSlot conv s) = true := by
  cases conv
  all_goals exact hs

theorem nextSlot_wf (conv : Conv) {s : State} (hs : memoriesWf s = true) : memoriesWf (nextSlot conv s) = true := by
  grind [nextSlot, openSlot_wf, skipSlot_wf, memoriesWf_mk, win_wf, store_wf, flash_wf]

theorem execCalSlotOpen_wf {s : State} (hs : memoriesWf s = true) : outWf (execCalSlotOpen s) = true := by
  grind [execCalSlotOpen, nextSlot_wf, outWf_next, outWf_fault, memoriesWf_mk, win_wf, store_wf, flash_wf]

theorem execSliceSwap_wf (conv : Conv) {s : State} (hs : memoriesWf s = true) : outWf (execSliceSwap conv s) = true := by
  grind [execSliceSwap, advanceRot_wf, dropAsked_wf, putCal_wf, putSwap_wf, setChan_wf, outWf_next, outWf_fault,
    memoriesWf_mk, win_wf, store_wf, flash_wf]

theorem execSwapSlotSkip_wf (conv : Conv) {s : State} (hs : memoriesWf s = true) : outWf (execSwapSlotSkip conv s) = true := by
  grind [execSwapSlotSkip, skipSlot_wf, outWf_next, outWf_fault, memoriesWf_mk, win_wf, store_wf, flash_wf]

theorem staleNote_wf (dom item : Nat) (set : Bool) {s : State} (hs : memoriesWf s = true) :
    memoriesWf (staleNote dom item set s) = true := ite_wf (notify_wf _ _ _ _ hs) hs

theorem execSliceCalDone_wf (conv : Conv) (offset gain skew noise : Int) {s : State} (hs : memoriesWf s = true) :
    outWf (execSliceCalDone conv offset gain skew noise s) = true := by
  grind [execSliceCalDone, logEntry_wf, putCal_wf, setChan_wf, sliceEvent_wf, staleNote_wf, outWf_next, outWf_fault,
    memoriesWf_mk, win_wf, store_wf, flash_wf]

theorem stopSwaps_wf {s : State} (hs : memoriesWf s = true) : memoriesWf (stopSwaps s) = true := hs

theorem modItem_wf (dom item : Nat) (f : CalItem → CalItem) {s : State} (hs : memoriesWf s = true) :
    memoriesWf (modItem dom item f s) = true := ite_wf (setChan_wf _ _ _ hs) hs

theorem itemDone_wf (dom item : Nat) {s : State} (hs : memoriesWf s = true) : memoriesWf (itemDone dom item s) = true := by
  grind [itemDone, modItem_wf, staleNote_wf, memoriesWf_mk, win_wf, store_wf, flash_wf]

theorem execCalibrationStale_wf (dom : Byte) (item : Half) {s : State} (hs : memoriesWf s = true) :
    outWf (execCalibrationStale dom item s) = true := by
  grind [execCalibrationStale, modItem_wf, staleNote_wf, outWf_next, outWf_fault, memoriesWf_mk, win_wf, store_wf, flash_wf]

theorem allCalibrated_wf {s : State} (hs : memoriesWf s = true) : memoriesWf (allCalibrated s) = true :=
  foldl_wf (fun _ d h => foldl_wf (fun _ i h => itemDone_wf d i h) _ h) _ hs

theorem monTrim_wf (ch : Nat) {s : State} (hs : memoriesWf s = true) : memoriesWf (monTrim ch s) = true := hs

theorem txTrim_wf {s : State} (hs : memoriesWf s = true) : memoriesWf (txTrim s) = true := hs

theorem inServiceCal_wf {s : State} (hs : memoriesWf s = true) : memoriesWf (inServiceCal s) = true := by
  have whole (d : Nat) {s : State} (hs : memoriesWf s = true) :
      memoriesWf ((List.range (domItems d)).foldl (fun s i => itemDone d i s) s) = true :=
    foldl_wf (fun _ i h => itemDone_wf d i h) _ hs
  have h4 : memoriesWf ((List.range 32).foldl (fun s i => monTrim i s)
      ((List.range (domItems 4)).foldl (fun s i => itemDone 4 i s) s)) = true := foldl_wf (fun _ i h => monTrim_wf i h) _ (whole 4 hs)
  unfold inServiceCal
  dsimp only
  generalize (List.range 32).foldl (fun s i => monTrim i s) ((List.range (domItems 4)).foldl (fun s i => itemDone 4 i s) s) = a at h4
  grind [txTrim_wf, drawMany_wf]

theorem execResonatorCalUpdate_wf (input : Byte) {s : State} (hs : memoriesWf s = true) :
    outWf (execResonatorCalUpdate input s) = true := by
  grind [execResonatorCalUpdate, itemDone_wf, outWf_next, outWf_fault, memoriesWf_mk, win_wf, store_wf, flash_wf]

theorem monConvert_wf (ch raw : Nat) (over_ host : Bool) {s : State} (hs : memoriesWf s = true) :
    memoriesWf (monConvert ch raw over_ host s) = true := hs

theorem execMonConversion_wf (raw : Nat) (overRange : Bool) {s : State} (hs : memoriesWf s = true) :
    outWf (execMonConversion raw overRange s) = true := by
  grind [execMonConversion, monConvert_wf, outWf_next, outWf_fault, memoriesWf_mk, win_wf, store_wf, flash_wf]

theorem gatherTallies_wf {s : State} (hs : memoriesWf s = true) : memoriesWf (gatherTallies s) = true := by
  unfold gatherTallies
  split <;> exact hs

theorem intervalNote_wf (day : Bool) (invalid : Bool) (cause : Nat) (start : Sf) {s : State} (hs : memoriesWf s = true) :
    memoriesWf (intervalNote day invalid cause start s) = true := notify_wf _ _ _ _ hs

theorem closeQuarter_wf (sf : Sf) {s : State} (hs : memoriesWf s = true) :
    memoriesWf (closeQuarter sf s) = true := intervalNote_wf _ _ _ _ hs

theorem closeDay_wf (sf : Sf) {s : State} (hs : memoriesWf s = true) :
    memoriesWf (closeDay sf s) = true := intervalNote_wf _ _ _ _ hs

theorem execIntervalBoundary_wf (day : Bool) {s : State} (hs : memoriesWf s = true) :
    outWf (execIntervalBoundary day s) = true := by
  grind [execIntervalBoundary, closeDay_wf, closeQuarter_wf, gatherTallies_wf, outWf_next, outWf_fault, memoriesWf_mk,
    win_wf, store_wf, flash_wf]

theorem blazePut_wf (bs : List Byte) {s : State} (hs : memoriesWf s = true) : memoriesWf (blazePut bs s) = true := hs

theorem blazeCodeword_wf (bs : List Byte) (mismatch : Bool) {s : State} (hs : memoriesWf s = true) :
    memoriesWf (blazeCodeword bs mismatch s) = true := by
  grind [blazeCodeword, blazePut_wf, freezeTrip_wf, notify_wf, memoriesWf_mk, win_wf, store_wf, flash_wf]

theorem blazeInstr_wf (bs : List Byte) {s : State} (hs : memoriesWf s = true) : memoriesWf (blazeInstr bs s) = true := by
  unfold blazeInstr
  split <;> exact hs

theorem execBlazeSample_wf (cw : Option (List Byte × Bool)) (ins : Option (List Byte)) {s : State} (hs : memoriesWf s = true) :
    outWf (execBlazeSample cw ins s) = true := by
  unfold execBlazeSample
  grind [outWf_next, blazeCodeword_wf, blazeInstr_wf]

theorem agePause_wf (scan : Bool) {s : State} (hs : memoriesWf s = true) : memoriesWf (agePause scan s) = true := by
  unfold agePause
  split <;> exact hs

theorem execAgeAccrue_wf (temp : Int) {s : State} (hs : memoriesWf s = true) : outWf (execAgeAccrue temp s) = true := by
  grind [execAgeAccrue, agePause_wf, outWf_next, outWf_fault, memoriesWf_mk, win_wf, store_wf, flash_wf]

theorem ageWarn_wf (metric days : Nat) {s : State} (hs : memoriesWf s = true) :
    memoriesWf (ageWarn metric days s) = true := ite_wf (notify_wf _ _ _ _ hs) hs

theorem warnStep_wf (k : Nat) {s : State} (hs : memoriesWf s = true) : memoriesWf (warnStep s k) = true := by
  grind [warnStep, ageWarn_wf, memoriesWf_mk, win_wf, store_wf, flash_wf]

theorem coreStep_wf (n : Nat) {s : State} (hs : memoriesWf s = true) : memoriesWf (coreStep n s) = true := hs

theorem guardband_wf {s : State} (hs : memoriesWf s = true) : memoriesWf (guardband s) = true := by
  grind [guardband, coreStep_wf, memoriesWf_mk, win_wf, store_wf, flash_wf]

theorem agePoints_wf {s : State} (hs : memoriesWf s = true) : memoriesWf (agePoints s) = true :=
  memoriesWf_mk (win_wf hs) (store_wf hs) ((dated_mem _ _ _).symm ▸ flash_wf hs)

theorem execAgeingDaily_wf {s : State} (hs : memoriesWf s = true) : outWf (execAgeingDaily s) = true := by
  have h1 := guardband_wf (agePoints_wf hs)
  unfold execAgeingDaily
  generalize guardband (agePoints s) = s0 at h1 
  have h2 := foldl_wf (f := warnStep) (fun _ k h => warnStep_wf k h) (List.range 8)
    (s := { s0 with health := { s0.health with slack := none, emergency := false, dayDue := false } })
    (memoriesWf_mk (win_wf h1) (store_wf h1) (flash_wf h1))
  dsimp only
  generalize (List.range 8).foldl warnStep
    { s0 with health := { s0.health with slack := none, emergency := false, dayDue := false } } = s2 at h2
  exact outWf_next (ite_wf (ite_wf (ageWarn_wf _ _ (memoriesWf_mk (win_wf h2) (store_wf h2) (flash_wf h2))) h2) hs)

theorem execCoreSlackEmergency_wf {s : State} (hs : memoriesWf s = true) : outWf (execCoreSlackEmergency s) = true := by
  grind [execCoreSlackEmergency, coreStep_wf, logEntry_wf, outWf_next, outWf_fault, memoriesWf_mk, win_wf, store_wf,
    flash_wf]

theorem execCalStatus_wf (h : Hdr) (dom : Byte) (item : Half) {s : State} (hs : memoriesWf s = true) :
    outWf (execCalStatus h dom item s) = true := command_wf _ _ hs (guarded_wf _ _ _ hs (reply_wf _ _ _ hs))

theorem execCalConfig_wf (h : Hdr) (dom flags stale : Byte) {s : State} (hs : memoriesWf s = true) :
    outWf (execCalConfig h dom flags stale s) = true := command_wf _ _ hs (guarded_wf _ _ _ hs (done_wf _ _ hs))

theorem execCalRun_wf (h : Hdr) (dom : Byte) (slice_ : Half) {s : State} (hs : memoriesWf s = true) :
    outWf (execCalRun h dom slice_ s) = true := command_wf _ _ hs (guarded_wf _ _ _ hs (reply_wf _ _ _ hs))

theorem execMonConfig_wf (h : Hdr) (mode : Byte) (mask : Word) {s : State} (hs : memoriesWf s = true) :
    outWf (execMonConfig h mode mask s) = true := command_wf _ _ hs (guarded_wf _ _ _ hs (done_wf _ _ hs))

theorem execMonChannel_wf (h : Hdr) (ch ref range flags : Byte) (offset gain : Half) {s : State} (hs : memoriesWf s = true) :
    outWf (execMonChannel h ch ref range flags offset gain s) = true := command_wf _ _ hs (guarded_wf _ _ _ hs (done_wf _ _ hs))

theorem execMonTable_wf (h : Hdr) (entries : Byte) {s : State} (hs : memoriesWf s = true) :
    outWf (execMonTable h entries s) = true := command_wf _ _ hs (guarded_wf _ _ _ hs (done_wf _ _ hs))

theorem execMonRead_wf (h : Hdr) (src count : Byte) {s : State} (hs : memoriesWf s = true) :
    outWf (execMonRead h src count s) = true := by
  grind [execMonRead, command_wf, guarded_wf, respond_wf, outWf_next, outWf_fault, memoriesWf_mk, win_wf, store_wf,
    flash_wf]

theorem execAgeReport_wf (h : Hdr) (metric : Byte) {s : State} (hs : memoriesWf s = true) :
    outWf (execAgeReport h metric s) = true := by
  grind [execAgeReport, command_wf, guarded_wf, nextDraw_wf, reply_wf, outWf_next, outWf_fault, memoriesWf_mk, win_wf,
    store_wf, flash_wf]

theorem execAgeConfig_wf (h : Hdr) (margin : Half) (flags : Byte) {s : State} (hs : memoriesWf s = true) :
    outWf (execAgeConfig h margin flags s) = true := command_wf _ _ hs (guarded_wf _ _ _ hs (done_wf _ _ hs))

theorem execTallyRead_wf (h : Hdr) (id : Half) (bin : Byte) {s : State} (hs : memoriesWf s = true) :
    outWf (execTallyRead h id bin s) = true := by
  unfold execTallyRead
  repeat' split
  all_goals refine command_wf _ _ hs ?_
  · exact refuse_wf _ _ _ hs
  · exact reply_wf _ _ _ hs
  · exact refuse_wf _ _ _ hs
  · exact refuse_wf _ _ _ hs
  · exact reply_wf _ _ _ hs
  · exact reply_wf _ _ _ hs

theorem execTallyClear_wf (h : Hdr) (id : Half) {s : State} (hs : memoriesWf s = true) :
    outWf (execTallyClear h id s) = true := command_wf _ _ hs (guarded_wf _ _ _ hs (done_wf _ _ hs))

theorem execBlazeConfig_wf (h : Hdr) (period : Half) (flags : Byte) {s : State} (hs : memoriesWf s = true) :
    outWf (execBlazeConfig h period flags s) = true := command_wf _ _ hs (guarded_wf _ _ _ hs (done_wf _ _ hs))

theorem execBlazeRead_wf (h : Hdr) (first : Word) (count : Byte) {s : State} (hs : memoriesWf s = true) :
    outWf (execBlazeRead h first count s) = true := by
  refine command_wf _ _ hs (guarded_wf _ _ _ hs ?_)
  dsimp only
  split
  · exact refuse_wf _ _ _ hs
  · exact respond_wf _ _ _ _ _ hs

/-! ### Requests -/

theorem stateEvent_wf (old new : Nat) {s : State} (hs : memoriesWf s = true) :
    memoriesWf (stateEvent old new s) = true := notify_wf _ _ _ _ hs

theorem reached_wf (old : Nat) (st : PState) {s : State} (hs : memoriesWf s = true) :
    memoriesWf (reached old st s) = true := stateEvent_wf _ _ (setPhase_wf _ hs)

theorem pwrReply_wf (r : PwrReq) (code : Nat) (named : Bool) {s : State} (hs : memoriesWf s = true) :
    memoriesWf (pwrReply r code named s) = true := by
  grind [pwrReply, answerLate_wf, reply_wf, memoriesWf_mk, win_wf, store_wf, flash_wf]

theorem pwrRefuse_wf (r : PwrReq) (st : St) {s : State} (hs : memoriesWf s = true) : memoriesWf (pwrRefuse r st s) = true := by
  grind [pwrRefuse, refuse_wf, memoriesWf_mk, win_wf, store_wf, flash_wf]

theorem holdRequest_wf (r : PwrReq) {s : State} (hs : memoriesWf s = true) : memoriesWf (holdRequest r s) = true := by
  grind [holdRequest, pwrRefuse_wf, memoriesWf_mk, win_wf, store_wf, flash_wf]

theorem startRequest_wf (r : PwrReq) {s : State} (hs : memoriesWf s = true) : memoriesWf (startRequest r s) = true := by
  unfold startRequest
  dsimp only
  split
  · exact hs
  · split
    · exact pwrReply_wf _ _ _ hs
    · split
      · exact pwrReply_wf _ _ _ (reached_wf _ _ hs)
      · exact pwrReply_wf _ _ _ (reached_wf _ _ hs)
      · exact ite_wf (pwrRefuse_wf _ _ hs) hs
      · exact ite_wf (pwrRefuse_wf _ _ hs) hs
      · exact hs
      · exact hs
      · exact hs

theorem powerRequest_wf (r : PwrReq) {s : State} (hs : memoriesWf s = true) :
    memoriesWf (powerRequest r s) = true := ite_wf (holdRequest_wf _ hs) (startRequest_wf _ hs)

theorem serveHeld_wf {s : State} (hs : memoriesWf s = true) : memoriesWf (serveHeld s) = true := by
  grind [serveHeld, startRequest_wf, memoriesWf_mk, win_wf, store_wf, flash_wf]

/-! ### LineModes -/

theorem unanswered_wf {f : State → Option Out} (hf : ∀ u o, memoriesWf u = true → f u = some o → outWf o = true) {s : State}
    (hs : memoriesWf s = true) : memoriesWf (unanswered f s).2 = true := by
  unfold unanswered
  dsimp only
  split
  · rename_i t ht
    have h1 : memoriesWf t = true := hf _ (.next t) (memoriesWf_mk (win_wf hs) (store_wf hs) (flash_wf hs)) ht
    exact drainResponses_wf _ (memoriesWf_mk (win_wf h1) (store_wf h1) (flash_wf h1))
  · exact hs

theorem bundleExec_wf (i : Instr) (u : State) (o : Out) (hs : memoriesWf u = true) (h : bundleExec i u = some o) : outWf o = true := by
  unfold bundleExec at h
  split at h
  all_goals cases h
  · exact execTxLaser_wf _ _ _ _ _ hs
  · exact execTxEnable_wf _ _ hs
  · exact execTxShaping_wf _ _ _ _ _ _ _ hs
  · exact execTxStatus_wf _ hs
  · exact execTxSafety_wf _ _ _ _ hs
  · exact execTxSlices_wf _ _ hs
  · exact execTribDefine_wf _ _ _ _ _ hs
  · exact execTribRemove_wf _ _ hs
  · exact execTribStatus_wf _ _ _ hs
  · exact execTfStatus_wf _ hs
  · exact execKeyAssign_wf _ _ _ _ hs
  · exact execKeyActivate_wf _ _ hs
  · exact execCiphTribMode_wf _ _ _ hs
  · exact execHlConfig_wf _ _ _ _ _ _ _ _ hs
  · exact execHlStatus_wf _ hs
  · exact execHlLaneStatus_wf _ _ hs
  · exact execHlPort_wf _ _ _ hs
  · exact execHlPower_wf _ _ hs
  · exact execHlLoopback_wf _ _ _ hs
  · exact execHlRetrain_wf _ _ hs

theorem bundleCheck_wf (q : BitVec 2) : ∀ (es : List (List Byte)) (k : Nat) {s : State} {x : List Instr × State}, memoriesWf s = true →
    bundleCheck q k es s = .ok x → memoriesWf x.2 = true
  | [], _, _, _, hs, h => by 
    rw [bundleCheck] at h
    cases h
    exact hs
  | b :: t, k, s, x, hs, h => by
    unfold bundleCheck at h
    split at h
    · cases h
    · rename_i i _
      dsimp only at h
      split at h
      · cases h
      · split at h
        · rename_i y hy
          cases h
          exact bundleCheck_wf q t (k + 1) (x := y) (unanswered_wf (bundleExec_wf i) hs) hy
        · cases h

theorem bundleApply_wf (is : List Instr) {s : State} (hs : memoriesWf s = true) : memoriesWf (bundleApply is s) = true :=
  foldl_wf (fun _ i h => unanswered_wf (bundleExec_wf i) h) _ hs

theorem finishRestarts_wf {s : State} (hs : memoriesWf s = true) : memoriesWf (finishRestarts s) = true := by
  grind [finishRestarts, answerLate_wf, done_wf, reply_wf, startRx_wf, startTx_wf, txAdvance_wf, txStream_wf, memoriesWf_mk,
    win_wf, store_wf, flash_wf]

theorem changeSame_wf (ch : Change) {s : State} (hs : memoriesWf s = true) :
    memoriesWf (changeSame ch s) = true := fecDrop_wf _ _ hs

theorem changeStop_wf (ch : Change) {s : State} (hs : memoriesWf s = true) : memoriesWf (changeStop ch s) = true := by
  grind [changeStop, stopRx_wf, stopTx_wf, txBlank_wf, txDark_wf, txNull_wf, memoriesWf_mk, win_wf, store_wf, flash_wf]

theorem changeBegin_wf (ch : Change) {s : State} (hs : memoriesWf s = true) : memoriesWf (changeBegin ch s) = true := by
  have h0 : memoriesWf (if inWatch s && !ch.watch then reached 5 .run s else s) = true := ite_wf (reached_wf _ _ hs) hs
  unfold changeBegin
  dsimp only
  generalize (if inWatch s && !ch.watch then reached 5 .run s else s) = s0 at h0 ⊢
  have h2 : ∀ {u : State}, memoriesWf u = true → memoriesWf (if ch.sameB then changeSame ch u else changeStop ch u) = true :=
    fun h => ite_wf (changeSame_wf ch h) (changeStop_wf ch h)
  have h3 := h2 (incomplete_wf 1 (histPartial_wf (capModeChange_wf (s := { s0 with
    line := { s0.line with lastC := ch.c, change := some { ch with phase := 1 } },
    q := { s0.q with pend := s0.q.pend.map (deferDue ch) } }) h0)))
  exact ite_wf (setPhase_wf _ (txStream_wf h3)) (txStream_wf h3)

theorem changeLanes_wf (was : Bool) {s : State} (hs : memoriesWf s = true) : memoriesWf (changeLanes was s) = true := by
  grind [changeLanes, linkHold_wf, linkReturn_wf, zrPorts_wf, memoriesWf_mk, win_wf, store_wf, flash_wf]

theorem execModeChangeStart_wf {s : State} (hs : memoriesWf s = true) : outWf (execModeChangeStart s) = true := by
  grind [execModeChangeStart, bundleApply_wf, changeBegin_wf, changeLanes_wf, finishRestarts_wf, outWf_next, outWf_fault,
    memoriesWf_mk, win_wf, store_wf, flash_wf]

theorem rateTo_wf (rate : Nat) {s : State} (hs : memoriesWf s = true) : memoriesWf (rateTo rate s) = true := by
  unfold rateTo
  split <;> exact hs

theorem changeLoad_wf (ch : Change) {s : State} (hs : memoriesWf s = true) : memoriesWf (changeLoad ch s) = true := by
  grind [changeLoad, rateTo_wf, startRx_wf, startTx_wf, txAdvance_wf, txStream_wf, memoriesWf_mk, win_wf, store_wf,
    flash_wf]

theorem execModeChangeLoad_wf {s : State} (hs : memoriesWf s = true) : outWf (execModeChangeLoad s) = true := by
  grind [execModeChangeLoad, changeLoad_wf, finishRestarts_wf, outWf_next, outWf_fault, memoriesWf_mk, win_wf, store_wf,
    flash_wf]

theorem modeReply_wf (h : Hdr) (ch : Change) {s : State} (hs : memoriesWf s = true) :
    memoriesWf (modeReply h ch s) = true := reply_wf _ _ _ hs

theorem changeAnswer_wf (ch : Change) {s : State} (hs : memoriesWf s = true) : memoriesWf (changeAnswer ch s) = true := by
  grind [changeAnswer, answerLate_wf, modeReply_wf, memoriesWf_mk, win_wf, store_wf, flash_wf]

theorem execModeChangeComplete_wf {s : State} (hs : memoriesWf s = true) : outWf (execModeChangeComplete s) = true := by
  grind [execModeChangeComplete, changeAnswer_wf, serveHeld_wf, outWf_next, outWf_fault, memoriesWf_mk, win_wf, store_wf,
    flash_wf]

theorem changeInterrupt_wf {s : State} (hs : memoriesWf s = true) : memoriesWf (changeInterrupt s) = true := by
  grind [changeInterrupt, changeAnswer_wf, pwrRefuse_wf, refuse_wf, memoriesWf_mk, win_wf, store_wf, flash_wf]

theorem deferSet_wf (i : Instr) {s : State} (hs : memoriesWf s = true) : memoriesWf (deferSet i s) = true := hs

theorem bundleFails_wf (h : Hdr) (code : Byte) (k st : Nat) {s : State} (hs : memoriesWf s = true) :
    memoriesWf (bundleFails h code k st s) = true := rspWrite_wf _ _ hs

theorem execLineModeSet_wf (h : Hdr) (code flags : Byte) (p : FlexReq) {s : State} (hs : memoriesWf s = true) :
    outWf (execLineModeSet h code flags p s) = true := by
  refine command_wf _ _ hs (guarded_wf _ _ _ hs (ite_wf (deferSet_wf _ hs) (ite_wf (refuse_wf _ _ _ hs) ?_)))
  dsimp only
  split
  · exact bundleFails_wf _ _ _ _ hs
  · exact ite_wf (refuse_wf _ _ _ hs) (ite_wf (modeReply_wf _ _ (bundleApply_wf _ hs))
      (memoriesWf_mk (win_wf hs) (store_wf hs) (flash_wf hs)))

theorem execLineModeGet_wf (h : Hdr) {s : State} (hs : memoriesWf s = true) :
    outWf (execLineModeGet h s) = true := query_wf _ _ hs

theorem execLineFlexCheck_wf (h : Hdr) (p : FlexReq) {s : State} (hs : memoriesWf s = true) :
    outWf (execLineFlexCheck h p s) = true := by
  grind [execLineFlexCheck, command_wf, refuse_wf, reply_wf, outWf_next, outWf_fault, memoriesWf_mk, win_wf, store_wf,
    flash_wf]

/-! ### Debug -/

theorem freezeNull_wf {s : State} (hs : memoriesWf s = true) :
    memoriesWf (freezeNull s) = true := ite_wf (txMoveAt_wf _ _ _ _ hs) hs

theorem freezeBegin_wf (source : Nat) {s : State} (hs : memoriesWf s = true) : memoriesWf (freezeBegin source s) = true := by
  grind [freezeBegin, agePause_wf, capAbort_wf, endHolds_wf, freezeNull_wf, incomplete_wf, linkHold_wf, mergeFlushAll_wf,
    memoriesWf_mk, win_wf, store_wf, flash_wf]

theorem freezeEnd_wf {s : State} (hs : memoriesWf s = true) : memoriesWf (freezeEnd s) = true := by
  grind [freezeEnd, histPartial_wf, incomplete_wf, linkReturn_wf, notifyAt_wf, releaseAll_wf, memoriesWf_mk, win_wf,
    store_wf, flash_wf]

theorem execFreezePin_wf (low : Bool) {s : State} (hs : memoriesWf s = true) :
    outWf (execFreezePin low s) = true := outWf_next (ite_wf (freezeBegin_wf _ hs) hs)

theorem freezeIfLow_wf {s : State} (hs : memoriesWf s = true) :
    memoriesWf (freezeIfLow s) = true := ite_wf (freezeBegin_wf _ hs) hs

theorem execFreezeTrigger_wf (t : FreezeTrig) {s : State} (hs : memoriesWf s = true) :
    outWf (execFreezeTrigger t s) = true := outWf_next (ite_wf (freezeBegin_wf _ hs) hs)

theorem execDbgFreezeCmd_wf (h : Hdr) (action trigger : Byte) (delay : Half) {s : State} (hs : memoriesWf s = true) :
    outWf (execDbgFreezeCmd h action trigger delay s) = true := by
  grind [execDbgFreezeCmd, command_wf, done_wf, freezeBegin_wf, guarded_wf, outWf_next, outWf_fault, memoriesWf_mk, win_wf,
    store_wf, flash_wf]

theorem execDbgRelease_wf (h : Hdr) {s : State} (hs : memoriesWf s = true) :
    outWf (execDbgRelease h s) = true := command_wf _ _ hs (guarded_wf _ _ _ hs (freezeEnd_wf (reply_wf _ _ _ hs)))

theorem execDbgStatus_wf (h : Hdr) {s : State} (hs : memoriesWf s = true) : outWf (execDbgStatus h s) = true := query_wf _ _ hs

theorem testAccess_wf {f : State → State} {s : State} (hs : memoriesWf s = true) (hf : memoriesWf (f s) = true) :
    outWf (testAccess f s) = true := outWf_next (ite_wf hf hs)

theorem execTestLogicReset_wf {s : State} (hs : memoriesWf s = true) : outWf (execTestLogicReset s) = true := by
  unfold execTestLogicReset
  refine outWf_next ?_
  split <;> exact hs

theorem execBypass_wf (tdi : List Bool) {s : State} (hs : memoriesWf s = true) : outWf (execBypass tdi s) = true := by
  unfold execBypass
  refine outWf_next ?_
  split <;> exact hs

theorem execIdcode_wf (shifts : Nat) {s : State} (hs : memoriesWf s = true) : outWf (execIdcode shifts s) = true := by
  unfold execIdcode
  refine outWf_next ?_
  split <;> exact hs

theorem execSamplePreload_wf (tdi : List Bool) {s : State} (hs : memoriesWf s = true) :
    outWf (execSamplePreload tdi s) = true := by
  unfold execSamplePreload
  refine outWf_next ?_
  split <;> exact hs

theorem execExtest_wf (tdi : List Bool) {s : State} (hs : memoriesWf s = true) :
    outWf (execExtest tdi s) = true := testAccess_wf hs (ite_wf hs hs)

theorem execFrzSel_wf (chain : Byte) {s : State} (hs : memoriesWf s = true) : outWf (execFrzSel chain s) = true := by
  unfold execFrzSel
  refine outWf_next ?_
  split <;> exact hs

theorem execFrzData_wf (shifts : Nat) {s : State} (hs : memoriesWf s = true) :
    outWf (execFrzData shifts s) = true := testAccess_wf hs (ite_wf hs hs)

/-! ### Domains -/

theorem ciphDown_wf {s : State} (hs : memoriesWf s = true) : memoriesWf (ciphDown s) = true := by
  unfold ciphDown
  dsimp only
  have h1 := foldl_wf (f := fun s i => match (ctxAt i s).job with
      | some j => refuse 0x0820 j.hdr .badState (setCtx i (idleCtx (ctxAt i s)) s)
      | none => setCtx i (idleCtx (ctxAt i s)) s) (fun u i h => by
        split
        · exact refuse_wf _ _ _ (setCtx_wf _ _ h)
        · exact setCtx_wf _ _ h) (List.range 16) hs
  generalize (List.range 16).foldl _ s = s1 at h1
  exact refreshTribs_wf (memoriesWf_mk (win_wf h1) (store_wf h1) (flash_wf h1))

theorem domDown_wf (d : Dom) {s : State} (hs : memoriesWf s = true) : memoriesWf (domDown d s) = true := by
  unfold domDown
  split
  · exact ciphDown_wf hs
  · exact ite_wf hs (linkOff_wf hs)
  · exact hs

theorem hostUp_wf {s : State} (hs : memoriesWf s = true) : memoriesWf (hostUp s) = true := by
  grind [hostUp, bringUp_wf, linkReturn_wf, memoriesWf_mk, win_wf, store_wf, flash_wf]

theorem ciphUp_wf {s : State} (hs : memoriesWf s = true) : memoriesWf (ciphUp s) = true := runSelftests_wf hs

theorem domUp_wf (d : Dom) {s : State} (hs : memoriesWf s = true) : memoriesWf (domUp d s) = true := by
  unfold domUp
  split
  · exact ciphUp_wf hs
  · exact hostUp_wf hs
  · exact storePowerUp_wf hs
  · exact hs

theorem openDom_wf (d : Dom) {s : State} (hs : memoriesWf s = true) :
    memoriesWf (openDom d s) = true := ite_wf (domDown_wf _ hs) hs

theorem closeDom_wf (d : Dom) {s : State} (hs : memoriesWf s = true) : memoriesWf (closeDom d s) = true := hs

theorem closeNext_wf {s : State} (hs : memoriesWf s = true) : memoriesWf (closeNext s) = true := by
  grind [closeNext, closeDom_wf, memoriesWf_mk, win_wf, store_wf, flash_wf]

theorem revote_wf {s : State} (hs : memoriesWf s = true) : memoriesWf (revote s) = true :=
  closeNext_wf (foldl_wf (f := fun s d => if wants d s || !domIn s.pwr.closed d then s else openDom d s)
    (fun _ d h => ite_wf h (openDom_wf d h)) openOrder hs)

theorem execDomainPowerGood_wf (d : Dom) {s : State} (hs : memoriesWf s = true) :
    outWf (execDomainPowerGood d s) = true := outWf_next (ite_wf (closeNext_wf (domUp_wf _ hs)) hs)

theorem execPowerRetry_wf {s : State} (hs : memoriesWf s = true) : outWf (execPowerRetry s) = true := by
  grind [execPowerRetry, closeDom_wf, closeNext_wf, outWf_next, outWf_fault, memoriesWf_mk, win_wf, store_wf, flash_wf]

theorem domFails_wf (d : Dom) {s : State} (hs : memoriesWf s = true) :
    memoriesWf (domFails d s) = true := closeNext_wf (notify_wf _ _ _ _ hs)

theorem execPwrVote_wf (h : Hdr) (domains : Byte) {s : State} (hs : memoriesWf s = true) :
    outWf (execPwrVote h domains s) = true := command_wf _ _ hs (guarded_wf _ _ _ hs (reply_wf _ _ _ (revote_wf hs)))

theorem execMmVoteExpire_wf {s : State} (hs : memoriesWf s = true) : outWf (execMmVoteExpire s) = true := by
  grind [execMmVoteExpire, revote_wf, outWf_next, outWf_fault, memoriesWf_mk, win_wf, store_wf, flash_wf]

/-! ### Entry -/

theorem loseAll_wf {s : State} (hs : memoriesWf s = true) : memoriesWf (loseAll s) = true :=
  memoriesWf_mk rfl rfl (flash_wf hs)

theorem deepImage_wf {s : State} (hs : memoriesWf s = true) : memoriesWf (deepImage s) = true := loseAll_wf hs

theorem endRestarts_wf {s : State} (hs : memoriesWf s = true) : memoriesWf (endRestarts s) = true := by
  grind [endRestarts, answerLate_wf, done_wf, reply_wf, memoriesWf_mk, win_wf, store_wf, flash_wf]

theorem entryStops_wf (scan : Bool) (reason : Nat) {s : State} (hs : memoriesWf s = true) :
    memoriesWf (entryStops scan reason s) = true := by
  grind [entryStops, agePause_wf, capAbort_wf, endRestarts_wf, histPartial_wf, incomplete_wf, stopRx_wf, stopSwaps_wf,
    stopTx_wf, txDark_wf, memoriesWf_mk, win_wf, store_wf, flash_wf]

theorem stopTime_wf {s : State} (hs : memoriesWf s = true) : memoriesWf (stopTime s) = true := ite_wf (releaseAll_wf hs) hs

theorem entryLanes_wf {s : State} (hs : memoriesWf s = true) : memoriesWf (entryLanes s) = true := linkOff_wf hs

theorem entryOpens_wf {s : State} (hs : memoriesWf s = true) : memoriesWf (entryOpens s) = true := by
  grind [entryOpens, flushLog_wf, mergeFlushAll_wf, openDom_wf, memoriesWf_mk, win_wf, store_wf, flash_wf]

theorem sleepDomains_wf {s : State} (hs : memoriesWf s = true) : memoriesWf (sleepDomains s) = true := hs

theorem lowEntry_wf (target : PState) (reason : Nat) (r : Option PwrReq) {s : State} (hs : memoriesWf s = true) :
    memoriesWf (lowEntry target reason r s) = true := by
  have h1 := entryStops_wf (decide (target = .sleep)) reason hs
  unfold lowEntry
  generalize entryStops (decide (target = .sleep)) reason s = s1 at h1
  grind [sleepDomains_wf, entryOpens_wf, entryLanes_wf, setPhase_wf, setReady_wf, stopTime_wf, pwrReply_wf, deepImage_wf,
    loseAll_wf, memoriesWf_mk, win_wf, store_wf, flash_wf]

theorem execLowStateEntry_wf {s : State} (hs : memoriesWf s = true) : outWf (execLowStateEntry s) = true := by
  refine outWf_next ?_
  split
  · split
    · split
      · exact ite_wf (pwrRefuse_wf _ _ hs) (holdRequest_wf _ hs)
      · exact lowEntry_wf _ _ _ hs
    · exact hs
  · exact hs

theorem sequenceFails_wf (code : Byte) (source : Byte) {s : State} (hs : memoriesWf s = true) :
    memoriesWf (sequenceFails code source s) = true := by
  grind [sequenceFails, lowEntry_wf, recordFault_wf, memoriesWf_mk, win_wf, store_wf, flash_wf]

theorem attemptFails_wf (d : Dom) (osc : Bool) {s : State} (hs : memoriesWf s = true) :
    memoriesWf (attemptFails d osc s) = true := by
  grind [attemptFails, domFails_wf, openDom_wf, sequenceFails_wf, memoriesWf_mk, win_wf, store_wf, flash_wf]

theorem execPowerGoodTimeout_wf (d : Dom) (osc : Bool) {s : State} (hs : memoriesWf s = true) :
    outWf (execPowerGoodTimeout d osc s) = true := by
  grind [execPowerGoodTimeout, attemptFails_wf, outWf_next, outWf_fault, memoriesWf_mk, win_wf, store_wf, flash_wf]

/-! ### Boot -/

theorem measureVin_wf (mv : Nat) {s : State} (hs : memoriesWf s = true) : memoriesWf (measureVin mv s) = true := by
  unfold measureVin
  split <;> exact hs

theorem loseSupply_wf {s : State} (hs : memoriesWf s = true) : memoriesWf (loseSupply s) = true := loseAll_wf hs

theorem execVsb33Valid_wf (mv : Nat) {s : State} (hs : memoriesWf s = true) :
    outWf (execVsb33Valid mv s) = true := outWf_next (ite_wf (loseSupply_wf hs) hs)

theorem execVsb33Loss_wf (mv : Nat) {s : State} (hs : memoriesWf s = true) : outWf (execVsb33Loss mv s) = true := by
  grind [execVsb33Loss, loseSupply_wf, outWf_next, outWf_fault, memoriesWf_mk, win_wf, store_wf, flash_wf]

theorem execColdStart_wf {s : State} (hs : memoriesWf s = true) :
    outWf (execColdStart s) = true := outWf_next (ite_wf (setPhase_wf _ hs) hs)

theorem latchedWake_wf {s : State} (hs : memoriesWf s = true) :
    memoriesWf (latchedWake s) = true := ite_wf (powerRequest_wf _ hs) hs

theorem execVin12HoldConfirmed_wf (mv : Nat) {s : State} (hs : memoriesWf s = true) :
    outWf (execVin12HoldConfirmed mv s) = true := by
  grind [execVin12HoldConfirmed, closeDom_wf, latchedWake_wf, measureVin_wf, outWf_next, outWf_fault, memoriesWf_mk, win_wf,
    store_wf, flash_wf]

theorem logLost_wf {s : State} (hs : memoriesWf s = true) : memoriesWf (logLost s) = true := ite_wf (logEntry_wf _ _ _ _ hs) hs

theorem wardenStart_wf {s : State} (hs : memoriesWf s = true) : memoriesWf (wardenStart s) = true := by
  grind [wardenStart, logLost_wf, recordFault_wf, setCause_wf, setPhase_wf, setReady_wf, memoriesWf_mk, win_wf, store_wf,
    flash_wf]

theorem execWardenStart_wf {s : State} (hs : memoriesWf s = true) :
    outWf (execWardenStart s) = true := outWf_next (ite_wf (wardenStart_wf hs) hs)

theorem raiseFallback_wf {s : State} (hs : memoriesWf s = true) : memoriesWf (raiseFallback s) = true := by
  grind [raiseFallback, notify_wf, memoriesWf_mk, win_wf, store_wf, flash_wf]

theorem pathUp_wf {s : State} (hs : memoriesWf s = true) : memoriesWf (pathUp s) = true := by
  grind [pathUp, raiseFallback_wf, setCause_wf, setReady_wf, memoriesWf_mk, win_wf, store_wf, flash_wf]

theorem execCommandPathReady_wf {s : State} (hs : memoriesWf s = true) : outWf (execCommandPathReady s) = true := by
  grind [execCommandPathReady, pathUp_wf, revote_wf, setPhase_wf, outWf_next, outWf_fault, memoriesWf_mk, win_wf, store_wf,
    flash_wf]

theorem anchorTasks_wf (sf : Sf) {s : State} (hs : memoriesWf s = true) : memoriesWf (anchorTasks sf s) = true := hs

theorem execLineTimeStart_wf {s : State} (hs : memoriesWf s = true) : outWf (execLineTimeStart s) = true := by
  grind [execLineTimeStart, anchorTasks_wf, setPhase_wf, outWf_next, outWf_fault, memoriesWf_mk, win_wf, store_wf, flash_wf]

theorem execFirstCalibrationDone_wf {s : State} (hs : memoriesWf s = true) : outWf (execFirstCalibrationDone s) = true := by
  have whole {s : State} (hs : memoriesWf s = true) :
      memoriesWf (drawMany 64 ((List.range 32).foldl (fun s i => monTrim i s) (allCalibrated s))) = true :=
    drawMany_wf 64 (foldl_wf (fun _ i h => monTrim_wf i h) _ (allCalibrated_wf hs))
  refine outWf_next (ite_wf hs ?_)
  split
  · exact whole (setPhase_wf _ hs)
  · exact whole (setPhase_wf _ hs)
  · exact hs

theorem execEnterRun_wf {s : State} (hs : memoriesWf s = true) : outWf (execEnterRun s) = true := by
  grind [execEnterRun, freezeIfLow_wf, notify_wf, reached_wf, revote_wf, serveHeld_wf, outWf_next, outWf_fault,
    memoriesWf_mk, win_wf, store_wf, flash_wf]

theorem execOvenReady_wf (caseTemp : Int) {s : State} (hs : memoriesWf s = true) : outWf (execOvenReady caseTemp s) = true := by
  grind [execOvenReady, lowEntry_wf, recordFault_wf, refWake_wf, revote_wf, setPhase_wf, outWf_next, outWf_fault,
    memoriesWf_mk, win_wf, store_wf, flash_wf]

theorem resumeTime_wf {s : State} (hs : memoriesWf s = true) : memoriesWf (resumeTime s) = true := by
  grind [resumeTime, anchorTasks_wf, incomplete_wf, rateTo_wf, restartIntegs_wf, memoriesWf_mk, win_wf, store_wf, flash_wf]

theorem execLineTimeResume_wf {s : State} (hs : memoriesWf s = true) : outWf (execLineTimeResume s) = true := by
  grind [execLineTimeResume, resumeTime_wf, setPhase_wf, outWf_next, outWf_fault, memoriesWf_mk, win_wf, store_wf, flash_wf]

theorem restoreMode_wf {s : State} (hs : memoriesWf s = true) : memoriesWf (restoreMode s) = true := by
  grind [restoreMode, memoriesWf_mk, win_wf, store_wf, flash_wf]

theorem thenEnter_wf (r : PwrReq) {s : State} (hs : memoriesWf s = true) : memoriesWf (thenEnter r s) = true := by
  grind [thenEnter, pwrRefuse_wf, startRequest_wf, memoriesWf_mk, win_wf, store_wf, flash_wf]

theorem execWakeExitComplete_wf {s : State} (hs : memoriesWf s = true) : outWf (execWakeExitComplete s) = true := by
  grind [execWakeExitComplete, freezeIfLow_wf, pwrReply_wf, reached_wf, restoreMode_wf, revote_wf, serveHeld_wf,
    thenEnter_wf, outWf_next, outWf_fault, memoriesWf_mk, win_wf, store_wf, flash_wf]

theorem restartFromStep3_wf {s : State} (hs : memoriesWf s = true) :
    memoriesWf (restartFromStep3 s) = true := setPhase_wf _ (loseAll_wf hs)

theorem discardCommands_wf {s : State} (hs : memoriesWf s = true) : memoriesWf (discardCommands s) = true := hs

theorem restartWarden_wf {s : State} (hs : memoriesWf s = true) : memoriesWf (restartWarden s) = true := ite_wf hs hs

theorem fallBack_wf {s : State} (hs : memoriesWf s = true) : memoriesWf (fallBack s) = true := by
  grind [fallBack, restartFromStep3_wf, restartWarden_wf, setPhase_wf, setReady_wf, memoriesWf_mk, win_wf, store_wf,
    flash_wf]

theorem execFwReadyTimeout_wf {s : State} (hs : memoriesWf s = true) :
    outWf (execFwReadyTimeout s) = true := outWf_next (ite_wf (fallBack_wf hs) hs)

theorem execWardenWatchdogExpire_wf {s : State} (hs : memoriesWf s = true) : outWf (execWardenWatchdogExpire s) = true := by
  grind [execWardenWatchdogExpire, fallBack_wf, recordFault_wf, outWf_next, outWf_fault, memoriesWf_mk, win_wf, store_wf,
    flash_wf]

theorem flushHoldUp_wf {s : State} (hs : memoriesWf s = true) : memoriesWf (flushHoldUp s) = true := flushEntries_wf _ hs

theorem resetActs_wf {s : State} (hs : memoriesWf s = true) :
    memoriesWf (resetActs s) = true := setPhase_wf _ (loseAll_wf (flushHoldUp_wf hs))

theorem execResetAssert_wf (lowNs : Nat) {s : State} (hs : memoriesWf s = true) : outWf (execResetAssert lowNs s) = true := by
  grind [execResetAssert, nextDraw_wf, resetActs_wf, outWf_next, outWf_fault, memoriesWf_mk, win_wf, store_wf, flash_wf]

theorem execResetRelease_wf {s : State} (hs : memoriesWf s = true) :
    outWf (execResetRelease s) = true := outWf_next (ite_wf (setPhase_wf _ hs) hs)

theorem execPciePerst_wf (msixEnabled : Bool) {s : State} (hs : memoriesWf s = true) :
    outWf (execPciePerst msixEnabled s) = true := by
  unfold execPciePerst
  refine outWf_next ?_
  split <;> exact hs

/-! ### Wake -/

theorem wake_wf (k : Nat) {s : State} (hs : memoriesWf s = true) : memoriesWf (wake k s) = true := by
  grind [wake, holdRequest_wf, powerRequest_wf, memoriesWf_mk, win_wf, store_wf, flash_wf]

theorem execWakePin_wf (low : Bool) (cycles : Nat) {s : State} (hs : memoriesWf s = true) :
    outWf (execWakePin low cycles s) = true := by
  grind [execWakePin, wake_wf, outWf_next, outWf_fault, memoriesWf_mk, win_wf, store_wf, flash_wf]

theorem execTimerWake_wf {s : State} (hs : memoriesWf s = true) :
    outWf (execTimerWake s) = true := outWf_next (ite_wf (wake_wf _ hs) hs)

theorem execAonTimerWrap_wf {s : State} (hs : memoriesWf s = true) : outWf (execAonTimerWrap s) = true := by
  unfold execAonTimerWrap
  refine outWf_next ?_
  split <;> exact hs

theorem execSupplyWake_wf (mv : Nat) {s : State} (hs : memoriesWf s = true) : outWf (execSupplyWake mv s) = true := by
  grind [execSupplyWake, measureVin_wf, wake_wf, outWf_next, outWf_fault, memoriesWf_mk, win_wf, store_wf, flash_wf]

theorem execVinOkChange_wf (mv : Nat) {s : State} (hs : memoriesWf s = true) : outWf (execVinOkChange mv s) = true := by
  grind [execVinOkChange, measureVin_wf, outWf_next, outWf_fault, memoriesWf_mk, win_wf, store_wf, flash_wf]

theorem sampleLevels_wf {s : State} (hs : memoriesWf s = true) : memoriesWf (sampleLevels s) = true := by
  grind [sampleLevels, wake_wf, memoriesWf_mk, win_wf, store_wf, flash_wf]

theorem entryAnswer_wf (target origin : PState) {s : State} (hs : memoriesWf s = true) :
    memoriesWf (entryAnswer target origin s) = true := by
  grind [entryAnswer, answerLate_wf, pwrReply_wf, respond_wf, memoriesWf_mk, win_wf, store_wf, flash_wf]

theorem execEntryWindowEnd_wf {s : State} (hs : memoriesWf s = true) : outWf (execEntryWindowEnd s) = true := by
  grind [execEntryWindowEnd, entryAnswer_wf, reached_wf, sampleLevels_wf, serveHeld_wf, setPhase_wf, outWf_next,
    outWf_fault, memoriesWf_mk, win_wf, store_wf, flash_wf]

theorem execWakeAccept_wf {s : State} (hs : memoriesWf s = true) : outWf (execWakeAccept s) = true := by
  grind [execWakeAccept, closeDom_wf, setPhase_wf, outWf_next, outWf_fault, memoriesWf_mk, win_wf, store_wf, flash_wf]

theorem execWatchExit_wf {s : State} (hs : memoriesWf s = true) : outWf (execWatchExit s) = true := by
  grind [execWatchExit, holdRequest_wf, pwrRefuse_wf, pwrReply_wf, reached_wf, revote_wf, serveHeld_wf, txAdvance_wf,
    outWf_next, outWf_fault, memoriesWf_mk, win_wf, store_wf, flash_wf]

theorem execFenWatchWindow_wf {s : State} (hs : memoriesWf s = true) : outWf (execFenWatchWindow s) = true := by
  grind [execFenWatchWindow, outWf_next, outWf_fault, memoriesWf_mk, win_wf, store_wf, flash_wf]

theorem lightSeen_wf (power : Int) {s : State} (hs : memoriesWf s = true) : memoriesWf (lightSeen power s) = true := by
  grind [lightSeen, notify_wf, wake_wf, memoriesWf_mk, win_wf, store_wf, flash_wf]

theorem execFenWatchCompare_wf (power : Int) {s : State} (hs : memoriesWf s = true) :
    outWf (execFenWatchCompare power s) = true := by
  grind [execFenWatchCompare, lightSeen_wf, outWf_next, outWf_fault, memoriesWf_mk, win_wf, store_wf, flash_wf]

theorem execPwrStateSet_wf (h : Hdr) (target : Byte) {s : State} (hs : memoriesWf s = true) :
    outWf (execPwrStateSet h target s) = true := by
  unfold execPwrStateSet
  split
  · exact command_wf _ _ hs (refuse_wf _ _ _ hs)
  · exact command_wf _ _ hs (powerRequest_wf _ hs)

theorem execPwrStatus_wf (h : Hdr) {s : State} (hs : memoriesWf s = true) :
    outWf (execPwrStatus h s) = true := command_wf _ _ hs (reply_wf _ _ _ hs)

theorem execPwrConfig_wf (h : Hdr) (period : Half) (flags : Byte) {s : State} (hs : memoriesWf s = true) :
    outWf (execPwrConfig h period flags s) = true := command_wf _ _ hs (guarded_wf _ _ _ hs (done_wf _ _ hs))

/-! ### Supply -/

theorem coppiceNote_wf (level : Nat) (set : Bool) (deepest : Nat) {s : State} (hs : memoriesWf s = true) :
    memoriesWf (coppiceNote level set deepest s) = true := ite_wf (notify_wf _ _ _ _ hs) hs

theorem discardRequests_wf {s : State} (hs : memoriesWf s = true) : memoriesWf (discardRequests s) = true := by
  grind [discardRequests, pwrRefuse_wf, memoriesWf_mk, win_wf, store_wf, flash_wf]

theorem orderlyOff_wf {s : State} (hs : memoriesWf s = true) : memoriesWf (orderlyOff s) = true := by
  grind [orderlyOff, changeInterrupt_wf, discardRequests_wf, endHolds_wf, flushHoldUp_wf, flushLog_wf, freezeEnd_wf,
    logEntry_wf, releaseAll_wf, setPhase_wf, setReady_wf, txDark_wf, memoriesWf_mk, win_wf, store_wf, flash_wf]

theorem execOrderlyOffDone_wf {s : State} (hs : memoriesWf s = true) : outWf (execOrderlyOffDone s) = true := by
  grind [execOrderlyOffDone, loseAll_wf, orderlyOff_wf, powerRequest_wf, recordFault_wf, setPhase_wf, outWf_next,
    outWf_fault, memoriesWf_mk, win_wf, store_wf, flash_wf]

theorem setLevel_wf (deepest level : Nat) {s : State} (hs : memoriesWf s = true) : memoriesWf (setLevel deepest s level) = true :=
  coppiceNote_wf _ _ _ hs

theorem cutAtC4_wf {s : State} (hs : memoriesWf s = true) : memoriesWf (cutAtC4 s) = true := by
  grind [cutAtC4, changeInterrupt_wf, freezeEnd_wf, txDark_wf, memoriesWf_mk, win_wf, store_wf, flash_wf]

theorem execCoppiceSet_wf (mv : Nat) {s : State} (hs : memoriesWf s = true) : outWf (execCoppiceSet mv s) = true := by
  have hl : ∀ (new : Nat) (ls : List Nat) {u : State}, memoriesWf u = true → memoriesWf (ls.foldl (setLevel new) u) = true :=
    fun new ls _ h => foldl_wf (fun _ l h => setLevel_wf new l h) ls h
  refine outWf_next (ite_wf hs (ite_wf (measureVin_wf mv hs) ?_))
  have h3 := hl (max s.aon.coppice (levelBelow mv)) ((List.range (max s.aon.coppice (levelBelow mv) - s.aon.coppice)).map
    (· + (s.aon.coppice + 1))) (u := { measureVin mv s with aon := { (measureVin mv s).aon with
      coppice := max s.aon.coppice (levelBelow mv) } }) (measureVin_wf mv hs)
  exact ite_wf (ite_wf (orderlyOff_wf h3) h3) (ite_wf (cutAtC4_wf h3) h3)

theorem shed3_wf {s : State} (hs : memoriesWf s = true) : memoriesWf (shed3 s) = true := by
  grind [shed3, agePause_wf, linkHold_wf, revote_wf, memoriesWf_mk, win_wf, store_wf, flash_wf]

theorem shed4_wf {s : State} (hs : memoriesWf s = true) : memoriesWf (shed4 s) = true := by
  grind [shed4, endRestarts_wf, flushLog_wf, linkShutdown_wf, mergeFlushAll_wf, revote_wf, stopRx_wf, stopTx_wf,
    memoriesWf_mk, win_wf, store_wf, flash_wf]

theorem shedLevel_wf (level : Nat) {s : State} (hs : memoriesWf s = true) : memoriesWf (shedLevel s level) = true := by
  unfold shedLevel
  split
  · exact capAbort_wf _ hs
  · exact incomplete_wf _ (stopSwaps_wf hs)
  · exact shed3_wf hs
  · exact shed4_wf hs
  · exact hs

theorem execCoppiceShed_wf {s : State} (hs : memoriesWf s = true) : outWf (execCoppiceShed s) = true := by
  have hm : memoriesWf { s with pwr := { s.pwr with shed := s.aon.coppice } } = true := hs
  exact outWf_next (ite_wf hs (ite_wf (foldl_wf (fun _ l h => shedLevel_wf l h) _ hm)
    (ite_wf (ite_wf (flushLog_wf (revote_wf hm)) hm) hs)))

theorem restoreAfterC4_wf {s : State} (hs : memoriesWf s = true) : memoriesWf (restoreAfterC4 s) = true := by
  grind [restoreAfterC4, memoriesWf_mk, win_wf, store_wf, flash_wf]

theorem lanesBack_wf {s : State} (hs : memoriesWf s = true) :
    memoriesWf (lanesBack s) = true := ite_wf hs (ite_wf (linkReturn_wf _ hs) hs)

theorem sequenceGoesOn_wf {s : State} (hs : memoriesWf s = true) :
    memoriesWf (sequenceGoesOn s) = true := ite_wf hs (revote_wf hs)

theorem resumeWork_wf (old new : Nat) {s : State} (hs : memoriesWf s = true) : memoriesWf (resumeWork old new s) = true := by
  grind [resumeWork, lanesBack_wf, restoreAfterC4_wf, revote_wf, sequenceGoesOn_wf, memoriesWf_mk, win_wf, store_wf,
    flash_wf]

theorem execCoppiceClear_wf (mv : Nat) {s : State} (hs : memoriesWf s = true) : outWf (execCoppiceClear mv s) = true := by
  unfold execCoppiceClear
  dsimp only
  refine outWf_next (ite_wf hs (ite_wf (measureVin_wf mv hs) (resumeWork_wf _ _
    (foldl_wf (fun _ _ h => coppiceNote_wf _ _ _ ?_) _ (measureVin_wf mv hs)))))
  exact memoriesWf_mk (win_wf h) (store_wf h) (flash_wf h)

theorem execCaseTempMeasure_wf (temp : Int) {s : State} (hs : memoriesWf s = true) :
    outWf (execCaseTempMeasure temp s) = true := by
  grind [execCaseTempMeasure, notify_wf, outWf_next, outWf_fault, memoriesWf_mk, win_wf, store_wf, flash_wf]

theorem execOvertempShutdown_wf {s : State} (hs : memoriesWf s = true) : outWf (execOvertempShutdown s) = true := by
  grind [execOvertempShutdown, changeInterrupt_wf, freezeEnd_wf, lowEntry_wf, recordFault_wf, outWf_next, outWf_fault,
    memoriesWf_mk, win_wf, store_wf, flash_wf]

/-! ### System -/

theorem execSysIdentify_wf (h : Hdr) {s : State} (hs : memoriesWf s = true) :
    outWf (execSysIdentify h s) = true := query_wf _ _ hs

theorem execSysCancel_wf (h : Hdr) (target : Half) {s : State} (hs : memoriesWf s = true) :
    outWf (execSysCancel h target s) = true := by
  grind [execSysCancel, answerLate_wf, command_wf, done_wf, refuse_wf, outWf_next, outWf_fault, memoriesWf_mk, win_wf,
    store_wf, flash_wf, memWriteN_wf, memFilter_wf]

theorem setCvCtx_wf (c : Byte) (x : CvCtx) {s : State} (hs : memoriesWf s = true) : memoriesWf (setCvCtx c x s) = true := hs

theorem execCvConfig_wf (h : Hdr) (profile width flags : Byte) (poly init xorOut : Dword) {s : State} (hs : memoriesWf s = true)
    :
    outWf (execCvConfig h profile width flags poly init xorOut s) = true :=
  command_wf _ _ hs (guarded_wf _ _ _ hs (done_wf _ _ hs))

theorem cvRunEnds_wf (mode ctx : Byte) {s : State} (hs : memoriesWf s = true) : memoriesWf (cvRunEnds mode ctx s) = true := by
  unfold cvRunEnds
  split <;> exact hs

theorem execCvRun_wf (h : Hdr) (profile mode ctx src region : Byte) (offset : Dword) (len : Word) {s : State} (hs : memoriesWf s
    = true) :
    outWf (execCvRun h profile mode ctx src region offset len s) = true := by
  grind [execCvRun, command_wf, cvRunEnds_wf, refuse_wf, setCvCtx_wf, outWf_next, outWf_fault, memoriesWf_mk, win_wf,
    store_wf, flash_wf]

theorem execCvCtxRead_wf (h : Hdr) (ctx : Byte) {s : State} (hs : memoriesWf s = true) :
    outWf (execCvCtxRead h ctx s) = true := by
  grind [execCvCtxRead, command_wf, drawMany_wf, guarded_wf, respond_wf, outWf_next, outWf_fault, memoriesWf_mk, win_wf,
    store_wf, flash_wf]

theorem execCvCtxWrite_wf (h : Hdr) (ctx : Byte) {s : State} (hs : memoriesWf s = true) :
    outWf (execCvCtxWrite h ctx s) = true := command_wf _ _ hs (guarded_wf _ _ _ hs (done_wf _ _ hs))

theorem execCvScan_wf (h : Hdr) (profile src region blk : Byte) (offset len : Dword) (action : Byte) (work : Dword) {s : State}
    (hs : memoriesWf s = true) :
    outWf (execCvScan h profile src region blk offset len action work s) = true :=
  command_wf _ _ hs (guarded_wf _ _ _ hs (ite_wf (refuse_wf _ _ _ hs) hs))

theorem flushOver_wf (a n : Nat) {s : State} (hs : memoriesWf s = true) : memoriesWf (flushOver a n s) = true :=
  foldl_wf (fun _ m h => mergeFlush_wf m h) _ hs

theorem cvRead_wf (src region : Byte) (offset len : Nat) {s : State} (hs : memoriesWf s = true) :
    memoriesWf (cvRead src region offset len s) = true :=
  ite_wf (flushOver_wf _ _ hs) (flashPut_wf (readRange_mem _ _ _ _) hs)

theorem cvRunDone_wf (h : Hdr) (profile mode ctx src region : Byte) (offset : Dword) (len : Word) {s : State} (hs : memoriesWf s
    = true) :
    memoriesWf (cvRunDone h profile mode ctx src region offset len s) = true := by
  grind [cvRunDone, cvRead_wf, drawMany_wf, reply_wf, setCvCtx_wf, memoriesWf_mk, win_wf, store_wf, flash_wf]

theorem cvScanDone_wf (h : Hdr) (profile src region blk : Byte) (offset len : Dword) (action : Byte) (work : Dword) {s : State}
    (hs : memoriesWf s = true) : memoriesWf (cvScanDone h profile src region blk offset len action work s) = true := by
  have hr := cvRead_wf src region offset.toNat len.toNat hs
  exact ite_wf (reply_wf _ _ _ (drawMany_wf _ (storeNarrow_wf _ _ hr))) (reply_wf _ _ _ (drawMany_wf _ (flushOver_wf _ _ hr)))

theorem execCvJobDone_wf {s : State} (hs : memoriesWf s = true) : outWf (execCvJobDone s) = true := by
  grind [execCvJobDone, answerLate_wf, cvRunDone_wf, cvScanDone_wf, outWf_next, outWf_fault, memoriesWf_mk, win_wf,
    store_wf, flash_wf]

theorem sparesNote_wf {s : State} (hs : memoriesWf s = true) :
    memoriesWf (sparesNote s) = true := ite_wf (notify_wf _ _ _ _ hs) hs

theorem retireBlock_wf (b : Nat) {s : State} (hs : memoriesWf s = true) : memoriesWf (retireBlock b s) = true :=
  sparesNote_wf (logEntry_wf _ _ _ _ (flashPut_wf rfl hs))

theorem eraseBlock_wf (b : Nat) {s : State} (hs : memoriesWf s = true) : memoriesWf (eraseBlock b s) = true :=
  have he := flashPut_wf (erase_mem b s.flash) hs
  ite_wf (sparesNote_wf (logEntry_wf _ _ _ _ he)) he

theorem refreshBlock_wf (b : Nat) {s : State} (hs : memoriesWf s = true) : memoriesWf (refreshBlock b s) = true :=
  ite_wf (flashPut_wf rfl (eraseBlock_wf b hs)) (flashPut_wf rfl (eraseBlock_wf _ (flashPut_wf (exchange_mem _ _ _) hs)))

theorem execFlashPatrol_wf (bitsCorrected : Nat) (readRetry : Bool) {s : State} (hs : memoriesWf s = true) :
    outWf (execFlashPatrol bitsCorrected readRetry s) = true :=
  have h0 : memoriesWf { s with flash := { s.flash with patrol := (s.flash.patrol + 1) % 4096 } } = true := hs
  have h1 := flashPut_wf (readBlocks_mem s.flash.patrol 1 { s.flash with patrol := (s.flash.patrol + 1) % 4096 }) h0
  outWf_next (ite_wf hs (ite_wf h0 (ite_wf (refreshBlock_wf _ h1) h1)))

theorem execFlashBlockFail_wf (block : Nat) {s : State} (hs : memoriesWf s = true) :
    outWf (execFlashBlockFail block s) = true := outWf_next (ite_wf (retireBlock_wf _ hs) hs)

theorem execFlashStatus_wf (h : Hdr) {s : State} (hs : memoriesWf s = true) : outWf (execFlashStatus h s) = true := by
  grind [execFlashStatus, command_wf, reply_wf, outWf_next, outWf_fault, memoriesWf_mk, win_wf, store_wf, flash_wf]

theorem setSlotImage_wf (b : Bool) (i : Option Image) {s : State} (hs : memoriesWf s = true) :
    memoriesWf (setSlotImage b i s) = true := by
  unfold setSlotImage
  split <;> exact hs

theorem stageErase_wf {s : State} (hs : memoriesWf s = true) : memoriesWf (stageErase s) = true :=
  ite_wf (foldl_wf (fun _ _ h => ite_wf h (eraseBlock_wf _ h)) _ (setSlotImage_wf _ _
    (memoriesWf_mk (win_wf hs) (store_wf hs) (memFilter_wf _ (flash_wf hs))))) hs

theorem stageBlock_wf (b : Nat) {s : State} (hs : memoriesWf s = true) : memoriesWf (stageBlock b s) = true :=
  ite_wf hs (flashPut_wf ((dated_mem _ _ _).trans (exchange_mem _ _ _)) hs)

theorem execFwStage_wf (h : Hdr) (offset : Word) {s : State} (hs : memoriesWf s = true) :
    outWf (execFwStage h offset s) = true := by
  grind [execFwStage, command_wf, done_wf, guarded_wf, memWriteN_wf, stageBlock_wf, stageErase_wf, outWf_next, outWf_fault,
    memoriesWf_mk, win_wf, store_wf, flash_wf, memWriteN_wf, memFilter_wf]

theorem readSlot_wf (n : Nat) {s : State} (hs : memoriesWf s = true) : memoriesWf (readSlot n s) = true :=
  flashPut_wf (readRange_mem _ _ _ _) hs

theorem execFwCommit_wf (h : Hdr) {s : State} (hs : memoriesWf s = true) : outWf (execFwCommit h s) = true := by
  grind [execFwCommit, command_wf, guarded_wf, readSlot_wf, reply_wf, setSlotImage_wf, outWf_next, outWf_fault,
    memoriesWf_mk, win_wf, store_wf, flash_wf]

theorem execFwActivate_wf (h : Hdr) (mode : Byte) {s : State} (hs : memoriesWf s = true) :
    outWf (execFwActivate h mode s) = true := by
  grind [execFwActivate, command_wf, done_wf, guarded_wf, restartFromStep3_wf, restartWarden_wf, outWf_next, outWf_fault,
    memoriesWf_mk, win_wf, store_wf, flash_wf]

theorem execFwConfirm_wf (h : Hdr) {s : State} (hs : memoriesWf s = true) :
    outWf (execFwConfirm h s) = true := command_wf _ _ hs (guarded_wf _ _ _ hs (reply_wf _ _ _ hs))

theorem readLog_wf (first count : Nat) {s : State} (hs : memoriesWf s = true) : memoriesWf (readLog first count s) = true :=
  flashPut_wf (readBlocksEach_mem _ _) hs

theorem execLogRead_wf (h : Hdr) (first : Sf) (count : Byte) {s : State} (hs : memoriesWf s = true) :
    outWf (execLogRead h first count s) = true :=
  command_wf _ _ hs (guarded_wf _ _ _ hs (respond_wf _ _ _ _ _ (readLog_wf _ _ hs)))

theorem modTask_wf (t : Task) (f : TaskSt → TaskSt) {s : State} (hs : memoriesWf s = true) :
    memoriesWf (modTask t f s) = true := hs

theorem taskWork_wf (t : Task) (w : TaskInput) {s : State} (hs : memoriesWf s = true) : memoriesWf (taskWork t w s) = true := by
  unfold taskWork
  split
  · grind [agcPeriod_wf, eqSupervise_wf]
  · exact biasTask_wf _ hs
  · exact laserMove_wf hs
  · exact refreshRaws_wf hs
  · exact refEvaluate_wf _ hs
  · exact gatherTallies_wf hs
  · exact ite_wf (inServiceCal_wf hs) hs
  · exact revote_wf hs
  · exact hs

theorem execSedgeTaskStart_wf (t : Task) (w : TaskInput) {s : State} (hs : memoriesWf s = true) :
    outWf (execSedgeTaskStart t w s) = true := by
  grind [execSedgeTaskStart, modTask_wf, taskWork_wf, outWf_next, outWf_fault, memoriesWf_mk, win_wf, store_wf, flash_wf]

theorem execSedgeTaskComplete_wf (t : Task) {s : State} (hs : memoriesWf s = true) :
    outWf (execSedgeTaskComplete t s) = true := by
  unfold execSedgeTaskComplete
  refine outWf_next ?_
  split <;> exact hs

theorem execEngineHalt_wf (e : BitVec 6) (c : HaltCause) {s : State} (hs : memoriesWf s = true) :
    outWf (execEngineHalt e c s) = true := outWf_next (ite_wf (logEntry_wf _ _ _ _ (freezeTrip_wf _ hs)) hs)

theorem execEngineRestart_wf (e : BitVec 6) (seed : Word) {s : State} (hs : memoriesWf s = true) :
    outWf (execEngineRestart e seed s) = true := by
  unfold execEngineRestart
  refine outWf_next ?_
  split <;> exact hs

/-! ### Mailbox -/

theorem mailboxExec_wf (i : Instr) {s : State} (hs : memoriesWf s = true) : outWf (mailboxExec i s) = true := by
  unfold mailboxExec
  split
  · exact execSysIdentify_wf _ hs
  · exact execSysCancel_wf _ _ hs
  · exact execCvConfig_wf _ _ _ _ _ _ _ hs
  · exact execCvRun_wf _ _ _ _ _ _ _ _ hs
  · exact execCvCtxRead_wf _ _ hs
  · exact execCvCtxWrite_wf _ _ hs
  · exact execCvScan_wf _ _ _ _ _ _ _ _ _ hs
  · exact execFlashStatus_wf _ hs
  · exact execFwStage_wf _ _ hs
  · exact execFwCommit_wf _ hs
  · exact execFwActivate_wf _ _ hs
  · exact execFwConfirm_wf _ hs
  · exact execLogRead_wf _ _ _ hs
  · exact execPwrStateSet_wf _ _ hs
  · exact execPwrStatus_wf _ hs
  · exact execPwrVote_wf _ _ hs
  · exact execPwrConfig_wf _ _ _ hs
  · exact execLineModeSet_wf _ _ _ _ hs
  · exact execLineModeGet_wf _ hs
  · exact execLineFlexCheck_wf _ _ hs
  · exact execFeConfig_wf _ _ _ _ _ _ _ _ hs
  · exact execFeStatus_wf _ _ hs
  · exact execFeSlices_wf _ _ hs
  · exact execFeCoefSet_wf _ _ _ _ hs
  · exact execEqConfig_wf _ _ _ _ _ _ _ _ _ hs
  · exact execEqStatus_wf _ hs
  · exact execEqEstimates_wf _ hs
  · exact execEqNlc_wf _ _ _ hs
  · exact execEqReacquire_wf _ _ hs
  · exact execEqHold_wf _ _ hs
  · exact execTxLaser_wf _ _ _ _ _ hs
  · exact execTxEnable_wf _ _ hs
  · exact execTxShaping_wf _ _ _ _ _ _ _ hs
  · exact execTxStatus_wf _ hs
  · exact execTxSafety_wf _ _ _ _ hs
  · exact execTxSlices_wf _ _ hs
  · exact execFecConfig_wf _ _ _ _ hs
  · exact execFecStatus_wf _ hs
  · exact execFecCounters_wf _ _ hs
  · exact execFecInject_wf _ _ _ hs
  · exact execTribDefine_wf _ _ _ _ _ hs
  · exact execTribRemove_wf _ _ hs
  · exact execTribStatus_wf _ _ _ hs
  · exact execTfStatus_wf _ hs
  · exact execKeyKekInfo_wf _ hs
  · exact execKeyLoad_wf _ _ hs
  · exact execKeyErase_wf _ _ _ hs
  · exact execKeyAssign_wf _ _ _ _ hs
  · exact execKeyActivate_wf _ _ hs
  · exact execKeyStatus_wf _ _ hs
  · exact execCiphTribStatus_wf _ _ _ hs
  · exact execCiphSelftest_wf _ hs
  · exact execCiphTribMode_wf _ _ _ hs
  · exact execMmRun_wf _ _ _ _ _ _ _ _ _ _ hs
  · exact execMmCtxSave_wf _ _ _ hs
  · exact execMmCtxRestore_wf _ _ hs
  · exact execMmRead_wf _ _ _ _ hs
  · exact execHlConfig_wf _ _ _ _ _ _ _ _ hs
  · exact execHlStatus_wf _ hs
  · exact execHlLaneStatus_wf _ _ hs
  · exact execHlPort_wf _ _ _ hs
  · exact execHlPower_wf _ _ hs
  · exact execHlLoopback_wf _ _ _ hs
  · exact execHlRetrain_wf _ _ hs
  · exact execRefInputConfig_wf _ _ _ _ _ _ _ hs
  · exact execRefSelect_wf _ _ _ _ hs
  · exact execRefStatus_wf _ hs
  · exact execRefInputStatus_wf _ _ hs
  · exact execRefOutputConfig_wf _ _ _ _ _ _ hs
  · exact execRefPpsConfig_wf _ _ _ _ _ hs
  · exact execRefTodSet_wf _ _ _ _ _ _ hs
  · exact execRefTodGet_wf _ hs
  · exact execHsHistory_wf _ _ hs
  · exact execHsHistoryRead_wf _ _ _ hs
  · exact execHsSenseConfig_wf _ _ hs
  · exact execHsSenseRead_wf _ _ _ hs
  · exact execHsTriggerConfig_wf _ _ _ _ _ _ hs
  · exact execHsCaptureCmd_wf _ _ _ hs
  · exact execHsCaptureRead_wf _ _ _ _ hs
  · exact execHsCruiser_wf _ _ _ hs
  · exact execHsStoreStatus_wf _ hs
  · exact execHsRegionInit_wf _ _ hs
  · exact execCalStatus_wf _ _ _ hs
  · exact execCalConfig_wf _ _ _ _ hs
  · exact execCalRun_wf _ _ _ hs
  · exact execMonConfig_wf _ _ _ hs
  · exact execMonChannel_wf _ _ _ _ _ _ _ hs
  · exact execMonTable_wf _ _ hs
  · exact execMonRead_wf _ _ _ hs
  · exact execAgeReport_wf _ _ hs
  · exact execAgeConfig_wf _ _ _ hs
  · exact execTallyRead_wf _ _ _ hs
  · exact execTallyClear_wf _ _ hs
  · exact execBlazeConfig_wf _ _ _ hs
  · exact execBlazeRead_wf _ _ _ hs
  · exact execDbgFreezeCmd_wf _ _ _ _ hs
  · exact execDbgRelease_wf _ hs
  · exact execDbgStatus_wf _ hs
  · exact hs

theorem runNow_wf (late : Bool) (i : Instr) {s : State} (hs : memoriesWf s = true) : memoriesWf (runNow late i s) = true := by
  unfold runNow
  split
  · rename_i t ht
    have h := mailboxExec_wf i (s := { s with q := { s.q with acting := some late } }) hs
    rw [ht] at h
    exact h
  · exact hs

theorem runPend_wf (p : Pend) {s : State} (hs : memoriesWf s = true) : memoriesWf (runPend p s) = true :=
  ite_wf (unanswered_wf (fun _ _ hu ho => Option.some.inj ho ▸ mailboxExec_wf p.cmd hu) hs) (runNow_wf p.late p.cmd hs)

theorem execSchedCommandDue_wf {s : State} (hs : memoriesWf s = true) : outWf (execSchedCommandDue s) = true := by
  grind [execSchedCommandDue, runPend_wf, outWf_next, outWf_fault, memoriesWf_mk, win_wf, store_wf, flash_wf]

theorem runAll_wf (le : Pend → Pend → Bool) (due : State → List Pend) : ∀ (n : Nat) {s : State}, memoriesWf s = true →
    memoriesWf (runAll le due n s) = true
  | 0, _, hs => hs
  | n + 1, s, hs => by
    unfold runAll
    split
    · exact runAll_wf le due n (runPend_wf _ hs)
    · exact hs

theorem execTxSpanBoundary_wf {s : State} (hs : memoriesWf s = true) : outWf (execTxSpanBoundary s) = true :=
  outWf_next (ite_wf (txSpanTick_wf (runAll_wf _ _ _ (runAll_wf _ _ _ hs))) hs)

theorem cqError_wf (queue : BitVec 2) (slot : BitVec 5) (reason : Nat) (tag : Half) {s : State} (hs : memoriesWf s = true) :
    memoriesWf (cqError queue slot reason tag s) = true := ite_wf hs (logEntry_wf _ _ _ _ hs)

theorem hold_wf (i : Instr) (due : Lts) (late : Bool) {s : State} (hs : memoriesWf s = true) :
    memoriesWf (hold i due late s) = true := hs

theorem afterRunning_wf {s : State} (hs : memoriesWf s = true) : memoriesWf (afterRunning s) = true := by
  grind [afterRunning, memoriesWf_mk, win_wf, store_wf, flash_wf]

theorem schedule_wf (i : Instr) (h : Hdr) {s : State} (hs : memoriesWf s = true) : memoriesWf (schedule i h s) = true := by
  refine ite_wf hs ?_
  split
  · exact ite_wf (ite_wf (runNow_wf _ _ hs) hs) hs
  · exact ite_wf hs hs

theorem actUnscheduled_wf (i : Instr) {s : State} (hs : memoriesWf s = true) : memoriesWf (actUnscheduled i s) = true := by
  grind [actUnscheduled, hold_wf, runNow_wf, memoriesWf_mk, win_wf, store_wf, flash_wf]

theorem setFails_wf (h : Hdr) (code flags : Byte) (p : FlexReq) {s t : State} (hs : memoriesWf s = true)
    (hf : setFails h code flags p s = some t) : memoriesWf t = true := by
  unfold setFails at hf
  split at hf
  · cases hf; exact refuse_wf _ _ _ hs
  · split at hf
    · cases hf; exact bundleFails_wf _ _ _ _ hs
    · cases hf

theorem takeCommand_wf (i : Instr) (h : Hdr) (op : Nat) (bufHeld : Bool) {s : State} (hs : memoriesWf s = true) :
    memoriesWf (takeCommand i h op bufHeld s) = true := by
  unfold takeCommand
  split
  · exact hs
  · exact refuse_wf _ _ _ hs
  · refine ite_wf (refuse_wf _ _ _ hs) (ite_wf (ite_wf (refuse_wf _ _ _ hs) (ite_wf (refuse_wf _ _ _ hs) ?_)) (actUnscheduled_wf _ hs))
    split
    · rename_i code flags p
      cases hf : setFails h code flags p s with
      | none => exact afterRunning_wf (schedule_wf _ _ hs)
      | some t => exact setFails_wf _ _ _ _ hs hf
    · exact schedule_wf _ _ hs

theorem execDescriptorTake_wf {s : State} (hs : memoriesWf s = true) : outWf (execDescriptorTake s) = true := by
  grind [execDescriptorTake, command_wf, cqError_wf, refuse_wf, setBusy_wf, takeCommand_wf, outWf_next, outWf_fault,
    memoriesWf_mk, win_wf, store_wf, flash_wf, memWriteN_wf, memFilter_wf]

theorem execNotifyRelease_wf {s : State} (hs : memoriesWf s = true) :
    outWf (execNotifyRelease s) = true := outWf_next (releaseDue_wf hs)

theorem execNotifyBacklogDrain_wf {s : State} (hs : memoriesWf s = true) : outWf (execNotifyBacklogDrain s) = true := by
  grind [execNotifyBacklogDrain, drainBacklog_wf, outWf_next, outWf_fault, memoriesWf_mk, win_wf, store_wf, flash_wf]

theorem execIrqHoldExpire_wf {s : State} (hs : memoriesWf s = true) : outWf (execIrqHoldExpire s) = true := by
  unfold execIrqHoldExpire
  refine outWf_next ?_
  split <;> exact hs

/-! ### HostIf -/

theorem accessed_wf (link : Link) {s : State} (hs : memoriesWf s = true) : memoriesWf (accessed link s) = true := by
  cases link
  all_goals exact hs

theorem moveRqHead_wf (v : Word) {s : State} (hs : memoriesWf s = true) : memoriesWf (moveRqHead v s) = true := by
  grind [moveRqHead, drainResponses_wf, memoriesWf_mk, win_wf, store_wf, flash_wf]

theorem moveNqHead_wf (v : Word) {s : State} (hs : memoriesWf s = true) : memoriesWf (moveNqHead v s) = true := ite_wf hs hs

theorem submit_wf (q : BitVec 2) (slot : BitVec 5) {s : State} (hs : memoriesWf s = true) :
    memoriesWf (submit q slot s) = true := hs

theorem submitMany_wf (q : BitVec 2) : ∀ (n : Nat) (from_ : BitVec 6) {s : State}, memoriesWf s = true →
    memoriesWf (submitMany q from_ n s) = true
  | 0, _, _, hs => hs
  | n + 1, from_, _, hs => submitMany_wf q n (from_ + 1) (submit_wf q _ hs)

theorem ringDoorbell_wf (q : BitVec 2) (v : Word) {s : State} (hs : memoriesWf s = true) : memoriesWf (ringDoorbell q v s) = true :=
  ite_wf (submitMany_wf _ _ _ hs) (cqError_wf _ _ _ _ hs)

theorem clearCauses_wf (v : Word) {s : State} (hs : memoriesWf s = true) : memoriesWf (clearCauses v s) = true := hs

theorem writeCoal_wf (v : Word) {s : State} (hs : memoriesWf s = true) : memoriesWf (writeCoal v s) = true := hs

theorem writeCtrl_wf (v : Word) {s : State} (hs : memoriesWf s = true) :
    memoriesWf (writeCtrl v s) = true := ite_wf (restartFromStep3_wf hs) hs

theorem clearFault_wf (v : Word) {s : State} (hs : memoriesWf s = true) : memoriesWf (clearFault v s) = true := by
  grind [clearFault, setCause_wf, memoriesWf_mk, win_wf, store_wf, flash_wf]

theorem writeWakeReq_wf (v : Word) {s : State} (hs : memoriesWf s = true) :
    memoriesWf (writeWakeReq v s) = true := ite_wf (wake_wf _ hs) hs

theorem writeVector_wf (i : BitVec 2) (v : Word) {s : State} (hs : memoriesWf s = true) :
    memoriesWf (writeVector i v s) = true := by
  unfold writeVector
  split <;> exact hs

theorem writeHif_wf (a : Nat) (v : Word) {s : State} (hs : memoriesWf s = true) : memoriesWf (writeHif a v s) = true := by
  unfold writeHif
  split
  · exact writeCtrl_wf v hs
  · exact ringDoorbell_wf _ v hs
  · exact ringDoorbell_wf _ v hs
  · exact ringDoorbell_wf _ v hs
  · exact ringDoorbell_wf _ v hs
  · exact moveRqHead_wf v hs
  · exact moveNqHead_wf v hs
  · exact clearCauses_wf v hs
  · exact hs
  · exact writeCoal_wf v hs
  · exact hs
  · exact hs

theorem writeAon_wf (a : Nat) (v : Word) {s : State} (hs : memoriesWf s = true) : memoriesWf (writeAon a v s) = true := by
  unfold writeAon
  split
  · exact clearFault_wf v hs
  · exact hs
  · exact hs
  · exact hs
  · exact writeWakeReq_wf v hs
  · exact hs
  · exact hs

theorem writeWord_wf (link : Link) (a : Nat) (v : Word) {s : State} (hs : memoriesWf s = true) :
    memoriesWf (writeWord link a v s) = true := by
  grind [writeWord, memWriteN_wf, writeAon_wf, writeHif_wf, writeVector_wf, memoriesWf_mk, win_wf, store_wf, flash_wf,
    memWriteN_wf, memFilter_wf]

theorem readLts_wf {s : State} (hs : memoriesWf s = true) : memoriesWf (readLts s).2 = true := hs

theorem readEst_wf {s : State} (hs : memoriesWf s = true) : memoriesWf (readEst s).2 = true := hs

theorem readHif_wf (a : Nat) {s : State} (hs : memoriesWf s = true) : memoriesWf (readHif a s).2 = true := by
  unfold readHif
  split
  all_goals exact hs

theorem readAon_wf (a : Nat) {s : State} (hs : memoriesWf s = true) : memoriesWf (readAon a s).2 = true := by
  unfold readAon
  split
  all_goals exact hs

theorem readWord_wf (link : Link) (a : Nat) {s : State} (hs : memoriesWf s = true) : memoriesWf (readWord link a s).2 = true := by
  grind [readWord, readHif_wf, readAon_wf]

theorem writeFrom_wf : ∀ (n a : Nat) (bs : List Byte) {s : State}, memoriesWf s = true → memoriesWf (writeFrom a bs n s) = true
  | 0, _, _, _, hs => by unfold writeFrom; exact hs
  | n + 1, a, bs, _, hs => by unfold writeFrom; exact writeFrom_wf n _ (bs.drop 4) (writeWord_wf .spi a _ hs)

theorem execSpiWriteFrame_wf (instr : Byte) (addr : Half) (data : List Byte) {s : State} (hs : memoriesWf s = true) :
    outWf (execSpiWriteFrame instr addr data s) = true := outWf_next (ite_wf (writeFrom_wf _ _ _ hs) hs)

theorem readFrom_wf : ∀ (n a : Nat) {s : State}, memoriesWf s = true → memoriesWf (readFrom a n s).2 = true
  | 0, _, _, hs => hs
  | n + 1, a, _, hs => readFrom_wf n ((a + 4) % 0x10000) (readWord_wf .spi a hs)

theorem execSpiReadFrame_wf (instr : Byte) (addr : Half) (words : Nat) (ragged : Bool) {s : State} (hs : memoriesWf s = true) :
    outWf (execSpiReadFrame instr addr words ragged s) = true := outWf_next (ite_wf (readFrom_wf _ _ hs) hs)

theorem execPcieUnsupportedAccess_wf (addr : Half) (size : Nat) (_write : Bool) {s : State} (hs : memoriesWf s = true) :
    outWf (execPcieUnsupportedAccess addr size _write s) = true := by
  unfold execPcieUnsupportedAccess
  refine outWf_next ?_
  split <;> exact hs

theorem execRegisterWrite_wf (link : Link) (addr : Half) (lo : Word) (hi : Option Word) {s : State} (hs : memoriesWf s = true) :
    outWf (execRegisterWrite link addr lo hi s) = true := by
  cases hi with
  | none => exact outWf_next (ite_wf (accessed_wf _ (writeWord_wf _ _ _ hs)) (ite_wf hs hs))
  | some w => exact outWf_next (ite_wf hs (ite_wf (accessed_wf _ (writeWord_wf _ _ _ (writeWord_wf _ _ _ hs))) (ite_wf hs hs)))

theorem execCqDoorbell_wf (link : Link) (q : BitVec 2) (v : Word) {s : State} (hs : memoriesWf s = true) :
    outWf (execCqDoorbell link q v s) = true := outWf_next (ite_wf (accessed_wf _ (ringDoorbell_wf _ _ hs)) hs)

theorem execRqHeadWrite_wf (link : Link) (v : Word) {s : State} (hs : memoriesWf s = true) :
    outWf (execRqHeadWrite link v s) = true := outWf_next (ite_wf (accessed_wf _ (moveRqHead_wf _ hs)) hs)

theorem execNqHeadWrite_wf (link : Link) (v : Word) {s : State} (hs : memoriesWf s = true) :
    outWf (execNqHeadWrite link v s) = true := outWf_next (ite_wf (accessed_wf _ (moveNqHead_wf _ hs)) hs)

theorem execIrqStatusClear_wf (link : Link) (v : Word) {s : State} (hs : memoriesWf s = true) :
    outWf (execIrqStatusClear link v s) = true := outWf_next (ite_wf (accessed_wf _ hs) hs)

theorem execSoftReset_wf (link : Link) (v : Word) {s : State} (hs : memoriesWf s = true) :
    outWf (execSoftReset link v s) = true := outWf_next (ite_wf (accessed_wf _ (writeCtrl_wf _ hs)) hs)

theorem unread_wf (link : Link) {s : State} (hs : memoriesWf s = true) : memoriesWf (unread link s) = true := hs

theorem readEach_wf (link : Link) : ∀ (as : List Nat) {s : State}, memoriesWf s = true → memoriesWf (readEach link as s).2 = true
  | [], _, hs => hs
  | a :: t, _, hs => readEach_wf link t (readWord_wf link a hs)

theorem hostReads_wf (link : Link) (as : List Nat) {s : State} (hs : memoriesWf s = true) :
    memoriesWf (hostReads link as s) = true :=
  accessed_wf link (readEach_wf link as hs)

theorem execLtsLatchRead_wf (link : Link) (wide : Bool) {s : State} (hs : memoriesWf s = true) :
    outWf (execLtsLatchRead link wide s) = true := by
  grind [execLtsLatchRead, hostReads_wf, unread_wf, outWf_next, outWf_fault, memoriesWf_mk, win_wf, store_wf, flash_wf]

theorem execLtsEstLatchRead_wf (link : Link) (wide : Bool) {s : State} (hs : memoriesWf s = true) :
    outWf (execLtsEstLatchRead link wide s) = true := by
  grind [execLtsEstLatchRead, hostReads_wf, unread_wf, outWf_next, outWf_fault, memoriesWf_mk, win_wf, store_wf, flash_wf]

theorem execAonFaultClear_wf (link : Link) (v : Word) {s : State} (hs : memoriesWf s = true) :
    outWf (execAonFaultClear link v s) = true := outWf_next (ite_wf (accessed_wf _ (clearFault_wf _ hs)) hs)

theorem execWakeReqWrite_wf (link : Link) (v : Word) {s : State} (hs : memoriesWf s = true) :
    outWf (execWakeReqWrite link v s) = true := outWf_next (ite_wf (accessed_wf _ (writeWakeReq_wf _ hs)) hs)

/-! ### Every step -/

/-- Every command keeps the form. -/
theorem exec_wf {s : State} (hs : memoriesWf s = true) : ∀ i : Instr, outWf (exec i s) = true
  | .spiWriteFrame instr addr data => execSpiWriteFrame_wf instr addr data hs
  | .spiReadFrame instr addr words ragged => execSpiReadFrame_wf instr addr words ragged hs
  | .pcieUnsupportedAccess addr size write => execPcieUnsupportedAccess_wf addr size write hs
  | .registerWrite link addr lo hi => execRegisterWrite_wf link addr lo hi hs
  | .cqDoorbell link q v => execCqDoorbell_wf link q v hs
  | .rqHeadWrite link v => execRqHeadWrite_wf link v hs
  | .nqHeadWrite link v => execNqHeadWrite_wf link v hs
  | .irqStatusClear link v => execIrqStatusClear_wf link v hs
  | .softReset link v => execSoftReset_wf link v hs
  | .ltsLatchRead link wide => execLtsLatchRead_wf link wide hs
  | .ltsEstLatchRead link wide => execLtsEstLatchRead_wf link wide hs
  | .aonFaultClear link v => execAonFaultClear_wf link v hs
  | .wakeReqWrite link v => execWakeReqWrite_wf link v hs
  | .descriptorTake => execDescriptorTake_wf hs
  | .schedCommandDue => execSchedCommandDue_wf hs
  | .notifyRelease => execNotifyRelease_wf hs
  | .notifyBacklogDrain => execNotifyBacklogDrain_wf hs
  | .irqHoldExpire => execIrqHoldExpire_wf hs
  | .sedgeTaskStart t w => execSedgeTaskStart_wf t w hs
  | .sedgeTaskComplete t => execSedgeTaskComplete_wf t hs
  | .engineHalt e c => execEngineHalt_wf e c hs
  | .engineRestart e seed => execEngineRestart_wf e seed hs
  | .vsb33Valid mv => execVsb33Valid_wf mv hs
  | .vsb33Loss mv => execVsb33Loss_wf mv hs
  | .coldStart => execColdStart_wf hs
  | .vin12HoldConfirmed mv => execVin12HoldConfirmed_wf mv hs
  | .domainPowerGood d => execDomainPowerGood_wf d hs
  | .powerGoodTimeout d osc => execPowerGoodTimeout_wf d osc hs
  | .powerRetry => execPowerRetry_wf hs
  | .wardenStart => execWardenStart_wf hs
  | .commandPathReady => execCommandPathReady_wf hs
  | .lineTimeStart => execLineTimeStart_wf hs
  | .firstCalibrationDone => execFirstCalibrationDone_wf hs
  | .enterRun => execEnterRun_wf hs
  | .fwReadyTimeout => execFwReadyTimeout_wf hs
  | .wardenWatchdogExpire => execWardenWatchdogExpire_wf hs
  | .resetAssert lowNs => execResetAssert_wf lowNs hs
  | .resetRelease => execResetRelease_wf hs
  | .pciePerst msixEnabled => execPciePerst_wf msixEnabled hs
  | .wakePin low cycles => execWakePin_wf low cycles hs
  | .timerWake => execTimerWake_wf hs
  | .supplyWake mv => execSupplyWake_wf mv hs
  | .aonTimerWrap => execAonTimerWrap_wf hs
  | .lowStateEntry => execLowStateEntry_wf hs
  | .entryWindowEnd => execEntryWindowEnd_wf hs
  | .wakeAccept => execWakeAccept_wf hs
  | .ovenReady caseTemp => execOvenReady_wf caseTemp hs
  | .lineTimeResume => execLineTimeResume_wf hs
  | .wakeExitComplete => execWakeExitComplete_wf hs
  | .coppiceSet mv => execCoppiceSet_wf mv hs
  | .coppiceShed => execCoppiceShed_wf hs
  | .coppiceClear mv => execCoppiceClear_wf mv hs
  | .orderlyOffDone => execOrderlyOffDone_wf hs
  | .caseTempMeasure temp => execCaseTempMeasure_wf temp hs
  | .overtempShutdown => execOvertempShutdown_wf hs
  | .mmVoteExpire => execMmVoteExpire_wf hs
  | .fenWatchWindow => execFenWatchWindow_wf hs
  | .fenWatchCompare power => execFenWatchCompare_wf power hs
  | .watchExit => execWatchExit_wf hs
  | .modeChangeStart => execModeChangeStart_wf hs
  | .modeChangeLoad => execModeChangeLoad_wf hs
  | .modeChangeComplete => execModeChangeComplete_wf hs
  | .losCompare power => execLosCompare_wf power hs
  | .adcOverrange ch high samples rx => execAdcOverrange_wf ch high samples rx hs
  | .gainStepApply rx => execGainStepApply_wf rx hs
  | .sliceFailure conv ch slice => execSliceFailure_wf conv ch slice hs
  | .calSlotOpen => execCalSlotOpen_wf hs
  | .sliceSwap conv => execSliceSwap_wf conv hs
  | .swapSlotSkip conv => execSwapSlotSkip_wf conv hs
  | .sliceCalDone conv offset gain skew noise => execSliceCalDone_wf conv offset gain skew noise hs
  | .resonatorCalUpdate input => execResonatorCalUpdate_wf input hs
  | .calibrationStale dom item => execCalibrationStale_wf dom item hs
  | .acqEntry => execAcqEntry_wf hs
  | .acqStateComplete cands cfoKhz => execAcqStateComplete_wf cands cfoKhz hs
  | .acqStateTimeout => execAcqStateTimeout_wf hs
  | .acqReturnA0 cause => execAcqReturnA0_wf cause hs
  | .trackExit => execTrackExit_wf hs
  | .cycleSlip polY r1 r2 rx => execCycleSlip_wf polY r1 r2 rx hs
  | .senseInput x rx => execSenseInput_wf x rx hs
  | .fecAlignDecision fractions rxSf => execFecAlignDecision_wf fractions rxSf hs
  | .fecAlignLoss fractions => execFecAlignLoss_wf fractions hs
  | .codewordDeliver c rx => execCodewordDeliver_wf c rx hs
  | .sfohReceive bytes rxSf => execSfohReceive_wf bytes rxSf hs
  | .tfHeaderReceive f rx => execTfHeaderReceive_wf f rx hs
  | .tfTransmit fills => execTfTransmit_wf fills hs
  | .defectSet d => execDefectSet_wf d hs
  | .defectClear d => execDefectClear_wf d hs
  | .txSpanBoundary => execTxSpanBoundary_wf hs
  | .rxSpanStart tid phase rx => execRxSpanStart_wf tid phase rx hs
  | .spanRecordReceive tid bytes rx => execSpanRecordReceive_wf tid bytes rx hs
  | .spanTagVerify tid data tag rx => execSpanTagVerify_wf tid data tag rx hs
  | .spanRelease tid => execSpanRelease_wf tid hs
  | .tagRecomputeMismatch tid => execTagRecomputeMismatch_wf tid hs
  | .laneFrameReceive f => execLaneFrameReceive_wf f hs
  | .osierAdvertise lane blk => execOsierAdvertise_wf lane blk hs
  | .osierStepAck lane blk => execOsierStepAck_wf lane blk hs
  | .osierTrain lane blk => execOsierTrain_wf lane blk hs
  | .osierLinkUp lane blk => execOsierLinkUp_wf lane blk hs
  | .osierLpReq lane blk => execOsierLpReq_wf lane blk hs
  | .osierLpAck lane blk => execOsierLpAck_wf lane blk hs
  | .osierFault lane blk => execOsierFault_wf lane blk hs
  | .osierStepSwitch transmitter => execOsierStepSwitch_wf transmitter hs
  | .osierPhaseLimit => execOsierPhaseLimit_wf hs
  | .osierL1Exit => execOsierL1Exit_wf hs
  | .ingressFail port cause => execIngressFail_wf port cause hs
  | .ingressRecover port => execIngressRecover_wf port hs
  | .refActivityLoss input => execRefActivityLoss_wf input hs
  | .clockSlewComplete => execClockSlewComplete_wf hs
  | .ppsEdge input offset widthNs sinceLastNs => execPpsEdge_wf input offset widthNs sinceLastNs hs
  | .todAnchorTimeout => execTodAnchorTimeout_wf hs
  | .ppsoutEdge errorNs => execPpsoutEdge_wf errorNs hs
  | .historyRecordClose => execHistoryRecordClose_wf hs
  | .senseSampleWrite s1 s2 s3 phaseRate dgd => execSenseSampleWrite_wf s1 s2 s3 phaseRate dgd hs
  | .captureFillDone codes => execCaptureFillDone_wf codes hs
  | .captureCopyDone => execCaptureCopyDone_wf hs
  | .cruiserPageCheck corrected syndromeZero decodable => execCruiserPageCheck_wf corrected syndromeZero decodable hs
  | .cruiserBoost => execCruiserBoost_wf hs
  | .storeRead word d pageDecodes => execStoreRead_wf word d pageDecodes hs
  | .mergeBufferTimeout word d pageDecodes => execMergeBufferTimeout_wf word d pageDecodes hs
  | .regionInitDone => execRegionInitDone_wf hs
  | .flashPatrol bitsCorrected readRetry => execFlashPatrol_wf bitsCorrected readRetry hs
  | .flashBlockFail block => execFlashBlockFail_wf block hs
  | .intervalBoundary day => execIntervalBoundary_wf day hs
  | .ageAccrue temp => execAgeAccrue_wf temp hs
  | .ageingDaily => execAgeingDaily_wf hs
  | .coreSlackEmergency => execCoreSlackEmergency_wf hs
  | .blazeSample cw ins => execBlazeSample_wf cw ins hs
  | .monConversion raw overRange => execMonConversion_wf raw overRange hs
  | .laserLock => execLaserLock_wf hs
  | .biasConverged loops => execBiasConverged_wf loops hs
  | .biasConvergeLimit loop drift => execBiasConvergeLimit_wf loop drift hs
  | .overpowerTrip peak => execOverpowerTrip_wf peak hs
  | .alsPulseStart => execAlsPulseStart_wf hs
  | .alsPulseEnd => execAlsPulseEnd_wf hs
  | .freezePin low => execFreezePin_wf low hs
  | .freezeTrigger t => execFreezeTrigger_wf t hs
  | .testLogicReset => execTestLogicReset_wf hs
  | .bypass tdi => execBypass_wf tdi hs
  | .idcode shifts => execIdcode_wf shifts hs
  | .samplePreload tdi => execSamplePreload_wf tdi hs
  | .extest tdi => execExtest_wf tdi hs
  | .frzSel chain => execFrzSel_wf chain hs
  | .frzData shifts => execFrzData_wf shifts hs
  | .sysIdentify h => execSysIdentify_wf h hs
  | .sysCancel h target => execSysCancel_wf h target hs
  | .cvConfig h profile width flags poly init xorOut => execCvConfig_wf h profile width flags poly init xorOut hs
  | .cvRun h profile mode ctx src region offset len => execCvRun_wf h profile mode ctx src region offset len hs
  | .cvCtxRead h ctx => execCvCtxRead_wf h ctx hs
  | .cvCtxWrite h ctx => execCvCtxWrite_wf h ctx hs
  | .cvScan h profile src region blk offset len action work => execCvScan_wf h profile src region blk offset len action work hs
  | .flashStatus h => execFlashStatus_wf h hs
  | .fwStage h offset => execFwStage_wf h offset hs
  | .fwCommit h => execFwCommit_wf h hs
  | .fwActivate h mode => execFwActivate_wf h mode hs
  | .fwConfirm h => execFwConfirm_wf h hs
  | .logRead h first count => execLogRead_wf h first count hs
  | .pwrStateSet h target => execPwrStateSet_wf h target hs
  | .pwrStatus h => execPwrStatus_wf h hs
  | .pwrVote h domains => execPwrVote_wf h domains hs
  | .pwrConfig h period flags => execPwrConfig_wf h period flags hs
  | .lineModeSet h code flags p => execLineModeSet_wf h code flags p hs
  | .lineModeGet h => execLineModeGet_wf h hs
  | .lineFlexCheck h p => execLineFlexCheck_wf h p hs
  | .feConfig h mode xGain yGain rms ovrStep losThr flags => execFeConfig_wf h mode xGain yGain rms ovrStep losThr flags hs
  | .feStatus h flags => execFeStatus_wf h flags hs
  | .feSlices h ch => execFeSlices_wf h ch hs
  | .feCoefSet h set action check => execFeCoefSet_wf h set action check hs
  | .eqConfig h taps profile bw flags hint window floor warmHold => execEqConfig_wf h taps profile bw flags hint window floor warmHold hs
  | .eqStatus h => execEqStatus_wf h hs
  | .eqEstimates h => execEqEstimates_wf h hs
  | .eqNlc h mode scale => execEqNlc_wf h mode scale hs
  | .eqReacquire h entry => execEqReacquire_wf h entry hs
  | .eqHold h hold => execEqHold_wf h hold hs
  | .txLaser h grid fine power flags => execTxLaser_wf h grid fine power flags hs
  | .txEnable h request => execTxEnable_wf h request hs
  | .txShaping h beta action flags cd scale clip => execTxShaping_wf h beta action flags cd scale clip hs
  | .txStatus h => execTxStatus_wf h hs
  | .txSafety h on interval pulse => execTxSafety_wf h on interval pulse hs
  | .txSlices h ch => execTxSlices_wf h ch hs
  | .fecConfig h l flags deg => execFecConfig_wf h l flags deg hs
  | .fecStatus h => execFecStatus_wf h hs
  | .fecCounters h flags => execFecCounters_wf h flags hs
  | .fecInject h on ber => execFecInject_wf h on ber hs
  | .tribDefine h tid client port cipher => execTribDefine_wf h tid client port cipher hs
  | .tribRemove h tid => execTribRemove_wf h tid hs
  | .tribStatus h tid flags => execTribStatus_wf h tid flags hs
  | .tfStatus h => execTfStatus_wf h hs
  | .keyKekInfo h => execKeyKekInfo_wf h hs
  | .keyLoad h slot => execKeyLoad_wf h slot hs
  | .keyErase h slot flags => execKeyErase_wf h slot flags hs
  | .keyAssign h tid ref slot => execKeyAssign_wf h tid ref slot hs
  | .keyActivate h tid => execKeyActivate_wf h tid hs
  | .keyStatus h slot => execKeyStatus_wf h slot hs
  | .ciphTribStatus h tid flags => execCiphTribStatus_wf h tid flags hs
  | .ciphSelftest h => execCiphSelftest_wf h hs
  | .ciphTribMode h tid behaviour => execCiphTribMode_wf h tid behaviour hs
  | .mmRun h alg dir mode ctx slot prio aadLen iv tag => execMmRun_wf h alg dir mode ctx slot prio aadLen iv tag hs
  | .mmCtxSave h ctx form => execMmCtxSave_wf h ctx form hs
  | .mmCtxRestore h ctx => execMmCtxRestore_wf h ctx hs
  | .mmRead h ctx flags offset => execMmRead_wf h ctx flags offset hs
  | .hlConfig h mode n step group flags inPol outPol => execHlConfig_wf h mode n step group flags inPol outPol hs
  | .hlStatus h => execHlStatus_wf h hs
  | .hlLaneStatus h lane => execHlLaneStatus_wf h lane hs
  | .hlPort h port flags => execHlPort_wf h port flags hs
  | .hlPower h state => execHlPower_wf h state hs
  | .hlLoopback h kind lanes => execHlLoopback_wf h kind lanes hs
  | .hlRetrain h kind => execHlRetrain_wf h kind hs
  | .refInputConfig h input prio freq tol drift off => execRefInputConfig_wf h input prio freq tol drift off hs
  | .refSelect h mode input flags => execRefSelect_wf h mode input flags hs
  | .refStatus h => execRefStatus_wf h hs
  | .refInputStatus h input => execRefInputStatus_wf h input hs
  | .refOutputConfig h output source lane freq flags => execRefOutputConfig_wf h output source lane freq flags hs
  | .refPpsConfig h mode input offset width => execRefPpsConfig_wf h mode input offset width hs
  | .refTodSet h secs ns anchor sf sym => execRefTodSet_wf h secs ns anchor sf sym hs
  | .refTodGet h => execRefTodGet_wf h hs
  | .hsHistory h start => execHsHistory_wf h start hs
  | .hsHistoryRead h first count => execHsHistoryRead_wf h first count hs
  | .hsSenseConfig h rate => execHsSenseConfig_wf h rate hs
  | .hsSenseRead h first count => execHsSenseRead_wf h first count hs
  | .hsTriggerConfig h enables m action rateThr excThr => execHsTriggerConfig_wf h enables m action rateThr excThr hs
  | .hsCaptureCmd h action flags => execHsCaptureCmd_wf h action flags hs
  | .hsCaptureRead h slot flags offset => execHsCaptureRead_wf h slot flags offset hs
  | .hsCruiser h rate flags => execHsCruiser_wf h rate flags hs
  | .hsStoreStatus h => execHsStoreStatus_wf h hs
  | .hsRegionInit h region => execHsRegionInit_wf h region hs
  | .calStatus h dom item => execCalStatus_wf h dom item hs
  | .calConfig h dom flags stale => execCalConfig_wf h dom flags stale hs
  | .calRun h dom slice => execCalRun_wf h dom slice hs
  | .monConfig h mode mask => execMonConfig_wf h mode mask hs
  | .monChannel h ch ref range flags offset gain => execMonChannel_wf h ch ref range flags offset gain hs
  | .monTable h entries => execMonTable_wf h entries hs
  | .monRead h src count => execMonRead_wf h src count hs
  | .ageReport h metric => execAgeReport_wf h metric hs
  | .ageConfig h margin flags => execAgeConfig_wf h margin flags hs
  | .tallyRead h id bin => execTallyRead_wf h id bin hs
  | .tallyClear h id => execTallyClear_wf h id hs
  | .blazeConfig h period flags => execBlazeConfig_wf h period flags hs
  | .blazeRead h first count => execBlazeRead_wf h first count hs
  | .dbgFreezeCmd h action trigger delay => execDbgFreezeCmd_wf h action trigger delay hs
  | .dbgRelease h => execDbgRelease_wf h hs
  | .dbgStatus h => execDbgStatus_wf h hs
  | .cvJobDone => execCvJobDone_wf hs
  | .mmJobDone ctx => execMmJobDone_wf ctx hs
  | .vinOkChange mv => execVinOkChange_wf mv hs

/-- Settles O60: a tick writes no memory, and a command keeps the form of each. -/
theorem stepKeepsMemories : Obligations.StepKeepsMemories := by
  unfold Obligations.StepKeepsMemories
  intro s t hs ht
  unfold step at ht
  split at ht
  · cases ht
    exact clockTick_wf hs
  · rename_i c rest _
    have hc := exec_wf (s := { s with pending := rest }) (memoriesWf_mk (win_wf hs) (store_wf hs) (flash_wf hs)) c
    rw [ht] at hc
    exact hc

end Sys2Proof.Machine
end

section
/-! The step and the host's accesses to the management window (R38 to R60, R429, R443, R444): settles O1 to O6, O8 and O59. -/
namespace Sys2Proof.Machine

open Sys2Proof

/-! ### The step -/

/-- Settles O1, by the queue's two forms. -/
theorem stepRunsFront : Obligations.StepRunsFront := by
  unfold Obligations.StepRunsFront
  intro s c rest h
  simp only [step, h]

theorem step_of_nil {s : State} (h : s.pending = []) : step s = .next (clockTick s) := by
  simp only [step, h]

/-- Settles O2: on an empty queue the step is one tick, and each clock is read off the tick. -/
theorem emptyQueueTicks : Obligations.EmptyQueueTicks := by
  unfold Obligations.EmptyQueueTicks
  intro s h
  refine ⟨clockTick s, step_of_nil h, fun hr hf => ?_, fun hs => ?_, fun hv => ?_, fun hv => ?_, fun hf => ?_, fun hf => ?_, ?_⟩
  · simp [clockTick, hr, hf]
  · rcases hs with hs | hs <;> simp [clockTick, hs]
  · simp [clockTick, hv]
  · simp [clockTick, hv]
  · simp [clockTick, hf]
  · simp [clockTick, hf]
  · rfl

/-- Settles O3: every register named is read at the reset state. -/
theorem resetRegisters : Obligations.ResetRegisters := by
  unfold Obligations.ResetRegisters
  decide

/-- Settles O59: at reset no memory lists a byte and no fuse is blown. -/
theorem resetMemories : Obligations.ResetMemories := by
  unfold Obligations.ResetMemories
  exact ⟨rfl, rfl⟩

/-! ### Writes of one word (R38, R39, R443) -/

theorem leBytes_length (n v : Nat) : (leBytes n v).length = n := by
  induction n generalizing v with
  | zero => rfl
  | succ n ih => simp [leBytes, ih]

theorem leBytes_getD (n v k : Nat) (h : k < n) : (leBytes n v).getD k 0 = BitVec.ofNat 8 (v / 256 ^ k) := by
  induction n generalizing v k with
  | zero => omega
  | succ n ih =>
    cases k with
    | zero => simp [leBytes]
    | succ k =>
      rw [leBytes, List.getD_cons_succ, ih _ _ (by omega), Nat.div_div_eq_div_mul, Nat.pow_succ, Nat.mul_comm]

theorem exec_registerWrite_word (link : Link) {a : Nat} (v : Word) (s : State) (h4 : a % 4 = 0) (hlt : a < 0x10000) :
    exec (.registerWrite link (BitVec.ofNat 16 a) v none) s = .next (accessed link (writeWord link a v s)) := by
  have ha : (BitVec.ofNat 16 a).toNat = a := by
    rw [BitVec.toNat_ofNat]
    exact Nat.mod_eq_of_lt hlt
  simp [exec, execRegisterWrite, ha, h4]

/-- R443: a word that the window takes lands in its four bytes. -/
theorem writeWord_of_windowTakes (link : Link) {a : Nat} (v : Word) {s : State} (hup : windowUp s = true)
    (ht : windowTakes a s = true) (ha : 0x200 ≤ a) :
    writeWord link a v s = { s with win := memWriteN 0 s.win a (leBytes 4 v.toNat) } := by
  have h1 : ¬ a < 0x100 := by omega
  have h2 : ¬ a < 0x200 := by omega
  simp [writeWord, answers_of_windowUp link a hup, h1, h2, ht]

/-- R443: a word that neither the window nor the MSI-X table takes changes nothing. -/
theorem writeWord_of_not_windowTakes (link : Link) {a : Nat} (v : Word) {s : State} (hup : windowUp s = true)
    (ht : windowTakes a s = false) (ha : 0x200 ≤ a) (hx : a < 0xF000) : writeWord link a v s = s := by
  have h1 : ¬ a < 0x100 := by omega
  have h2 : ¬ a < 0x200 := by omega
  have h3 : ¬ 0xF000 ≤ a := by omega
  simp [writeWord, answers_of_windowUp link a hup, h1, h2, ht, h3]

/-- Settles O4: the window takes a word in the command queues and in a buffer that no command holds, and nowhere else below the
MSI-X table. -/
theorem hostWordWrites : Obligations.HostWordWrites := by
  unfold Obligations.HostWordWrites
  intro link a v s hwf hup h4 hlt
  rw [exec_registerWrite_word link v s h4 hlt]
  refine ⟨fun h => ?_, fun h => ?_⟩
  · have ht : windowTakes a s = true := by
      rcases h with ⟨h1, h2⟩ | ⟨h1, h2, h3⟩
      · simp [windowTakes, h1, h2]
      · simp [windowTakes, h1, h2, h3]
    rw [writeWord_of_windowTakes link v hup ht (by omega)]
    refine ⟨_, rfl, fun k hk => ?_, fun b hb => ?_, ?_⟩
    · have hr := memRead_memWriteN_same (leBytes 4 v.toNat) a k hwf (by rwa [leBytes_length])
      rw [leBytes_getD _ _ _ hk] at hr
      cases link <;> exact hr
    · have hr := memRead_memWriteN_other (leBytes 4 v.toNat) a b hwf (by rwa [leBytes_length])
      cases link <;> exact hr
    · cases link <;> rfl
  · have ht : windowTakes a s = false := by
      rcases h with h | h | h | h | ⟨h1, h2, h3⟩
      · simp [windowTakes]; omega
      · simp [windowTakes]; omega
      · simp [windowTakes]; omega
      · simp [windowTakes]; omega
      · simp [windowTakes, h3]; omega
    rw [writeWord_of_not_windowTakes link v hup ht (by omega) (by omega)]

/-! ### SPI frames and wide accesses (R39, R40, R444) -/

/-- The state after reads whose latches and draws are `x`, `y` and `z`: reads change nothing else. -/
def latched (x : Sf) (y : Half) (z : Nat) (s : State) : State :=
  { s with hif := { s.hif with sfLatch := x }, aon := { s.aon with estHi := y }, time := { s.time with drawn := z } }

theorem readHif_latched (a : Nat) (s : State) : ∃ x y z, (readHif a s).2 = latched x y z s := by
  unfold readHif
  split
  case h_22 => exact ⟨(nowLts s).sf, s.aon.estHi, s.time.drawn, rfl⟩
  all_goals exact ⟨s.hif.sfLatch, s.aon.estHi, s.time.drawn, rfl⟩

theorem readAon_latched (a : Nat) (s : State) : ∃ x y z, (readAon a s).2 = latched x y z s := by
  unfold readAon
  split
  case h_7 => exact ⟨s.hif.sfLatch, BitVec.ofNat 16 (carriedCount s / 2 ^ 32), s.time.drawn + 1, rfl⟩
  all_goals exact ⟨s.hif.sfLatch, s.aon.estHi, s.time.drawn, rfl⟩

theorem readWord_latched (link : Link) (a : Nat) (s : State) : ∃ x y z, (readWord link a s).2 = latched x y z s := by
  unfold readWord
  repeat' split
  case isFalse.isTrue => exact readHif_latched a s
  case isFalse.isFalse.isTrue => exact readAon_latched a s
  all_goals exact ⟨s.hif.sfLatch, s.aon.estHi, s.time.drawn, rfl⟩

/-- A read frame returns one word for each asked for, and moves the two latches only. -/
theorem readFrom_latched : ∀ (n a : Nat) (s : State), (readFrom a n s).1.length = n ∧ ∃ x y z, (readFrom a n s).2 = latched x y z s
  | 0, _, s => ⟨rfl, s.hif.sfLatch, s.aon.estHi, s.time.drawn, rfl⟩
  | n + 1, a, s => by
    obtain ⟨hl, x, y, z, h⟩ := readFrom_latched n ((a + 4) % 0x10000) (readWord .spi a s).2
    obtain ⟨x', y', z', h'⟩ := readWord_latched .spi a s
    refine ⟨by simp [readFrom, hl], x, y, z, ?_⟩
    change (readFrom ((a + 4) % 0x10000) n (readWord .spi a s).2).2 = _
    rw [h, h']
    rfl

theorem toNat_append_byte {n : Nat} (x : BitVec n) (y : Byte) : (x ++ y).toNat = 256 * x.toNat + y.toNat := by
  rw [BitVec.toNat_append, ← Nat.shiftLeft_add_eq_or_of_lt y.isLt, Nat.shiftLeft_eq]
  omega

/-- R15: the word that four bytes spell. -/
theorem ofNat_leNat_four (a b c d : Byte) : BitVec.ofNat 32 (leNat [d, c, b, a]) = a ++ b ++ c ++ d := by
  apply BitVec.eq_of_toNat_eq
  refine Eq.trans ?_ (toNat_append_byte (a ++ b ++ c) d).symm
  rw [toNat_append_byte, toNat_append_byte]
  simp only [leNat, BitVec.toNat_ofNat]
  omega

theorem readWord_hif (link : Link) {a : Nat} {s : State} (h : answers link a s = true) (ha : a < 0x100) :
    readWord link a s = readHif a s := by
  simp [readWord, h, ha]

theorem readWord_aon (link : Link) {a : Nat} {s : State} (h : answers link a s = true) (h1 : 0x100 ≤ a) (h2 : a < 0x200) :
    readWord link a s = readAon a s := by
  have h3 : ¬ a < 0x100 := by omega
  simp [readWord, h, h2, h3]

/-- R103: while it is carried forward, the count is the whole part of the estimate. -/
theorem carriedCount_of_carried {s : State}
    (h : s.pwr.phase = .steady .sleep ∨ s.pwr.phase = .steady .deep ∨ ∃ st k, s.pwr.phase = .exit st k) :
    carriedCount s = estimateFloor s % 2 ^ 48 := by
  rcases h with h | h | ⟨st, k, h⟩ <;> simp only [carriedCount, h]

/-- Settles O5: frames word by word, and each read that latches by the registers it reads. -/
theorem registerAccesses : Obligations.RegisterAccesses := by
  unfold Obligations.RegisterAccesses
  refine ⟨fun addr data s h4 hne hm hl => ?_, fun addr b0 b1 b2 b3 rest n s => ?_, fun instr addr data s h => ?_,
    fun addr words s h4 hw => ?_, fun instr addr words ragged s h => ?_, fun addr n s => rfl,
    fun addr size write s hup h1 h2 => ?_, fun addr lo hi s h8 => ?_, fun link wide s hup hnw => ?_, fun s hup => ?_,
    fun wide s hv hdown => ?_, fun wide s hv hph => ?_, fun s hup hph => ?_⟩
  · simp [exec, execSpiWriteFrame, h4, hne, hm, hl]
  · simp only [writeFrom, List.take_succ_cons, List.take_zero, List.drop_succ_cons, List.drop_zero, ofNat_leNat_four]
  · have hc : ¬ (instr = 0x02 ∧ addr.toNat % 4 = 0 ∧ data ≠ [] ∧ data.length % 4 = 0 ∧ data.length ≤ 256) := by
      rintro ⟨hi, ha, hd, hm, hl⟩
      rcases h with h | h | h | h | h
      · exact h hi
      · exact h ha
      · exact hd h
      · exact h hm
      · omega
    simp only [exec, execSpiWriteFrame, if_neg hc]
  · obtain ⟨hl, x, y, z, h⟩ := readFrom_latched (min words 64) addr.toNat s
    refine ⟨_, by simp only [exec, execSpiReadFrame, h4, hw, ne_eq, not_false_eq_true, and_self, if_true]; rfl, rfl, ?_, ?_⟩
    · simp only [List.length_append, hl, List.length_replicate]
      omega
    · simp only [h]
      rfl
  · have hc : ¬ (instr = 0x03 ∧ addr.toNat % 4 = 0 ∧ ragged = false ∧ words ≠ 0) := by
      rintro ⟨hi, ha, hr, hw⟩
      rcases h with h | h | h | h
      · exact h hi
      · exact h ha
      · simp [hr] at h
      · exact hw h
    simp only [exec, execSpiReadFrame, if_neg hc]
  · have hg : ((decide (size = 4) && decide (addr.toNat % 4 = 0)) || (decide (size = 8) && decide (addr.toNat % 8 = 0))) = false := by
      simpa using And.intro h1 h2
    simp [exec, execPcieUnsupportedAccess, hup, hg]
  · simp [exec, execRegisterWrite, h8]
  · have hw : (wide && decide (link = .pcie)) = false := by
      cases link <;> cases wide <;> simp_all
    simp only [exec, execLtsLatchRead, answers_of_windowUp link _ hup, hw, if_true, Bool.false_eq_true, if_false, hostReads, readEach,
      readWord_hif link (answers_of_windowUp link 0x054 hup) (by decide : 0x054 < 0x100)]
    rfl
  · simp only [exec, execLtsLatchRead, answers_of_windowUp _ _ hup, if_true, hostReads, readEach,
      readWord_hif .pcie (answers_of_windowUp .pcie 0x050 hup) (by decide : 0x050 < 0x100)]
    rw [readWord_hif .pcie]
    · simp [readHif, readLts, accessed]
    · exact answers_of_windowUp .pcie 0x054 hup
    · decide
  · simp [exec, execLtsLatchRead, answers, hv, hdown, unread]
  · have ha : answers .spi 0x118 s = true := by simp [answers, hv]
    have hw : (wide && decide (Link.spi = .pcie)) = false := by simp
    simp only [exec, execLtsEstLatchRead, ha, hw, if_true, Bool.false_eq_true, if_false, hostReads, readEach,
      readWord_aon .spi ha (by decide : 0x100 ≤ 0x118) (by decide)]
    simp only [readAon, readEst, carriedCount_of_carried hph]
    rfl
  · have hc := carriedCount_of_carried (hph.imp_right .inr)
    have hhi : (BitVec.ofNat 16 (estimateFloor s % 2 ^ 48 / 2 ^ 32)).toNat = estimateFloor s % 2 ^ 48 / 2 ^ 32 := by
      rw [BitVec.toNat_ofNat]
      omega
    simp only [exec, execLtsEstLatchRead, answers_of_windowUp .pcie 0x118 hup, if_true, hostReads, readEach,
      readWord_aon .pcie (answers_of_windowUp .pcie 0x118 hup) (by decide : 0x100 ≤ 0x118) (by decide)]
    rw [readWord_aon .pcie]
    · simp only [readAon, readEst, hc, nextDraw, hhi]
      rfl
    · exact answers_of_windowUp .pcie 0x11C hup
    · decide
    · decide

/-! ### The doorbell (R57, R59) -/

theorem submit_hif (q : BitVec 2) (slot : BitVec 5) (s : State) :
    (submit q slot s).hif = { s.hif with bufBusy := (submit q slot s).hif.bufBusy } := rfl

theorem submit_same (q : BitVec 2) (slot : BitVec 5) (s : State) :
    submit q slot s = { s with hif := (submit q slot s).hif, q := (submit q slot s).q } := rfl

/-- R57: each descriptor that the tail passes waits and is outstanding. -/
theorem submitMany_lengths (q : BitVec 2) : ∀ (n : Nat) (f : BitVec 6) (s : State),
    (submitMany q f n s).q.waiting.length = s.q.waiting.length + n ∧
      (submitMany q f n s).q.outst.length = s.q.outst.length + n
  | 0, _, _ => ⟨rfl, rfl⟩
  | n + 1, f, s => by
    obtain ⟨hw, ho⟩ := submitMany_lengths q n (f + 1) (submit q (BitVec.ofNat 5 f.toNat) s)
    have hs : (submit q (BitVec.ofNat 5 f.toNat) s).q.waiting.length = s.q.waiting.length + 1 ∧
        (submit q (BitVec.ofNat 5 f.toNat) s).q.outst.length = s.q.outst.length + 1 := by
      simp [submit, setBusy]
    simp only [submitMany, hw, ho, hs]
    omega

theorem submitMany_same (q : BitVec 2) : ∀ (n : Nat) (f : BitVec 6) (s : State),
    (submitMany q f n s).hif.cqTail = s.hif.cqTail ∧
      submitMany q f n s = { s with hif := (submitMany q f n s).hif, q := (submitMany q f n s).q }
  | 0, _, _ => ⟨rfl, rfl⟩
  | n + 1, f, s => by
    obtain ⟨ht, hs⟩ := submitMany_same q n (f + 1) (submit q (BitVec.ofNat 5 f.toNat) s)
    refine ⟨ht, ?_⟩
    rw [submitMany]
    rw [hs]
    rfl

theorem exec_cqDoorbell (link : Link) (q : BitVec 2) (v : Word) {s : State} (h : windowUp s = true) :
    exec (.cqDoorbell link q v) s = .next (accessed link (ringDoorbell q v s)) := by
  simp [exec, execCqDoorbell, answers_of_windowUp link _ h]

/-- Settles O6, by the three cases of the new tail: one further, within the ring, beyond it. -/
theorem doorbellSubmits : Obligations.DoorbellSubmits := by
  unfold Obligations.DoorbellSubmits
  intro link q s hup
  refine ⟨fun h hh hroom => ?_, fun v hroom => ?_, fun v hroom => ?_⟩
  · have hnew : BitVec.ofNat 6 (BitVec.ofNat 32 ((s.hif.cqTail.get q).toNat + 1)).toNat = s.hif.cqTail.get q + 1 := by
      apply BitVec.eq_of_toNat_eq
      simp
    have hn : (s.hif.cqTail.get q + 1 - s.hif.cqTail.get q).toNat = 1 := by
      rw [show s.hif.cqTail.get q + 1 - s.hif.cqTail.get q = 1 by grind]
      rfl
    have hslot : (BitVec.ofNat 5 (s.hif.cqTail.get q).toNat).toNat = (s.hif.cqTail.get q).toNat % 32 := BitVec.toNat_ofNat _ _
    have hle : (s.hif.cqTail.get q - s.hif.cqHead.get q).toNat + 1 ≤ 32 := hroom
    refine ⟨_, exec_cqDoorbell link q _ hup, ?_⟩
    simp only [ringDoorbell, hnew, hn, hle, if_true, submitMany, submit, hslot, ← hh]
    cases link <;> exact ⟨rfl, rfl, rfl, rfl, rfl⟩
  · have hl := submitMany_lengths q (BitVec.ofNat 6 v.toNat - s.hif.cqTail.get q).toNat (s.hif.cqTail.get q)
      { s with hif := { s.hif with cqTail := s.hif.cqTail.set q (BitVec.ofNat 6 v.toNat) } }
    have hs := submitMany_same q (BitVec.ofNat 6 v.toNat - s.hif.cqTail.get q).toNat (s.hif.cqTail.get q)
      { s with hif := { s.hif with cqTail := s.hif.cqTail.set q (BitVec.ofNat 6 v.toNat) } }
    refine ⟨_, exec_cqDoorbell link q _ hup, ?_⟩
    simp only [ringDoorbell, hroom, if_true]
    generalize submitMany q (s.hif.cqTail.get q) _ _ = t at hl hs ⊢
    obtain ⟨hw, ho⟩ := hl
    obtain ⟨ht, hs⟩ := hs
    cases link <;> exact ⟨ht, hw, ho, congrArg (accessed _) hs⟩
  · rw [exec_cqDoorbell link q _ hup, ringDoorbell]
    simp only [if_neg (Nat.not_le.mpr hroom)]

/-! ### The interrupt causes and the control register (R46, R47) -/

/-- R65: where no cause becomes active no message is sent. -/
theorem raiseNew_of_no_fresh {old h : Hif} (hf : irqActive h &&& ~~~ irqActive old = 0) : raiseNew old h = h := by
  simp [raiseNew, hf]

/-- R47: with a cause cleared and its hold ended, no cause becomes active. -/
theorem irqActive_cleared (b : BitVec 6) (h : Hif) :
    irqActive { h with
      irqStatus := h.irqStatus &&& ~~~ b,
      respCoal := if b.getLsbD 0 then ⟨0, none, false⟩ else h.respCoal,
      noteCoal := if b.getLsbD 1 then ⟨0, none, false⟩ else h.noteCoal } &&& ~~~ irqActive h = 0 := by
  have key : ∀ (r n r' n' : Bool) (x y z : BitVec 6), (r' = true → r = true) → (n' = true → n = true) →
      ((x &&& ~~~ z) &&& y &&& ((if r' then 0x3D else 0x3C) ||| (if n' then 0x3E else 0x3C))) &&&
        ~~~ (x &&& y &&& ((if r then 0x3D else 0x3C) ||| (if n then 0x3E else 0x3C))) = 0 := by
    intro r n r' n' x y z hr hn
    have hm : ((if r' then 0x3D else 0x3C) ||| (if n' then 0x3E else 0x3C) : BitVec 6) &&&
        ~~~ ((if r then 0x3D else 0x3C) ||| (if n then 0x3E else 0x3C)) = 0 := by
      revert hr hn
      revert r n r' n'
      decide
    generalize ((if r' then 0x3D else 0x3C) ||| (if n' then 0x3E else 0x3C) : BitVec 6) = m' at hm ⊢
    generalize ((if r then 0x3D else 0x3C) ||| (if n then 0x3E else 0x3C) : BitVec 6) = m at hm ⊢
    apply BitVec.eq_of_getLsbD_eq
    intro i hi
    have hmi := congrArg (·.getLsbD i) hm
    simp only [BitVec.getLsbD_and, BitVec.getLsbD_not] at hmi ⊢
    grind
  apply key
  · cases b.getLsbD 0 <;> simp
  · cases b.getLsbD 1 <;> simp

@[simp] theorem raiseNew_ready (old h : Hif) : (raiseNew old h).ready = h.ready := by
  simp only [raiseNew, sendMsix, apply_ite Hif.ready, ite_self]

@[simp] theorem setPhase_pwr (p : Phase) (s : State) : (setPhase p s).pwr = { s.pwr with phase := p } := by
  simp only [setPhase, setCause, withIrq, apply_ite State.pwr, ite_self]

@[simp] theorem setPhase_ready (p : Phase) (s : State) : (setPhase p s).hif.ready = s.hif.ready := by
  simp only [setPhase, setCause, withIrq, apply_ite State.hif, apply_ite Hif.ready, raiseNew_ready, ite_self]

/-- Settles O8: no message is sent on clearing, and the restart is that of the two fields of R46. -/
theorem interruptAndControlWrites : Obligations.InterruptAndControlWrites := by
  unfold Obligations.InterruptAndControlWrites
  intro link v s hup
  refine ⟨?_, fun h => ?_, fun h1 h2 h3 => ?_⟩
  · have hb : ∀ i, i < 6 → (BitVec.ofNat 6 v.toNat).getLsbD i = v.getLsbD i := by
      intro i hi
      simp [hi]
    have hc := raiseNew_of_no_fresh (irqActive_cleared (BitVec.ofNat 6 v.toNat) s.hif)
    rw [hb 0 (by decide), hb 1 (by decide)] at hc
    refine ⟨_, by simp only [exec, execIrqStatusClear, answers_of_windowUp link _ hup, if_true]; rfl, ?_⟩
    simp only [clearCauses, withIrq, hb 0 (by decide), hb 1 (by decide), hc]
    cases link <;> exact ⟨rfl, rfl, rfl, rfl⟩
  · have hc : (v.getLsbD 31 && decide (v.extractLsb' 8 8 = 0xA5) && decide (s.pwr.phase ≠ .orderlyOff)) = false := by
      rcases h with h | h | h <;> simp only [h, ne_eq, not_true_eq_false, decide_false, Bool.false_and, Bool.and_false]
    simp only [exec, execSoftReset, answers_of_windowUp link _ hup, if_true, writeCtrl, hc, Bool.false_eq_true, if_false]
  · have hx : exec (.softReset link v) s = .next (accessed link (restartFromStep3 { s with
        hif := { s.hif with msixEn := v.getLsbD 0, alertEn := v.getLsbD 1 } })) := by
      simp only [exec, execSoftReset, answers_of_windowUp link _ hup, if_true, writeCtrl, h1, h2, h3, ne_eq,
        not_false_eq_true, decide_true, Bool.and_self]
    refine ⟨hx, _, hx, ?_, ?_⟩
    · cases link <;> exact congrArg Pwr.phase (setPhase_pwr _ _)
    · cases link <;> exact setPhase_ready _ _

end Sys2Proof.Machine
end

section
/-! Admission, refusals and the state's life of a mailbox command (R57 to R64, R80, R355, R399, R427): settles O10 to O14. -/
namespace Sys2Proof.Machine

open Sys2Proof

/-! ### Admission -/

/-- R58: every mailbox command is admitted, turned away or ignored before its body. -/
theorem exec_mailbox {i : Instr} {op : Nat} {h : Hdr} (hi : mailbox i = some (op, h)) (s : State) :
    ∃ body : State → State, exec i s = command op h s body := by
  cases i
  all_goals cases hi
  all_goals unfold exec
  all_goals dsimp only
  all_goals
    delta execSysIdentify execSysCancel execCvConfig execCvRun execCvCtxRead execCvCtxWrite execCvScan execFlashStatus
      execFwStage execFwCommit execFwActivate execFwConfirm execLogRead execPwrStateSet execPwrStatus execPwrVote
      execPwrConfig execLineModeSet execLineModeGet execLineFlexCheck execFeConfig execFeStatus execFeSlices
      execFeCoefSet execEqConfig execEqStatus execEqEstimates execEqNlc execEqReacquire execEqHold execTxLaser
      execTxEnable execTxShaping execTxStatus execTxSafety execTxSlices execFecConfig execFecStatus
      execFecCounters execFecInject execTribDefine execTribRemove execTribStatus execTfStatus execKeyKekInfo
      execKeyLoad execKeyErase execKeyAssign execKeyActivate execKeyStatus execCiphTribStatus execCiphSelftest
      execCiphTribMode execMmRun execMmCtxSave execMmCtxRestore execMmRead execHlConfig execHlStatus
      execHlLaneStatus execHlPort execHlPower execHlLoopback execHlRetrain execRefInputConfig execRefSelect
      execRefStatus execRefInputStatus execRefOutputConfig execRefPpsConfig execRefTodSet execRefTodGet
      execHsHistory execHsHistoryRead execHsSenseConfig execHsSenseRead execHsTriggerConfig execHsCaptureCmd
      execHsCaptureRead execHsCruiser execHsStoreStatus execHsRegionInit execCalStatus execCalConfig execCalRun
      execMonConfig execMonChannel execMonTable execMonRead execAgeReport execAgeConfig execTallyRead
      execTallyClear execBlazeConfig execBlazeRead execDbgFreezeCmd execDbgRelease execDbgStatus
  all_goals exact ⟨_, rfl⟩

theorem command_accept {op : Nat} {s : State} (ha : admitted op s = .accept) (h : Hdr) (body : State → State) :
    command op h s body = .next (body s) := by
  simp only [command, ha]

theorem command_refuse {op : Nat} {s : State} {st : St} (ha : admitted op s = .refuse st) (h : Hdr) (body : State → State) :
    command op h s body = .next (refuse op h st s) := by
  simp only [command, ha]

theorem command_ignore {op : Nat} {s : State} (ha : admitted op s = .ignore) (h : Hdr) (body : State → State) :
    command op h s body = .next s := by
  simp only [command, ha]

/-- Settles O10: the verdict is taken before the body of the command. -/
theorem commandsTurnedAway : Obligations.CommandsTurnedAway := by
  unfold Obligations.CommandsTurnedAway
  intro i op h s hi
  obtain ⟨body, hb⟩ := exec_mailbox hi s
  rw [hb]
  exact ⟨fun st hst => command_refuse hst h body, fun hig => command_ignore hig h body⟩

theorem cardWhen_always_iff (op : Nat) : cardWhen op = .always ↔ op ∈ [0x0101, 0x0D01, 0x0D02, 0x0D03, 0x0D10, 0x0D20] := by
  unfold cardWhen
  split
  · simp_all
  · repeat' split
    all_goals simp_all

theorem cardWhen_ready_iff (op : Nat) : cardWhen op = .ready ↔ op ∈ [0x0102, 0x0D04, 0x0F03] := by
  unfold cardWhen
  split
  case isTrue h =>
    simp only [List.mem_cons, List.not_mem_nil, or_false, reduceCtorEq, false_iff] at h ⊢
    omega
  case isFalse =>
    split
    · simp_all
    · repeat' split
      all_goals simp_all

/-- R427: the commands admitted in BOOT and in a transition. -/
theorem transitional_iff (op : Nat) : transitional (cardWhen op) op = true ↔
    op ∈ [0x0101, 0x0102, 0x0D01, 0x0D02, 0x0D03, 0x0D04, 0x0D10, 0x0D20, 0x0F03, 0x0201, 0x0202] := by
  simp only [transitional, Bool.or_eq_true, decide_eq_true_eq, cardWhen_always_iff, cardWhen_ready_iff, List.mem_cons,
    List.not_mem_nil, or_false]
  omega

/-- R2, R399: past the variant and freeze, admission is by the state alone. -/
theorem admitted_by_phase {op : Nat} {s : State} (hr : s.hif.ready = true) (ha : s.q.acting = none) (hv : s.hif.recovery = false)
    (hc : op / 256 ≠ 8 ∨ s.ident.variant ≠ .cn)
    (hf : s.dbg.frozen = false ∨ op / 256 = 0x01 ∨ op / 256 = 0x0D ∨ op / 256 = 0x0F ∨ cardReads op = true) :
    admitted op s = match s.pwr.phase with
      | .steady .sleep => if whenHolds (cardWhen op) .sleep && sleepFamily op then .accept else .refuse .badState
      | .steady st => if whenHolds (cardWhen op) st then .accept else .refuse .badState
      | .entry .deep _ => .ignore
      | .entry .off _ => .ignore
      | .orderlyOff => .ignore
      | .inert => .ignore
      | _ => if transitional (cardWhen op) op then .accept else .refuse .badState := by
  have h1 : cipherAbsent op s = false := by
    rcases hc with h | h <;> simp [cipherAbsent, h]
  have h2 : ¬ (s.dbg.frozen = true ∧ freezeFamily op = false ∧ cardReads op = false) := by
    rcases hf with h | h | h | h | h <;> simp [freezeFamily, h]
  simp only [admitted, hr, ha, hv, h1, h2, Option.isSome_none, Bool.false_eq_true, Bool.true_eq_false, if_false] <;> rfl

/-- Settles O11: admission unfolded state by state. -/
theorem admissionByState : Obligations.AdmissionByState := by
  unfold Obligations.AdmissionByState
  intro op s hr ha
  refine ⟨fun hv => ?_, fun hv hop hn => ?_, fun hv hc => ⟨fun hf h1 h2 h3 h4 => ?_, fun hf => ?_⟩⟩
  · simp only [admitted, hr, ha, hv, Option.isSome_none, Bool.false_eq_true, Bool.true_eq_false, if_false, if_true,
      cardWhen_always_iff]
  · simp [admitted, hr, ha, hv, cipherAbsent, hop, hn]
  · have hca : cipherAbsent op s = false := by
      rcases hc with h | h <;> simp [cipherAbsent, h]
    simp [admitted, hr, ha, hv, hca, hf, h4, freezeFamily, h1, h2, h3]
  · rw [admitted_by_phase hr ha hv hc hf]
    refine ⟨fun k hp => ?_, fun o k hp => ?_, fun hp => ?_, fun hp => ?_, fun hp => ?_, fun hp => ?_, fun st k hp h1 h2 => ?_,
      fun hp => ?_, fun hp => ?_⟩
    · simp only [hp, transitional_iff]
    · simp only [hp, transitional_iff]
    · simp only [hp, whenHolds, if_true]
    · simp only [hp, whenHolds]
      cases cardWhen op <;> simp
    · simp only [hp, whenHolds]
      cases cardWhen op <;> simp
    · simp only [hp, whenHolds, sleepFamily]
      cases cardWhen op <;> simp [or_assoc]
    · simp only [hp, transitional_iff]
      cases st <;> simp_all
    · rcases hp with ⟨k, hp | hp⟩ | hp | hp <;> simp only [hp]
    · rcases hp with hp | hp <;> simp [hp, whenHolds]

/-! ### Responses (R57, R62, R64) -/

theorem slice_length (bs : List Byte) (i n : Nat) : (slice bs i n).length = n := by
  simp [slice]

/-- R62: a response is 64 bytes. -/
theorem rspBytes_length (op : Nat) (h : Hdr) (st : St) (out : Option (List Byte)) (t : Lts) (res : List Byte) :
    (rspBytes op h st out t res).length = 64 := by
  simp [rspBytes, leBytes_length, padTo, slice_length]

@[simp] theorem causeResponse_irqStatus (s : State) : (causeResponse s).hif.irqStatus = s.hif.irqStatus ||| causeResp :=
  raiseNew_irqStatus _ _

@[simp] theorem raiseNew_rqTail (old h : Hif) : (raiseNew old h).rqTail = h.rqTail := by
  simp only [raiseNew, sendMsix, apply_ite Hif.rqTail, ite_self]

@[simp] theorem causeResponse_rqTail (s : State) : (causeResponse s).hif.rqTail = s.hif.rqTail :=
  raiseNew_rqTail _ _

/-- The result data that a response stores: none without a buffer (R60). -/
def storedOut (h : Hdr) (out : Option (List Byte)) : Option (List Byte) := if h.buf then out else none

/-- R64: a quiet command that succeeds stores its data and closes its tag. -/
theorem respond_quiet {op : Nat} {h : Hdr} {st : St} {res : List Byte} {out : Option (List Byte)} {s : State}
    (hq : h.quiet = true) (hst : lateStatus h st s = .ok) :
    respond op h st res out s = closeTag h.tag true (putOut h (storedOut h out) s) := by
  simp only [respond, hq, hst, decide_true, Bool.and_self, if_true, storedOut]

theorem respond_loud {op : Nat} {h : Hdr} {st : St} {res : List Byte} {out : Option (List Byte)} {s : State}
    (hq : h.quiet = false ∨ lateStatus h st s ≠ .ok) :
    respond op h st res out s = rspWrite h.tag (rspBytes op h (lateStatus h st s) (storedOut h out) (nowLts s) res)
      (putOut h (storedOut h out) s) := by
  have hc : (h.quiet && decide (lateStatus h st s = .ok)) = false := by
    rcases hq with hq | hq <;> simp [hq]
  simp only [respond, hc, Bool.false_eq_true, if_false, storedOut]

/-- R57: the response enters a ring with room that no response waits for. -/
theorem rspWrite_of_free {tag : Half} {bs : List Byte} {s : State} (hf : rqFree s.hif = true) (hw : s.q.rspWait = []) :
    rspWrite tag bs s = rqPut tag bs (closeTag tag false s) := by
  simp [rspWrite, hf, hw]

/-- R57: else it waits. -/
theorem rspWrite_of_not_free {tag : Half} {bs : List Byte} {s : State} (h : rqFree s.hif = false ∨ s.q.rspWait ≠ []) :
    rspWrite tag bs s = { s with q := { s.q with rspWait := s.q.rspWait ++ [(tag, bs)] } } := by
  have hc : (rqFree s.hif && s.q.rspWait.isEmpty) = false := by
    rcases h with h | h <;> simp [h]
  simp only [rspWrite, hc, Bool.false_eq_true, if_false]

/-- What a response leaves of the window: the window after the result data, or that with the response in its entry. -/
theorem respond_win (op : Nat) (h : Hdr) (st : St) (res : List Byte) (out : Option (List Byte)) (s : State) :
    (respond op h st res out s).win = (putOut h (storedOut h out) s).win ∨
      ∃ bs : List Byte, bs.length = 64 ∧ (respond op h st res out s).win =
        memWriteN 0 (putOut h (storedOut h out) s).win (responseAt s) bs := by
  by_cases hq : h.quiet = true ∧ lateStatus h st s = .ok
  · rw [respond_quiet hq.1 hq.2]
    exact .inl rfl
  · rw [respond_loud (by simpa [imp_iff_not_or] using hq)]
    by_cases hf : rqFree s.hif = true ∧ s.q.rspWait = []
    · rw [rspWrite_of_free (by simpa using hf.1) (by simpa using hf.2)]
      refine .inr ⟨_, rspBytes_length op h (lateStatus h st s) (storedOut h out) (nowLts s) res, ?_⟩
      simp [rqPut, closeTag, setBusy, responseAt]
    · rw [rspWrite_of_not_free (by simpa [imp_iff_not_or] using hf)]
      exact .inl rfl

/-- A response changes the window, the rings and the queues only. -/
theorem respond_same (op : Nat) (h : Hdr) (st : St) (res : List Byte) (out : Option (List Byte)) (s : State) :
    respond op h st res out s = { s with
      win := (respond op h st res out s).win, hif := (respond op h st res out s).hif, q := (respond op h st res out s).q } := by
  have hf := respond_frame op h st res out s
  generalize respond op h st res out s = t at hf ⊢
  cases t
  simp only at hf
  simp only [hf]

/-- A response leaves the queues of descriptors, held commands and notifications. -/
theorem respond_q (op : Nat) (h : Hdr) (st : St) (res : List Byte) (out : Option (List Byte)) (s : State) :
    (respond op h st res out s).q = { s.q with
      outst := (respond op h st res out s).q.outst, rqTags := (respond op h st res out s).q.rqTags,
      rspWait := (respond op h st res out s).q.rspWait } := by
  by_cases hq : h.quiet = true ∧ lateStatus h st s = .ok
  · rw [respond_quiet hq.1 hq.2]
    cases storedOut h out <;> rfl
  · rw [respond_loud (by simpa [imp_iff_not_or] using hq)]
    by_cases hf : rqFree s.hif = true ∧ s.q.rspWait = []
    · rw [rspWrite_of_free (by simpa using hf.1) (by simpa using hf.2)]
      cases storedOut h out <;> rfl
    · rw [rspWrite_of_not_free (by simpa [imp_iff_not_or] using hf)]
      cases storedOut h out <;> rfl

theorem putOut_memWf {s : State} (hwf : memWf 0 s.win = true) (h : Hdr) (out : Option (List Byte)) :
    memWf 0 (putOut h out s).win = true := by
  cases out with
  | none => exact hwf
  | some bs => exact memWriteN_wf _ _ hwf

theorem responseAt_bounds (s : State) : 0x3000 ≤ responseAt s ∧ responseAt s + 64 ≤ 0x5000 := by
  simp only [responseAt]
  omega

/-- Result data stay in the staging buffer. -/
theorem putOut_other {s : State} (hwf : memWf 0 s.win = true) (h : Hdr) {out : Option (List Byte)} {b : Nat}
    (hb : h.buf = false ∨ out = none ∨ b < bufBase h.bufIdx ∨ bufBase h.bufIdx + 0x1000 ≤ b) :
    windowByte (putOut h (storedOut h out) s) b = windowByte s b := by
  rcases hb with hb | hb | hb
  · simp [storedOut, hb, putOut]
  · simp [storedOut, hb, putOut]
  · unfold putOut
    split
    · rename_i bs _
      have hl := List.length_take_le 4096 bs
      exact memRead_memWriteN_other _ _ _ hwf (by omega)
    · rfl

/-- Outside its entry a response leaves the window with the result data. -/
theorem respond_windowByte {s : State} (hwf : memWf 0 s.win = true) (op : Nat) (h : Hdr) (st : St) (res : List Byte)
    (out : Option (List Byte)) {b : Nat} (hb : b < responseAt s ∨ responseAt s + 64 ≤ b) :
    windowByte (respond op h st res out s) b = windowByte (putOut h (storedOut h out) s) b := by
  unfold windowByte
  rcases respond_win op h st res out s with hw | ⟨bs, hl, hw⟩
  · rw [hw]
  · rw [hw, memRead_memWriteN_other _ _ _ (putOut_memWf hwf h _) (by rwa [hl])]

/-- Settles O12: the result data and the entry by the reads of `memWriteN`, the rest by the three ways of a response. -/
theorem responseWritten : Obligations.ResponseWritten := by
  unfold Obligations.ResponseWritten
  intro op h st res out s hwf
  have hq := respond_q op h st res out s
  refine ⟨fun b h1 h2 => ?_, respond_same op h st res out s, by rw [hq], by rw [hq], by rw [hq], by rw [hq],
    fun bs hb ho k hk hk2 => ?_, fun hl hw => ?_, fun hl hf hw => ?_, fun hq hst => ?_⟩
  · rw [respond_windowByte hwf op h st res out h1, putOut_other hwf h h2]
  · have hr := responseAt_bounds s
    rw [respond_windowByte hwf op h st res out (by simp only [bufBase]; omega)]
    simp only [storedOut, hb, ho, if_true, windowByte, putOut]
    rw [memRead_memWriteN_same _ _ _ hwf (by simp; omega)]
    simp [hk2]
  · rw [respond_loud hl, rspWrite_of_not_free (by simpa using hw)]
    simp [storedOut]
  · rw [respond_loud hl, rspWrite_of_free (by simpa using hf) (by simpa using hw)]
    refine ⟨by simp [rqPut, closeTag, setBusy, causeResponse, withIrq], fun k hk => ?_, ?_, ?_⟩
    · have hm := memRead_memWriteN_same (rspBytes op h (lateStatus h st s) (storedOut h out) (nowLts s) res) (responseAt s) k
        (putOut_memWf hwf h (storedOut h out)) (by rwa [rspBytes_length])
      refine Eq.trans ?_ hm
      simp [windowByte, rqPut, closeTag, setBusy, responseAt]
    · simp [rqPut, closeTag, setBusy]
    · simp [rqPut, closeTag, setBusy, causeResp]
  · rw [respond_quiet hq hst]
    simp [closeTag, setBusy]

/-! ### Descriptors taken (R57 to R61, R98 to R101) -/

/-- R61: an admitted command with its buffer that is not scheduled. -/
theorem takeCommand_unscheduled {i : Instr} {h : Hdr} {op : Nat} {s : State} (ha : admitted op s = .accept) (hs : h.sched = false) :
    takeCommand i h op true s = actUnscheduled i s := by
  simp [takeCommand, ha, hs]

theorem nowLts_of_ticking {s : State} (h : ticking s = true) : nowLts s = s.time.lts := by
  simp only [ticking, Bool.and_eq_true] at h
  simp [nowLts, h.1]

/-- R100, R101: an admitted command with its buffer that is scheduled within the limits. -/
theorem takeCommand_scheduled {i : Instr} {h : Hdr} {op : Nat} {s : State} (ha : admitted op s = .accept) (hs : h.sched = true)
    (ht : ticking s = true) (hm : isModeSet i = false) (he : h.execAt.toNat ≤ s.time.lts.toNat + 2 ^ 60)
    (hn : schedCount s < 256) : takeCommand i h op true s = schedule i h s := by
  have h1 : ¬ s.time.lts.toNat + 2 ^ 60 < h.execAt.toNat := by omega
  have h2 : ¬ (256 ≤ schedCount s ∧ wouldHold i h s = true) := by omega
  unfold takeCommand
  simp only [ha, hs, Bool.not_true, Bool.false_eq_true, if_false, if_true, nowLts_of_ticking ht, h1, h2]
  cases i
  case lineModeSet => simp [isModeSet] at hm
  all_goals rfl

/-- The change of mode is a command of the superframe boundary. -/
theorem isModeSet_of_boundOf_none {i : Instr} (h : boundOf i = .none) : isModeSet i = false := by
  cases i
  case lineModeSet => simp [boundOf, mailbox, superframeOps] at h
  all_goals rfl

/-- The two commands with a boundary of their own act at superframe boundaries. -/
theorem ownBoundary_of_boundOf_span {i : Instr} (h : boundOf i = .span) : ownBoundary i = false := by
  unfold ownBoundary
  split
  · simp [boundOf, mailbox, superframeOps] at h
  · simp [boundOf, mailbox, superframeOps] at h
  · rfl

/-- Settles O13, branch by branch of the descriptor's decoding and of `takeCommand`. -/
theorem descriptorTaken : Obligations.DescriptorTaken := by
  unfold Obligations.DescriptorTaken
  intro s w bs h s1 s2 hr hb hq hp hw hbs hh hs1 hs2
  have hc : (!s.hif.ready || s.flash.bootDue || decide (rqRoom s = 0) || passedFirst s) = false := by simp [hr, hb, hq, hp]
  have hx : exec .descriptorTake s = .next (
      if s.q.outst.any fun o => decide (o.tag = h.tag) && decide (o.ord < w.ord) then
        cqError w.queue w.slot 1 h.tag
          (setBusy { s1 with q := { s1.q with outst := s1.q.outst.filter fun o => !decide (o.ord = w.ord) } })
      else
        match decodeDescriptor h bs with
        | .unknown => refuse (descOpcode bs) h .notAvailable s2
        | .malformed => refuse (descOpcode bs) h .badArg s2
        | .command i => takeCommand i h (descOpcode bs)
            (s2.q.outst.all fun o => !decide (o.ord = w.ord) || o.buf.isNone || o.holds) s2) := by
    subst hs2 hs1 hh hbs
    simp only [exec, execDescriptorTake, hc, Bool.false_eq_true, if_false, hw, decide_eq_true_eq] <;> rfl
  rw [hx]
  have hout : s1.q.outst = s.q.outst := by rw [hs1]
  refine ⟨fun ht => ?_, fun ht => ⟨fun hd => ?_, fun hd => ?_, fun i hd hheld ha => ?_, fun i hd hheld ha => ?_⟩⟩
  · have ha : (s.q.outst.any fun o => decide (o.tag = h.tag) && decide (o.ord < w.ord)) = true := by simpa using ht
    simp only [ha, if_true, hout, ne_eq, decide_not]
  all_goals
    have hn : (s.q.outst.any fun o => decide (o.tag = h.tag) && decide (o.ord < w.ord)) = false := by simpa using ht
    simp only [hn, Bool.false_eq_true, if_false, hd]
  · have hb : (s2.q.outst.all fun o => !decide (o.ord = w.ord) || o.buf.isNone || o.holds) = false := by
      obtain ⟨o, ho, h1, h2, h3⟩ := hheld
      exact List.all_eq_false.mpr ⟨o, ho, by cases hb : o.buf <;> simp_all⟩
    simp [takeCommand, ha, hb]
  · have hb : (s2.q.outst.all fun o => !decide (o.ord = w.ord) || o.buf.isNone || o.holds) = true := by
      refine List.all_eq_true.mpr fun o ho => ?_
      by_cases hw : o.ord = w.ord
      · rcases hheld o ho hw with h | h <;> simp [h]
      · simp [hw]
    rw [hb]
    have htime : s2.time = s.time := by rw [hs2, hs1]
    have hdbg : s2.dbg = s.dbg := by rw [hs2, hs1]
    have htick : ticking s2 = ticking s := by simp only [ticking, htime, hdbg]
    have hcount : schedCount s2 = schedCount s := by rw [hs2, hs1]; rfl
    refine ⟨fun hs hb => ?_, fun hs ht ho hb => ?_, fun hs ht hb hl he hk => ?_, fun hs ht hb => ?_, fun hs ht hb hm hl he hk => ?_,
      fun hs ht he => ?_, fun hs ht hl he hk => ?_⟩
    · rw [takeCommand_unscheduled ha hs]
      rcases hb with hb | hb | hb
      · simp [actUnscheduled, htick, hb]
      · simp [actUnscheduled, hb]
      · simp [actUnscheduled, hb]
    · rw [takeCommand_unscheduled ha hs]
      simp [actUnscheduled, htick, ht, ho, hb, htime]
    · rw [takeCommand_scheduled ha hs (htick.trans ht) (isModeSet_of_boundOf_none hb) (htime ▸ he) (hcount ▸ hk)]
      have hle : h.execAt.le s.time.lts = false := by simpa [Lts.le, Lts.lt] using hl
      simp [schedule, htick, ht, hb, htime, hle]
    · rw [takeCommand_unscheduled ha hs]
      have ho := ownBoundary_of_boundOf_span hb
      have hsp : spansExist s2 = spansExist s := by rw [hs2, hs1]; rfl
      simp [actUnscheduled, htick, ht, ho, hb, htime, hsp]
    · rw [takeCommand_scheduled ha hs (htick.trans ht) hm (htime ▸ he) (hcount ▸ hk)]
      have hge : ¬ (Lts.ceilSf h.execAt).toNat < s.time.lts.toNat + 16 * 2 ^ 24 := by omega
      simp [schedule, htick, ht, hb, htime]
      omega
    · simp only [takeCommand, ha, Bool.not_true, Bool.false_eq_true, if_false, hs, if_true, nowLts_of_ticking (htick.trans ht), htime, he]
    · have hw : wouldHold i h s2 = true := by
        have hle : h.execAt.le s.time.lts = false := by simpa [Lts.le, Lts.lt] using hl
        simp [wouldHold, htime, hle]
      have h1 : ¬ s.time.lts.toNat + 2 ^ 60 < h.execAt.toNat := by omega
      simp only [takeCommand, ha, Bool.not_true, Bool.false_eq_true, if_false, hs, if_true, nowLts_of_ticking (htick.trans ht), htime,
        h1, hcount, hk, hw, and_self]

/-! ### Held commands (R61, R102, R104) -/

theorem ltsToNat_inj {a b : Lts} : a.toNat = b.toNat ↔ a = b := by
  refine ⟨fun h => ?_, fun h => h ▸ rfl⟩
  obtain ⟨sa, ya⟩ := a
  obtain ⟨sb, yb⟩ := b
  simp only [Lts.toNat] at h
  have h1 : sa.toNat = sb.toNat := by omega
  have h2 : ya.toNat = yb.toNat := by omega
  rw [BitVec.eq_of_toNat_eq h1, BitVec.eq_of_toNat_eq h2]

/-- R61: the order of held commands is lexicographic. -/
theorem pendLe_iff (p x : Pend) : pendLe p x = true ↔
    (p.due.toNat < x.due.toNat ∨ p.due.toNat = x.due.toNat ∧ (actOrder p.cmd < actOrder x.cmd ∨
      actOrder p.cmd = actOrder x.cmd ∧ (queueOf p.cmd < queueOf x.cmd ∨
        queueOf p.cmd = queueOf x.cmd ∧ p.ord ≤ x.ord))) := by
  rw [ltsToNat_inj, pendLe]
  split
  · simp_all [Lts.lt]
  · split
    · simp_all
    · split <;> simp_all

theorem pendLe_total (a b : Pend) : pendLe a b = true ∨ pendLe b a = true := by
  rw [pendLe_iff, pendLe_iff]
  omega

theorem pendLe_trans {a b c : Pend} (h1 : pendLe a b = true) (h2 : pendLe b c = true) : pendLe a c = true := by
  rw [pendLe_iff] at h1 h2 ⊢
  omega

/-- The command that `firstBy` gives is one of the list that no other precedes. -/
theorem firstBy_pendLe : ∀ (l : List Pend),
    (firstBy pendLe l = none ∧ l = []) ∨ ∃ p ∈ l, firstBy pendLe l = some p ∧ ∀ x ∈ l, pendLe p x = true
  | [] => .inl ⟨rfl, rfl⟩
  | p :: t => by
    have hp : pendLe p p = true := by
      rcases pendLe_total p p with h | h <;> exact h
    right
    rcases firstBy_pendLe t with ⟨h, ht⟩ | ⟨x, hx, h, hmin⟩
    · subst ht
      exact ⟨p, by simp, by simp [firstBy], by simp [hp]⟩
    · by_cases hpx : pendLe p x = true
      · refine ⟨p, by simp, by simp [firstBy, h, hpx], fun y hy => ?_⟩
        rcases List.mem_cons.mp hy with rfl | hy
        · exact hp
        · exact pendLe_trans hpx (hmin y hy)
      · refine ⟨x, by simp [hx], by simp [firstBy, h, hpx], fun y hy => ?_⟩
        rcases List.mem_cons.mp hy with rfl | hy
        · exact (pendLe_total x y).resolve_right hpx
        · exact hmin y hy

/-- Settles O14: the first command in the order of R61 among those that may act. -/
theorem scheduledCommandsInOrder : Obligations.ScheduledCommandsInOrder := by
  unfold Obligations.ScheduledCommandsInOrder
  refine ⟨fun s ht hr => ⟨?_, fun hno => ?_⟩, fun s p => ?_⟩
  · rintro ⟨p0, hp0, hm0⟩
    rcases firstBy_pendLe (s.q.pend.filter (mayAct s)) with ⟨-, hnil⟩ | ⟨p, hp, hfirst, hmin⟩
    · exact absurd (List.mem_filter.mpr ⟨hp0, hm0⟩) (by simp [hnil])
    · obtain ⟨hp, hm⟩ := List.mem_filter.mp hp
      refine ⟨p, hp, hm, ?_, fun x hx hmx => (pendLe_iff p x).mp (hmin x (List.mem_filter.mpr ⟨hx, hmx⟩))⟩
      simp only [exec, execSchedCommandDue, ht, hr, Bool.and_self, if_true, nextPend, hfirst]
  · have hnil : s.q.pend.filter (mayAct s) = [] := List.filter_eq_nil_iff.mpr fun p hp => by simp [hno p hp]
    simp only [exec, execSchedCommandDue, ht, hr, Bool.and_self, if_true, nextPend, hnil, firstBy]
  · have hb : ∀ x, goesBefore x p = true ↔ p.late = true ∧ ∃ q a b, schedAt x = some (q, a) ∧ schedAt p = some (q, b) ∧ a.lt b = true := by
      intro x
      unfold goesBefore
      cases schedAt x <;> cases schedAt p <;> grind
    simp only [mayAct, Bool.and_eq_true, Bool.not_eq_true', List.any_eq_false, Bool.or_eq_true, hb, passedBefore]
    grind

end Sys2Proof.Machine
end

section
/-! The warden's timers and the check-value unit (R47, R63, R66 to R70, R94, R430, R431): settles O16 and O17. -/
namespace Sys2Proof.Machine

open Sys2Proof

/-! ### The checks of a card -/

theorem guarded_pass {fails : List (Bool × St)} (hf : firstFail fails = none) (op : Nat) (h : Hdr) (body : State → State) (s : State) :
    guarded op h fails body s = body s := by
  simp only [guarded, hf]

theorem guarded_fail {fails : List (Bool × St)} {st : St} (hf : firstFail fails = some st) (op : Nat) (h : Hdr)
    (body : State → State) (s : State) : guarded op h fails body s = refuse op h st s := by
  simp only [guarded, hf]

@[simp] theorem firstFail_nil : firstFail [] = none := rfl

@[simp] theorem firstFail_cons (b : Bool) (st : St) (t : List (Bool × St)) :
    firstFail ((b, st) :: t) = if b then some st else firstFail t := rfl

theorem query_accept {op : Nat} {s : State} (ha : admitted op s = .accept) (h : Hdr) (fs : List (Nat × List Byte)) :
    query op h s fs = .next (reply op h fs s) := command_accept ha h _

theorem reservedClear_iff (flags used : Byte) : reservedClear flags used = true ↔ flags &&& ~~~ used = 0 := decide_eq_true_iff

/-! ### Release, backlog and holds -/

@[simp] theorem raiseNew_respCoal (old h : Hif) : (raiseNew old h).respCoal = h.respCoal := by
  simp only [raiseNew, sendMsix, apply_ite Hif.respCoal, ite_self]

@[simp] theorem raiseNew_noteCoal (old h : Hif) : (raiseNew old h).noteCoal = h.noteCoal := by
  simp only [raiseNew, sendMsix, apply_ite Hif.noteCoal, ite_self]

theorem sendMsix_same (v : BitVec 2) (h : Hif) :
    sendMsix v h = { h with msixSent := (sendMsix v h).msixSent, msixPending := (sendMsix v h).msixPending } := by
  unfold sendMsix
  split
  · split <;> rfl
  · rfl

/-- R65: raising interrupts sends messages, or sets pending bits, and changes no other register. -/
theorem raiseNew_same (old h : Hif) :
    raiseNew old h = { h with msixSent := (raiseNew old h).msixSent, msixPending := (raiseNew old h).msixPending } := by
  have one : ∀ (c : Prop) [Decidable c] (v : BitVec 2) (g : Hif), (∃ x y, g = { h with msixSent := x, msixPending := y }) →
      ∃ x y, (if c then g else sendMsix v g) = { h with msixSent := x, msixPending := y } := by
    rintro c _ v g ⟨x, y, rfl⟩
    split
    · exact ⟨x, y, rfl⟩
    · exact ⟨_, _, sendMsix_same v _⟩
  obtain ⟨x, y, hxy⟩ : ∃ x y, raiseNew old h = { h with msixSent := x, msixPending := y } :=
    one _ 3 _ (one _ 2 _ (one _ 1 _ (one _ 0 h ⟨h.msixSent, h.msixPending, rfl⟩)))
  rw [hxy]

theorem coalExpire_none {c : Coal} (hc : c.since = none) (hold : Half) (sf : Sf) : coalExpire hold sf c = c := by
  simp only [coalExpire, hc]

theorem coalExpire_due {c : Coal} {a : Sf} {hold : Half} {sf : Sf} (hc : c.since = some a) (hh : hold.toNat ≤ (sf - a).toNat) :
    coalExpire hold sf c = { c with since := none, raised := true } := by
  simp only [coalExpire, hc, hh, if_true, coalEnd, Option.isSome_some]

theorem coalExpire_early {c : Coal} {a : Sf} {hold : Half} {sf : Sf} (hc : c.since = some a) (hh : (sf - a).toNat < hold.toNat) :
    coalExpire hold sf c = c := by
  have h : ¬ hold.toNat ≤ (sf - a).toNat := by omega
  simp only [coalExpire, hc, h, if_false]

theorem nqPut_nqTail (bs : List Byte) (s : State) : (nqPut bs s).hif.nqTail = s.hif.nqTail + 1 := by
  simp only [nqPut, causeNotification, withIrq]
  rw [raiseNew_same]

theorem nqPut_q (bs : List Byte) (s : State) : (nqPut bs s).q = s.q := rfl

/-- R63: entries enter the ring from the front of the backlog, one for each place, until it is empty or the ring is full. -/
theorem drainBacklog_drop : ∀ (n : Nat) (s : State), s.q.backlog.length ≤ n →
    ∃ k, k ≤ s.q.backlog.length ∧ (drainBacklog n s).q.backlog = s.q.backlog.drop k ∧
      (drainBacklog n s).hif.nqTail = s.hif.nqTail + BitVec.ofNat 9 k ∧
      ((drainBacklog n s).q.backlog = [] ∨ nqFree (drainBacklog n s).hif = false) ∧
      drainBacklog n s = { s with
        win := (drainBacklog n s).win, hif := (drainBacklog n s).hif, q := { s.q with backlog := (drainBacklog n s).q.backlog } }
  | 0, s, hn => ⟨0, by simp, by simp [drainBacklog], by simp [drainBacklog],
      .inl (List.length_eq_zero_iff.mp (by simpa [drainBacklog] using hn)), rfl⟩
  | n + 1, s, hn => by
    rw [drainBacklog]
    split
    · rename_i hb
      exact ⟨0, by simp, by simp, by simp, .inl hb, rfl⟩
    · rename_i b t hb
      split
      · have hq := nqPut_q b { s with q := { s.q with backlog := t } }
        have ht := nqPut_nqTail b { s with q := { s.q with backlog := t } }
        obtain ⟨k, hk, hd, htail, hstop, hsame⟩ := drainBacklog_drop n (nqPut b { s with q := { s.q with backlog := t } })
          (by simpa [hq, hb] using hn)
        rw [hq] at hk hd
        refine ⟨k + 1, by simpa [hb] using hk, by simpa [hb] using hd, ?_, hstop, ?_⟩
        · rw [htail, ht]
          apply BitVec.eq_of_toNat_eq
          simp
          omega
        · rw [hsame, hq]
          rfl
      · rename_i hf
        exact ⟨0, by simp, by simp, by simp, .inr (by simpa using hf), rfl⟩

/-- Settles O16: each timer by its own lemma, the two commands by the branches of their cards. -/
theorem wardenTimers : Obligations.WardenTimers := by
  unfold Obligations.WardenTimers
  refine ⟨fun s hf hr ht => ?_, fun s h => ?_, fun s h => ?_, fun s h => ?_, fun s h => ?_, fun h s ha => query_accept ha h _,
    fun h g target p op s ha hp hm => ?_, fun h target s ha hp ho => ?_, fun h target o s ha hp hmem htag hne hs hans hw => ?_⟩
  · have hc : (s.dbg.frozen || restarting s || !s.time.running) = false := by simp [hf, hr, ht]
    have hn : ∀ n : Note, (!decide (n.lts.sf.toNat + 16 < s.time.lts.sf.toNat)) =
        decide (s.time.lts.sf.toNat ≤ n.lts.sf.toNat + 16) := by
      intro n
      rw [← decide_not]
      exact decide_eq_decide.mpr (by omega)
    simp only [exec, execNotifyRelease, releaseDue, hc, Bool.false_eq_true, if_false, hn]
  · have hc : (s.dbg.frozen || restarting s || !s.time.running) = true := by
      rcases h with h | h | h <;> simp [h]
    simp only [exec, execNotifyRelease, releaseDue, hc, if_true]
  · simp only [exec, execNotifyBacklogDrain, h, if_true]
  · obtain ⟨k, hk, hd, htail, hstop, hsame⟩ := drainBacklog_drop s.q.backlog.length s le_rfl
    exact ⟨_, k, by simp only [exec, execNotifyBacklogDrain, h, Bool.false_eq_true, if_false], hk, hd, htail, hstop, hsame⟩
  · refine ⟨_, by simp only [exec, execIrqHoldExpire, h, if_true]; rfl, fun a ha hh => ?_, fun a ha hh => ?_, fun ha => ?_,
      fun ha => ?_, fun a ha hh => ?_, fun a ha hh => ?_, ?_⟩
    · simp only [withIrq, raiseNew_respCoal, coalExpire_due ha hh]
    · simp only [withIrq, raiseNew_respCoal, coalExpire_early ha hh]
    · simp only [withIrq, raiseNew_respCoal, coalExpire_none ha]
    · simp only [withIrq, raiseNew_noteCoal, coalExpire_none ha]
    · simp only [withIrq, raiseNew_noteCoal, coalExpire_due ha hh]
    · simp only [withIrq, raiseNew_noteCoal, coalExpire_early ha hh]
    · simp only [withIrq]
      rw [raiseNew_same]
  · simp only [exec, execSysCancel, command_accept ha, hp, hm]
  · have hb : (s.q.outst.any fun o => o.sched && !o.answered && decide (o.tag = target) && decide (o.tag ≠ h.tag)
        && !(s.q.waiting.any fun w => decide (w.ord = o.ord))) = false := by
      rw [List.any_eq_false]
      intro o hmem
      by_cases htag : o.tag = target
      · rcases ho o hmem htag with h1 | h1 | h1 | ⟨w, hw, h1⟩
        · simp [h1]
        · simp [h1]
        · simp [h1]
        · have : (s.q.waiting.any fun w => decide (w.ord = o.ord)) = true := List.any_eq_true.mpr ⟨w, hw, by simp [h1]⟩
          simp [this]
      · simp [htag]
    simp only [exec, execSysCancel, command_accept ha, hp, hb, Bool.false_eq_true, if_false]
  · have hb : (s.q.outst.any fun o => o.sched && !o.answered && decide (o.tag = target) && decide (o.tag ≠ h.tag)
        && !(s.q.waiting.any fun w => decide (w.ord = o.ord))) = true := by
      refine List.any_eq_true.mpr ⟨o, hmem, ?_⟩
      have hany : (s.q.waiting.any fun w => decide (w.ord = o.ord)) = false := by
        simpa using hw
      simp [hs, hans, htag, hne, hany]
    simp only [exec, execSysCancel, command_accept ha, hp, hb, if_true]

/-! ### The check-value unit -/

/-- The form of a CV.CONFIG (R67). -/
def cvFormOk (profile width flags : Byte) (poly init xorOut : Dword) : Prop :=
  profile = 3 ∧ width ∈ [8, 16, 32, 64] ∧ flags &&& 0xFC = 0 ∧ poly.toNat < 2 ^ width.toNat ∧ init.toNat < 2 ^ width.toNat ∧
    xorOut.toNat < 2 ^ width.toNat

theorem cvForm_check (profile width flags : Byte) (poly init xorOut : Dword) :
    (decide (profile ≠ 3) || !cvWidth width || !reservedClear flags 3 || !decide (poly.toNat < 2 ^ width.toNat)
      || !decide (init.toNat < 2 ^ width.toNat) || !decide (xorOut.toNat < 2 ^ width.toNat)) = true ↔
      ¬ cvFormOk profile width flags poly init xorOut := by
  have hw : cvWidth width = true ↔ width ∈ [8, 16, 32, 64] := by
    simp [cvWidth, or_assoc]
  have hf : reservedClear flags 3 = true ↔ flags &&& 0xFC = 0 := reservedClear_iff flags 3
  unfold cvFormOk
  rw [← hw, ← hf]
  simp only [Bool.or_eq_true, decide_eq_true_eq, Bool.not_eq_true', ← Bool.not_eq_true]
  tauto

theorem leNat_leBytes (n v : Nat) : leNat (leBytes n v) = v % 256 ^ n := by
  induction n generalizing v with
  | zero => simp [leBytes, leNat, Nat.mod_one]
  | succ n ih =>
    have hp : 256 ^ (n + 1) = 256 * 256 ^ n := Nat.pow_succ'
    rw [leBytes, leNat, ih, BitVec.toNat_ofNat, hp, Nat.mod_mul]

theorem leBytes_zero (n : Nat) : leBytes n 0 = List.replicate n 0 := by
  induction n with
  | zero => rfl
  | succ n ih => simp [leBytes, ih, List.replicate_succ]

/-- A field of a byte string is the piece that stands there. -/
theorem slice_append (a x c : List Byte) : slice (a ++ (x ++ c)) a.length x.length = x := by
  refine List.ext_getElem (slice_length _ _ _) fun i h1 h2 => ?_
  simp [slice, byteAt, List.getElem?_append_right, List.getElem?_append_left h2, h2]

theorem fieldAt_leBytes (a c : List Byte) {n v : Nat} (hv : v < 256 ^ n) : fieldAt (a ++ (leBytes n v ++ c)) a.length n = v := by
  have h := slice_append a (leBytes n v) c
  rw [leBytes_length] at h
  rw [fieldAt, h, leNat_leBytes, Nat.mod_eq_of_lt hv]

theorem reflect_lt (n v : Nat) : reflect n v < 2 ^ n := by
  induction n generalizing v with
  | zero => simp [reflect]
  | succ n ih =>
    have := ih (v / 2)
    rw [reflect, Nat.pow_succ]
    rcases Nat.mod_two_eq_zero_or_one v with h | h <;> rw [h] <;> omega

/-- R67: the check value of profile 0 has 32 bits. -/
theorem check0_lt (bs : List Byte) : check0 bs < 256 ^ 4 :=
  Nat.xor_lt_two_pow (n := 32) (reflect_lt 32 _) (by decide)

theorem cvCtxHead_length (n : Nat) (p : CvParams) (rem bytes : Nat) : (cvCtxHead n p rem bytes).length = 24 := by
  simp [cvCtxHead, leBytes_length]

/-- R431: the reserved bytes of a context are zero. -/
theorem cvCtxBytes_reserved (n : Nat) (p : CvParams) (rem bytes : Nat) : fieldAt (cvCtxBytes n p rem bytes) 3 5 = 0 := by
  have h := fieldAt_leBytes (leBytes 1 n ++ leBytes 1 p.width ++ leBytes 1 (boolBit p.refIn 0 + boolBit p.refOut 1))
    (leBytes 8 rem ++ leBytes 8 bytes ++ leBytes 4 (check0 (paramBytes p)) ++
      leBytes 4 (check0 (cvCtxHead n p rem bytes ++ leBytes 4 (check0 (paramBytes p))))) (n := 5) (v := 0) (Nat.pow_pos (by decide))
  simp only [List.length_append, leBytes_length] at h
  refine Eq.trans ?_ h
  simp only [cvCtxBytes, cvCtxHead, List.append_assoc, leBytes_zero]

/-- R431: the remainder in a context. -/
theorem cvCtxBytes_rem (n : Nat) (p : CvParams) {rem : Nat} (bytes : Nat) (hr : rem < 256 ^ 8) :
    fieldAt (cvCtxBytes n p rem bytes) 8 8 = rem := by
  have h := fieldAt_leBytes (leBytes 1 n ++ leBytes 1 p.width ++ leBytes 1 (boolBit p.refIn 0 + boolBit p.refOut 1) ++
      List.replicate 5 0)
    (leBytes 8 bytes ++ leBytes 4 (check0 (paramBytes p)) ++
      leBytes 4 (check0 (cvCtxHead n p rem bytes ++ leBytes 4 (check0 (paramBytes p))))) hr
  simp only [List.length_append, leBytes_length, List.length_replicate] at h
  refine Eq.trans ?_ h
  simp only [cvCtxBytes, cvCtxHead, List.append_assoc]

/-- R431: the bytes counted in a context. -/
theorem cvCtxBytes_bytes (n : Nat) (p : CvParams) (rem : Nat) {bytes : Nat} (hb : bytes < 256 ^ 8) :
    fieldAt (cvCtxBytes n p rem bytes) 16 8 = bytes := by
  have h := fieldAt_leBytes (leBytes 1 n ++ leBytes 1 p.width ++ leBytes 1 (boolBit p.refIn 0 + boolBit p.refOut 1) ++
      List.replicate 5 0 ++ leBytes 8 rem)
    (leBytes 4 (check0 (paramBytes p)) ++
      leBytes 4 (check0 (cvCtxHead n p rem bytes ++ leBytes 4 (check0 (paramBytes p))))) hb
  simp only [List.length_append, leBytes_length, List.length_replicate] at h
  refine Eq.trans ?_ h
  simp only [cvCtxBytes, cvCtxHead, List.append_assoc]

/-- R431: the check value of the parameters in a context. -/
theorem cvCtxBytes_params (n : Nat) (p : CvParams) (rem bytes : Nat) :
    fieldAt (cvCtxBytes n p rem bytes) 24 4 = check0 (paramBytes p) := by
  have h := fieldAt_leBytes (cvCtxHead n p rem bytes)
    (leBytes 4 (check0 (cvCtxHead n p rem bytes ++ leBytes 4 (check0 (paramBytes p))))) (check0_lt (paramBytes p))
  rw [cvCtxHead_length] at h
  refine Eq.trans ?_ h
  simp only [cvCtxBytes, List.append_assoc]

/-- R431: a context ends in the check value of its other bytes. -/
theorem cvCtxBytes_split (n : Nat) (p : CvParams) (rem bytes : Nat) :
    ∃ b : List Byte, b.length = 28 ∧ cvCtxBytes n p rem bytes = b ++ leBytes 4 (check0 b) :=
  ⟨cvCtxHead n p rem bytes ++ leBytes 4 (check0 (paramBytes p)), by simp [cvCtxHead_length, leBytes_length], rfl⟩

/-- R431: the check value over a context. -/
theorem cvCtxBytes_check (n : Nat) (p : CvParams) (rem bytes : Nat) :
    fieldAt (cvCtxBytes n p rem bytes) 28 4 = check0 (slice (cvCtxBytes n p rem bytes) 0 28) := by
  obtain ⟨b, hl, hb⟩ := cvCtxBytes_split n p rem bytes
  have hs : slice (b ++ leBytes 4 (check0 b)) 0 28 = b := by
    have h := slice_append [] b (leBytes 4 (check0 b))
    rwa [hl] at h
  have hf : fieldAt (b ++ leBytes 4 (check0 b)) 28 4 = check0 b := by
    have h := fieldAt_leBytes b [] (check0_lt b)
    rwa [hl, List.append_nil] at h
  rw [hb, hs, hf]

/-- R66: a whole run over a staging buffer answers the check value of its bytes and their number. -/
theorem cvRunDone_staging (h : Hdr) (profile ctx : Byte) (s : State) :
    cvRunDone h profile 0 ctx 2 0 0 0 s =
      reply 0x0E02 h [fld 16 8 (crcOf (cvParams profile.toNat s) (bufData h s)), fld 24 8 (bufData h s).length] s := by
  have h2 : ((0 : Byte) = 2) = False := by decide
  have h3 : ((0 : Byte) = 3) = False := by decide
  simp only [cvRunDone, crcOf, h2, h3, if_true, if_false, true_or, decide_false, Bool.or_self, Bool.false_eq_true, Nat.zero_add]

/-- Settles O17: the cards' checks, and the bytes of a context read back. -/
theorem checkValues : Obligations.CheckValues := by
  unfold Obligations.CheckValues
  refine ⟨fun h profile width flags poly init xorOut s ha => ⟨fun hok => ⟨fun hj => ?_, fun hj => ?_⟩, fun hbad => ?_⟩,
    fun h profile mode ctx src region offset len s ha hf => ?_, fun h profile mode ctx src region offset len st s ha hf => ?_,
    fun h profile ctx s hp hb => ?_, fun h ctx s ha hc hb hr hj => ?_,
    fun h ctx profile rem bytes s ha hc hb hl hr hp hbytes hw hrem hd => ?_,
    fun h profile src region blk offset len action work s ha hp hsrc hb1 hb2 hact hbad hwork => ⟨fun hd => ?_, fun hd => ?_⟩,
    fun h profile ctx late rest s hr hj => ?_, fun s hj => ?_⟩
  · have h1 := Bool.eq_false_iff.mpr fun hx => (cvForm_check profile width flags poly init xorOut).mp hx hok
    have h2 : (s.cv.ctx.any fun c => c.job && decide (c.profile = 3)) = false := by simpa using hj
    simp only [exec, execCvConfig, command_accept ha]
    rw [guarded_pass]
    · rfl
    · simp only [firstFail_cons, h1, h2, Bool.false_eq_true, if_false, firstFail_nil]
  · have h1 := Bool.eq_false_iff.mpr fun hx => (cvForm_check profile width flags poly init xorOut).mp hx hok
    have h2 : (s.cv.ctx.any fun c => c.job && decide (c.profile = 3)) = true := by simpa using hj
    simp only [exec, execCvConfig, command_accept ha]
    rw [guarded_fail]
    simp only [firstFail_cons, h1, h2, Bool.false_eq_true, if_false, if_true]
  · have h1 := (cvForm_check profile width flags poly init xorOut).mpr hbad
    simp only [exec, execCvConfig, command_accept ha]
    rw [guarded_fail]
    simp only [firstFail_cons, h1, if_true]
  · simp only [exec, execCvRun, command_accept ha, hf]
    split <;> simp_all [setCvCtx]
  · simp only [exec, execCvRun, command_accept ha, hf, cvRunEnds, setCvCtx]
  · have h3 : ¬ 3 < profile.toNat := by omega
    simp [cvRunCheck, h3, hb]
  · have h5 : ¬ 5 < ctx.toNat := by omega
    simp only [exec, execCvCtxRead, command_accept ha]
    rw [guarded_pass]
    · simp only [hj, if_true]
    · simp [h5, hb, hr]
  · have h5 : ¬ 5 < ctx.toNat := by omega
    have hrem8 : rem < 256 ^ 8 := lt_of_lt_of_le hrem ((Nat.pow_le_pow_right (by decide) hw).trans (by decide))
    have hb0 : (byteAt (bufData h s) 0).toNat = profile := by
      rw [hd]
      change (BitVec.ofNat 8 profile).toNat = profile
      rw [BitVec.toNat_ofNat]
      omega
    have hb1 : byteAt (bufData h s) 1 = BitVec.ofNat 8 (cvParams profile s).width := by
      rw [hd]
      rfl
    have hb2 : (byteAt (bufData h s) 2).toNat = boolBit (cvParams profile s).refIn 0 + boolBit (cvParams profile s).refOut 1 := by
      rw [hd]
      change (BitVec.ofNat 8 _).toNat = _
      cases (cvParams profile s).refIn <;> cases (cvParams profile s).refOut <;> rfl
    have hp3 : ¬ 3 < profile := by omega
    have hrem' : ¬ 2 ^ (cvParams profile s).width ≤ rem := by omega
    have hf1 : fieldAt (bufData h s) 3 5 = 0 := by rw [hd, cvCtxBytes_reserved]
    have hf2 : fieldAt (bufData h s) 8 8 = rem := by rw [hd, cvCtxBytes_rem _ _ _ hrem8]
    have hf3 : fieldAt (bufData h s) 16 8 = bytes := by rw [hd, cvCtxBytes_bytes _ _ _ hbytes]
    have hf4 : fieldAt (bufData h s) 24 4 = check0 (paramBytes (cvParams profile s)) := by rw [hd, cvCtxBytes_params]
    have hf5 : fieldAt (bufData h s) 28 4 = check0 (slice (bufData h s) 0 28) := by rw [hd, cvCtxBytes_check]
    simp only [exec, execCvCtxWrite, command_accept ha]
    rw [guarded_pass]
    · simp only [hb0, hf2, hf3, setCvCtx]
    · simp [hb0, hb1, hb2, hf1, hf2, hf4, hf5, h5, hb, hl, hr, hp3, hrem']
  · have hg : (decide (3 < profile.toNat) || decide (1 < src.toNat) || decide (blk.toNat < 9) || decide (20 < blk.toNat)
          || decide (1 < action.toNat) || cvSourceBad src region offset.toNat len.toNat) = false := by
      simp [hbad]; omega
    simp only [exec, execCvScan, command_accept ha]
    rw [guarded_pass]
    · simp only [hd, Bool.false_eq_true, if_false]
    · simp [hg]; omega
  · have hg : (decide (3 < profile.toNat) || decide (1 < src.toNat) || decide (blk.toNat < 9) || decide (20 < blk.toNat)
          || decide (1 < action.toNat) || cvSourceBad src region offset.toNat len.toNat) = false := by
      simp [hbad]; omega
    simp only [exec, execCvScan, command_accept ha]
    rw [guarded_pass]
    · simp only [hd, if_true]
    · simp [hg]; omega
  · simp only [exec, execCvJobDone, hj, hr, Bool.not_true, Bool.false_eq_true, if_false, answerLate, cvRunDone_staging]
    rfl
  · simp only [exec, execCvJobDone, hj]

end Sys2Proof.Machine
end

section
/-! The flash's care, the firmware slots and the log (R71 to R83): settles O18 and O19. -/
namespace Sys2Proof.Machine

open Sys2Proof

/-! ### Stores to the LOG ring (R72, R73) -/

/-- The second flash has the spares and the retired and lost blocks of the first. -/
def sparesSame (f g : Flash) : Prop :=
  g.spare = f.spare ∧ g.retired = f.retired ∧ g.retiredBlocks = f.retiredBlocks ∧ g.lostBlocks = f.lostBlocks

theorem sparesSame_trans {f g h : Flash} (h1 : sparesSame f g) (h2 : sparesSame g h) : sparesSame f h :=
  ⟨h2.1.trans h1.1, h2.2.1.trans h1.2.1, h2.2.2.1.trans h1.2.2.1, h2.2.2.2.trans h1.2.2.2⟩

theorem exchange_sparesSame (a b : Nat) (f : Flash) : sparesSame f (exchange a b f) := by
  unfold exchange
  split <;> exact ⟨rfl, rfl, rfl, rfl⟩

theorem dated_sparesSame (b now : Nat) (f : Flash) : sparesSame f (dated b now f) := by
  unfold dated
  split <;> exact ⟨rfl, rfl, rfl, rfl⟩

/-- R73: an erase that retires no block takes no spare. -/
theorem erase_sparesSame {b : Nat} {f : Flash} (h : (erase b f).2 = false) : sparesSame f (erase b f).1 := by
  unfold erase at h ⊢
  dsimp only at h ⊢
  split at h
  · cases h
  · rename_i hn
    rw [if_neg hn]
    split
    · exact sparesSame_trans ⟨rfl, rfl, rfl, rfl⟩ (exchange_sparesSame _ _ _)
    · exact ⟨rfl, rfl, rfl, rfl⟩

theorem logStore_sparesSame {now : Nat} {f : Flash} (h : (logStore now f).2 = none) : sparesSame f (logStore now f).1 := by
  unfold logStore at h ⊢
  dsimp only at h ⊢
  split at h
  · rename_i hc
    rw [if_pos hc]
    split at h
    · rename_i hl
      rw [if_pos hl]
      have he : (erase (logBlockAt f.logCount f) f).2 = false := by
        by_contra hx
        simp [hx] at h
      exact sparesSame_trans (sparesSame_trans (erase_sparesSame he) (dated_sparesSame _ _ _)) ⟨rfl, rfl, rfl, rfl⟩
    · rename_i hl
      rw [if_neg hl]
      exact sparesSame_trans (dated_sparesSame _ _ _) ⟨rfl, rfl, rfl, rfl⟩
  · rename_i hc
    rw [if_neg hc]
    exact ⟨rfl, rfl, rfl, rfl⟩

theorem logStores_sparesSame : ∀ (n now : Nat) (f : Flash), (logStores n now f).2 = [] → sparesSame f (logStores n now f).1
  | 0, _, _, _ => ⟨rfl, rfl, rfl, rfl⟩
  | n + 1, now, f, h => by
    obtain ⟨h1, h2⟩ := List.append_eq_nil_iff.mp h
    have h1 : (logStore now f).2 = none := by
      cases hx : (logStore now f).2 with
      | none => rfl
      | some b => simp [hx] at h1
    exact sparesSame_trans (logStore_sparesSame h1) (logStores_sparesSame n now _ h2)

/-- A flash with another stage. -/
def restaged (es : List LogEntry) (q : Sf) (f : Flash) : Flash := { f with stage := es, nextSeq := q }

theorem exchange_restaged (es : List LogEntry) (q : Sf) (a b : Nat) (f : Flash) :
    exchange a b (restaged es q f) = restaged es q (exchange a b f) := by
  by_cases h : a = b <;> simp only [exchange, h, if_true, if_false] <;> rfl

theorem dated_restaged (es : List LogEntry) (q : Sf) (b now : Nat) (f : Flash) :
    dated b now (restaged es q f) = restaged es q (dated b now f) := by
  by_cases h : (f.dates.any fun x => decide (x.1 = b)) = true <;> simp only [dated, restaged, h, if_true, if_false] <;> rfl

/-- A block erased once more, before it is retired or exchanged (R73). -/
def erasedOnce (b : Nat) (f : Flash) : Flash :=
  { f with erases := setCount b (countAt b f.erases + 1) f.erases, reads := dropCount b f.reads, dates := dropCount b f.dates }

theorem erase_eq (b : Nat) (f : Flash) : erase b f =
    if 60000 ≤ countAt b f.erases + 1 then (retire b (erasedOnce b f), true)
    else if levelDue b (erasedOnce b f) && decide ((erasedOnce b f).spare ≠ 0) then
      (exchange b (freshSpare (erasedOnce b f)) (erasedOnce b f), false)
    else (erasedOnce b f, false) := by
  unfold erase
  by_cases h : 60000 ≤ countAt b f.erases + 1
  · rw [if_pos h, if_pos h]
    rfl
  · rw [if_neg h, if_neg h]
    rfl

theorem leastErased_congr {f g : Flash} (h1 : g.retiredBlocks = f.retiredBlocks) (h2 : g.factory = f.factory)
    (h3 : g.erases = f.erases) (b : Nat) (bs : List Nat) : leastErased b bs g = leastErased b bs f := by
  unfold leastErased
  rw [h1, h2, h3]

theorem erase_restaged (es : List LogEntry) (q : Sf) (b : Nat) (f : Flash) :
    erase b (restaged es q f) = (restaged es q (erase b f).1, (erase b f).2) := by
  have h1 : erasedOnce b (restaged es q f) = restaged es q (erasedOnce b f) := rfl
  have h2 : levelDue b (restaged es q (erasedOnce b f)) = levelDue b (erasedOnce b f) := rfl
  have h3 : (restaged es q (erasedOnce b f)).spare = (erasedOnce b f).spare := rfl
  have h4 : freshSpare (restaged es q (erasedOnce b f)) = freshSpare (erasedOnce b f) := by
    unfold freshSpare
    apply leastErased_congr <;> rfl
  have h5 : (restaged es q f).erases = f.erases := rfl
  have h6 : retire b (restaged es q (erasedOnce b f)) = restaged es q (retire b (erasedOnce b f)) := rfl
  rw [erase_eq, erase_eq, h1, h2, h3, h4, h5, h6, exchange_restaged]
  split
  · rfl
  · split <;> rfl

/-- The stores depend on the ring and its blocks, not on what is staged. -/
theorem logStore_restaged (es : List LogEntry) (q : Sf) (now : Nat) (f : Flash) :
    logStore now (restaged es q f) = (restaged es q (logStore now f).1, (logStore now f).2) := by
  have h1 : (restaged es q f).logCount = f.logCount := rfl
  have h2 : logBlockAt f.logCount (restaged es q f) = logBlockAt f.logCount f := rfl
  have h3 : logCapacity (restaged es q f) = logCapacity f := rfl
  unfold logStore
  dsimp only
  rw [h1, h2, h3, erase_restaged]
  split
  · split <;> simp only [dated_restaged] <;> rfl
  · rfl

theorem logStores_restaged (es : List LogEntry) (q : Sf) : ∀ (n now : Nat) (f : Flash),
    logStores n now (restaged es q f) = (restaged es q (logStores n now f).1, (logStores n now f).2)
  | 0, _, _ => rfl
  | n + 1, now, f => by
    simp only [logStores, logStore_restaged, logStores_restaged es q n now]

/-- A log entry changes the flash and the entry's number only. -/
theorem logEntry_same (t : Nat) (c : Half) (e : Option Half) (d : List Byte) (s : State) :
    logEntry t c e d s = { s with flash := (logEntry t c e d s).flash, aon := (logEntry t c e d s).aon } := by
  have hf := logEntry_frame t c e d s
  generalize logEntry t c e d s = u at hf ⊢
  cases u
  simp only at hf
  simp only [hf]

/-- R83: a log entry whose stores retire no block takes no spare. -/
theorem logEntry_sparesSame (t : Nat) (c : Half) (e : Option Half) (d : List Byte) {s : State}
    (hr : (logStores (s.flash.stage.length + 1) (extTimer s) s.flash).2 = []) : sparesSame s.flash (logEntry t c e d s).flash := by
  unfold logEntry
  split
  · exact ⟨rfl, rfl, rfl, rfl⟩
  · dsimp only
    split
    · have hfl : (stageEntry t c e d s).flash =
          restaged (stageEntry t c e d s).flash.stage (stageEntry t c e d s).flash.nextSeq s.flash := rfl
      have hext : extTimer (stageEntry t c e d s) = extTimer s := rfl
      have hlen : (stageEntry t c e d s).flash.stage.length = s.flash.stage.length + 1 := by simp [stageEntry]
      have htake : (stageEntry t c e d s).flash.stage.take (s.flash.stage.length + 1) = (stageEntry t c e d s).flash.stage := by
        rw [← hlen, List.take_length]
      have hst : logStores (s.flash.stage.length + 1) (extTimer s) (stageEntry t c e d s).flash = _ :=
        hfl ▸ logStores_restaged _ _ _ _ _
      obtain ⟨h1, h2, h3, h4⟩ := logStores_sparesSame _ _ _ hr
      simp only [flushLog, flushEntries, hlen, htake, hext, hst, hr, List.foldl_nil]
      exact ⟨h1, h2, h3, h4⟩
    · exact ⟨rfl, rfl, rfl, rfl⟩

theorem blockUnused_iff (b : Nat) (f : Flash) : blockUnused b f = true ↔ b ∈ f.lostBlocks ∨ b ∈ f.factory := by
  simp [blockUnused]

/-- R73: with more than 64 spares, retiring a block takes one and says nothing. -/
theorem retireBlock_spares {b : Nat} {s : State} (hsp : 64 < s.flash.spare)
    (hr : (logStores (s.flash.stage.length + 1) (extTimer s) (retire b s.flash)).2 = []) :
    sparesSame (retire b s.flash) (retireBlock b s).flash ∧
      retireBlock b s = { s with flash := (retireBlock b s).flash, aon := (retireBlock b s).aon } := by
  have hspare : (retire b s.flash).spare = s.flash.spare - 1 := by
    have h1 : s.flash.spare ≠ 0 := by omega
    have h2 : ¬ s.flash.spare < 16 := by omega
    simp [retire, h1, h2]
  have hsame := logEntry_sparesSame 13 0x0D00 none (leBytes 2 b) (s := { s with flash := retire b s.flash }) hr
  have hsp2 : (logEntry 13 0x0D00 none (leBytes 2 b) { s with flash := retire b s.flash }).flash.spare = s.flash.spare - 1 :=
    hsame.1.trans hspare
  have heq : retireBlock b s = logEntry 13 0x0D00 none (leBytes 2 b) { s with flash := retire b s.flash } := by
    unfold retireBlock sparesNote
    exact if_neg fun hc => by omega
  rw [heq]
  exact ⟨hsame, logEntry_same 13 0x0D00 none (leBytes 2 b) _⟩

theorem countAt_setCount (b n : Nat) (l : List (Nat × Nat)) : countAt b (setCount b n l) = n := by
  simp [countAt, setCount]

theorem readBlocks_one (b : Nat) (f : Flash) :
    readBlocks b 1 f = { f with reads := setCount b (countAt b f.reads + 1) f.reads } := rfl

/-- R74: the patrol of a block in use. -/
theorem execFlashPatrol_used {b bits : Nat} {retry : Bool} {s s0 s1 : State} (hp : s.pwr.powered.getLsbD 1 = true)
    (hb : b = s.flash.patrol) (hs0 : s0 = { s with flash := { s.flash with patrol := (b + 1) % 4096 } })
    (hs1 : s1 = { s0 with flash := { s0.flash with reads := setCount b (countAt b s.flash.reads + 1) s.flash.reads } })
    (hl : b ∉ s.flash.lostBlocks) (hf : b ∉ s.flash.factory) :
    exec (.flashPatrol bits retry) s = .next (
      if refreshRuns s && ((blockHeld b s && datedOut b (extTimer s) s.flash) || decide (8 < bits) || retry
        || decide (100000 ≤ countAt b s.flash.reads + 1)) then refreshBlock b s1 else s1) := by
  have hu : blockUnused b s.flash = false := Bool.eq_false_iff.mpr fun h => ((blockUnused_iff _ _).mp h).elim hl hf
  have hm : domIn s.pwr.powered .mgmt = true := hp
  subst hb hs1 hs0
  simp only [exec, execFlashPatrol, hm, hu, Bool.not_true, Bool.false_eq_true, if_false, readBlocks_one, countAt_setCount]

/-- Settles O18: the patrol's three cases, and the retirement of a block by its spares. -/
theorem flashCare : Obligations.FlashCare := by
  unfold Obligations.FlashCare
  refine ⟨fun h s ha => ?_, fun b bits retry s s0 s1 hp hb hs0 hs1 => ⟨fun hu => ?_, fun hl hf => ⟨fun hrun hc => ?_, fun hc => ?_⟩⟩,
    fun block s hp hlt => ⟨fun hu => ?_, fun hl hf hsp hr => ?_⟩⟩
  · simp only [exec, execFlashStatus, command_accept ha]
  · have hu := (blockUnused_iff _ _).mpr hu
    subst hb hs0
    have hm : domIn s.pwr.powered .mgmt = true := hp
    simp only [exec, execFlashPatrol, hm, hu, Bool.not_true, Bool.false_eq_true, if_false, if_true]
  · have hc' : (refreshRuns s && ((blockHeld b s && datedOut b (extTimer s) s.flash) || decide (8 < bits) || retry
        || decide (100000 ≤ countAt b s.flash.reads + 1))) = true := by
      simp only [Bool.and_eq_true, Bool.or_eq_true, decide_eq_true_eq, datedOut, hrun, true_and, or_assoc]
      exact hc
    rw [execFlashPatrol_used hp hb hs0 hs1 hl hf, hc', if_pos rfl]
  · have hc' : (refreshRuns s && ((blockHeld b s && datedOut b (extTimer s) s.flash) || decide (8 < bits) || retry
        || decide (100000 ≤ countAt b s.flash.reads + 1))) = false := by
      rcases hc with h1 | ⟨h1, h2, h3, h4⟩
      · simp [h1]
      · have h2 : ¬ 8 < bits := by omega
        have h4 : ¬ 100000 ≤ countAt b s.flash.reads + 1 := by omega
        rcases h1 with h1 | h1 <;> simp [h1, h2, h3, h4, datedOut]
    rw [execFlashPatrol_used hp hb hs0 hs1 hl hf, hc', if_neg (by decide)]
  · have hu := (blockUnused_iff _ _).mpr hu
    simp only [exec, execFlashBlockFail, hu, Bool.not_true, Bool.and_false, Bool.false_eq_true, if_false]
  · have hu : blockUnused block s.flash = false := Bool.eq_false_iff.mpr fun h => ((blockUnused_iff _ _).mp h).elim hl hf
    have hx : exec (.flashBlockFail block) s = .next (retireBlock block s) := by
      have hm : domIn s.pwr.powered .mgmt = true := hp
      simp only [exec, execFlashBlockFail, hu, hlt, hm, decide_true, Bool.not_false, Bool.and_self, if_true]
    obtain ⟨⟨h1, h2, h3, h4⟩, hsame⟩ := retireBlock_spares hsp hr
    have h5 : s.flash.spare ≠ 0 := by omega
    have h6 : ¬ s.flash.spare < 16 := by omega
    refine ⟨_, hx, h1.trans ?_, h2, h3, h4.trans ?_, hsame⟩ <;> simp [retire, h5, h6]

/-! ### Firmware and the log -/

theorem setSlotImage_aon (b : Bool) (i : Option Image) (s : State) : (setSlotImage b i s).aon = s.aon := rfl

theorem fwHead {head : List Byte} {s : State} (h : head = memReadN 0xFF s.flash.mem (slotBlock (stageSlot s) * 262144) 256) :
    memReadN 0xFF s.flash.mem (slotBlock (stageSlot s) * blockBytes) 256 = head := h.symm

theorem fwSigned {total : Nat} {s : State}
    (h : Config.signatureVerifies (memReadN 0xFF s.flash.mem (slotBlock (stageSlot s) * 262144) total) = true) :
    Config.signatureVerifies (memReadN 0xFF s.flash.mem (slotBlock (stageSlot s) * blockBytes) total) = true := h

/-- A restart of the warden keeps its clock. -/
theorem restartWarden_done_time (h : Hdr) (s : State) : (restartWarden (done 0x0D03 h s)).time = s.time := by
  simp [restartWarden, discardCommands]

/-- Settles O19, by the checks of each card in their order. -/
theorem firmwareAndLog : Obligations.FirmwareAndLog := by
  unfold Obligations.FirmwareAndLog
  refine ⟨fun h offset s ha h4 hb hlen block s1 hblk hs1 => ⟨fun hl => ?_, fun hl => ?_⟩,
    fun h head total s s1 ha hs1 hhead htot hmagic hle hst hsig hprod => ⟨fun hf => ?_, fun hf => ?_⟩,
    fun h s ha hc hp => ?_, fun h i s ha hc hp hr hi => ⟨fun hh => ?_, fun hh => ?_⟩,
    fun h s ha => ⟨fun ht hn => ?_, fun hn => ?_⟩, fun h first count last es s ha hb h1 h2 hlast hle hes => ?_⟩
  · have hover : ¬ 512 * blockBytes < offset.toNat + h.length.toNat := by
      simp only [blockBytes]
      omega
    subst hs1 hblk
    simp only [exec, execFwStage, command_accept ha]
    rw [guarded_pass]
    · rfl
    · simp only [firstFail_cons, firstFail_nil, h4, hb, hover, ne_eq, not_true_eq_false, decide_false, Bool.not_true, Bool.or_self,
        Bool.false_eq_true, if_false, List.contains_iff_mem, ite_eq_right_iff, reduceCtorEq, imp_false]
      exact hl
  · have hover : ¬ 512 * blockBytes < offset.toNat + h.length.toNat := by
      simp only [blockBytes]
      omega
    subst hblk
    simp only [exec, execFwStage, command_accept ha]
    rw [guarded_fail]
    simp only [firstFail_cons, h4, hb, hover, ne_eq, not_true_eq_false, decide_false, Bool.not_true, Bool.or_self,
        Bool.false_eq_true, if_false, List.contains_iff_mem]
    exact if_pos hl
  · have hover : ¬ 512 * blockBytes < total := Nat.not_lt.mpr hle
    have hlow : ¬ Config.headerField 2 head < s.ident.fuses := Nat.not_lt.mpr hf
    simp only [exec, execFwCommit, command_accept ha, fwHead hhead, ← htot, if_neg hover, ← hs1]
    rw [guarded_pass]
    · have haon : s1.aon = s.aon := by
        rw [hs1]
        rfl
      have hslot : stageSlot s1 = stageSlot s := by
        rw [hs1]
        rfl
      simp only [setSlotImage_aon, haon, hslot, hprod, BitVec.toNat_ofNat]
    · simp only [firstFail_cons, firstFail_nil, hmagic, hover, hst, fwSigned hsig, hprod, hlow, ne_eq, not_true_eq_false, decide_false,
        Bool.not_true, Bool.or_self, Bool.false_eq_true, if_false]
  · have hover : ¬ 512 * blockBytes < total := Nat.not_lt.mpr hle
    simp only [exec, execFwCommit, command_accept ha, fwHead hhead, ← htot, if_neg hover, ← hs1]
    rw [guarded_fail]
    simp only [firstFail_cons, firstFail_nil, hmagic, hover, hst, fwSigned hsig, hprod, hf, ne_eq, not_true_eq_false, decide_false,
        decide_true, Bool.not_true, Bool.or_self, Bool.false_eq_true, if_false, if_true]
  · simp only [exec, execFwActivate, command_accept ha]
    rw [guarded_pass]
    · rfl
    · simp [hc, hp]
  · simp only [exec, execFwActivate, command_accept ha, hi, hh]
    rw [guarded_pass]
    · have h10 : ((1 : Byte) = 0) = False := by decide
      simp only [h10, if_false, restartWarden_done_time]
    · simp [hc, hp, hr]
  · simp only [exec, execFwActivate, command_accept ha, hi, hh]
    rw [guarded_fail]
    simp [hc, hp, hr]
  · simp only [exec, execFwConfirm, command_accept ha]
    rw [guarded_pass]
    simp [ht, hn]
  · simp only [exec, execFwConfirm, command_accept ha]
    rw [guarded_fail]
    rcases hn with hn | hn <;> simp [hn]
  · subst hes
    simp only [exec, execLogRead, command_accept ha]
    rw [guarded_pass]
    · refine ⟨match (s.flash.log ++ s.flash.stage).head? with | some e => decide (first.toNat < e.seq.toNat) | none => false,
        (((s.flash.log ++ s.flash.stage).filter fun e => decide (first.toNat ≤ e.seq.toNat)).take count.toNat).any
          fun e => s.flash.badChecks.contains e.seq.toNat, ?_, ?_, ?_⟩
      · generalize ((s.flash.log ++ s.flash.stage).filter fun e => decide (first.toNat ≤ e.seq.toNat)).take count.toNat = l
        cases l <;> rfl
      · cases (s.flash.log ++ s.flash.stage).head? <;> simp
      · simp only [List.any_eq_true, List.contains_iff_mem]
    · have hc : ¬ count = 0#8 := by
        rintro rfl
        simp at h1
      have h64 : ¬ 64 < count.toNat := by omega
      have hl : ¬ last.seq.toNat < first.toNat := by omega
      simp [hb, hc, h64, hlast, hl]

end Sys2Proof.Machine
end

section
/-! Sedge engines and the receive front end (R13 to R17, R121 to R144): settles O21 to O24. -/
namespace Sys2Proof.Machine

open Sys2Proof

/-! ### Engine halts and restarts -/

theorem freezeTrip_same (t : FreezeTrig) (s : State) :
    freezeTrip t s = { s with dbg := { s.dbg with trip := (freezeTrip t s).dbg.trip } } := by
  unfold freezeTrip
  split <;> rfl

/-- Settles O21: the tasks' work by cases of the task, the halt and the restart by the halted engines. -/
theorem engineHalts : Obligations.EngineHalts := by
  unfold Obligations.EngineHalts
  refine ⟨fun w s => ⟨by cases w <;> rfl, by cases w <;> rfl, by cases w <;> rfl, fun _ => rfl, fun _ => rfl, by cases w <;> rfl,
    by cases w <;> rfl, by cases w <;> rfl⟩, fun e c s hp hf hh => ?_, fun e seed s hh => ?_, fun b x => rfl⟩
  · have hm : domIn s.pwr.powered .mgmt = true := hp
    have hn : (s.sedge.halted.any fun x => decide (x.1 = e.toNat)) = false := by simpa using hh
    have hx : exec (.engineHalt e c) s = .next (logEntry 12 (BitVec.ofNat 16 (0x0100 + e.toNat)) none
      ([BitVec.ofNat 8 e.toNat, BitVec.ofNat 8 (haltCode c)]) (freezeTrip .engineHalt { s with sedge := { s.sedge with
        halted := s.sedge.halted ++ [(e.toNat, s.time.lts.sf)],
        tasks := s.sedge.tasks.map (fun x =>
          if taskServed e.toNat x.task then { x with halted := true, running := false } else x) } })) := by
      simp only [exec, execEngineHalt, hm, hf, hn, Bool.not_false, Bool.and_self, if_true, nowSf]
    refine ⟨hx, _, hx, ?_⟩
    rw [logEntry_same, freezeTrip_same]
  · have ha : (s.sedge.halted.any fun x => decide (x.1 = e.toNat)) = true := by simpa using hh
    refine ⟨_, by simp only [exec, execEngineRestart, ha, if_true]; rfl, rfl, List.mem_cons_self, fun hall => ?_, rfl⟩
    have hnil : (s.sedge.halted.filter fun x => decide (x.1 ≠ e.toNat)) = [] := by
      rw [List.filter_eq_nil_iff]
      intro x hx
      have := List.all_eq_true.mp hall x hx
      simpa using this
    simp only [hnil, List.any_nil, Bool.not_false, Bool.and_true]

/-! ### Loss of signal, over-range and gain steps -/

theorem chBit_eq (ch : BitVec 2) : chBit ch = 1 <<< ch.toNat := rfl

theorem sat32_eq (n : Nat) : sat32 n = min 0xFFFFFFFF n := by
  unfold sat32
  split <;> omega

/-- A notification changes the window, the rings, the queues and the log only. -/
theorem notifyAt_same (e c : Half) (b : Option Bool) (d : List Byte) (t : Lts) (s : State) :
    notifyAt e c b d t s = { s with
      hif := (notifyAt e c b d t s).hif, aon := (notifyAt e c b d t s).aon, win := (notifyAt e c b d t s).win,
      q := (notifyAt e c b d t s).q, flash := (notifyAt e c b d t s).flash } := by
  have hf := notifyAt_frame e c b d t s
  generalize notifyAt e c b d t s = u at hf ⊢
  cases u
  simp only at hf
  simp only [hf]

/-- R139: an over-range event is counted at its channel and notified, and changes nothing else. -/
theorem overrangeEvent_same (ch : BitVec 2) (t : Lts) (n : Nat) (s : State) : ∃ x hif aon win q flash,
    overrangeEvent ch t n s = { s with fe := { s.fe with ovrNoted := x }, hif := hif, aon := aon, win := win, q := q, flash := flash } := by
  unfold overrangeEvent
  split
  · split
    · rw [notifyAt_same]
      exact ⟨_, _, _, _, _, _, rfl⟩
    · split
      · exact ⟨s.fe.ovrNoted, s.hif, s.aon, s.win, _, s.flash, rfl⟩
      · split
        · rw [notifyAt_same]
          exact ⟨_, _, _, _, _, _, rfl⟩
        · exact ⟨s.fe.ovrNoted, s.hif, s.aon, s.win, s.q, s.flash, rfl⟩
  · exact ⟨s.fe.ovrNoted, s.hif, s.aon, s.win, s.q, s.flash, rfl⟩

theorem capMark_same (bit : Nat) (s : State) : ∃ x, capMark bit s = { s with hs := { s.hs with capFlags := x } } := by
  unfold capMark
  split
  · exact ⟨_, rfl⟩
  · exact ⟨s.hs.capFlags, rfl⟩

theorem capBurst_same (ch : BitVec 2) (t : Lts) (n : Nat) (s : State) :
    ∃ x, capBurst ch t n s = { s with hs := { s.hs with capOver := x } } := by
  unfold capBurst
  split
  · exact ⟨_, rfl⟩
  · exact ⟨s.hs.capOver, rfl⟩

theorem losRaw_low {thr power : Int} (h : power < 10 * thr) (was : Bool) : losRaw was thr power = true := by
  simp only [losRaw, if_pos (show power < thr * 10 by omega)]

theorem losRaw_high {thr power : Int} (h : 10 * thr + 100 < power) (was : Bool) : losRaw was thr power = false := by
  simp only [losRaw, if_neg (show ¬ power < thr * 10 by omega), if_pos (show thr * 10 + 100 < power by omega)]

theorem losRaw_between {thr power : Int} (h1 : 10 * thr ≤ power) (h2 : power ≤ 10 * thr + 100) (was : Bool) :
    losRaw was thr power = was := by
  simp only [losRaw, if_neg (show ¬ power < thr * 10 by omega), if_neg (show ¬ thr * 10 + 100 < power by omega)]

theorem rawLevel_raw (b : Bool) (t : Lts) (i : Integ) : (rawLevel b t i).raw = b := by
  unfold rawLevel
  split
  · assumption
  · rfl

theorem stepDue_iff (step : Int) (from_ : Sf) (last : Option Sf) (sf : Sf) :
    stepDue step from_ last sf = true ↔ step ≠ 0 ∧ from_.toNat ≤ sf.toNat ∧ last ≠ some sf := by
  simp [stepDue, and_assoc]

/-- R139: the over-range part of an ADC_OVERRANGE, before its marks. -/
def overranged (ch : BitVec 2) (n : Nat) (t : Lts) (s : State) : Fe :=
  let sfc := if t.sf = s.fe.ovrAt then s.fe.ovrSf else Four.all 0
  overrangeStep s.line.rxChain ch t.sf (sfc.get ch + n) { s.fe with
    sticky := s.fe.sticky ||| chBit ch, ovr := s.fe.ovr.set ch (sat32 (s.fe.ovr.get ch + n)),
    ovrSf := sfc.set ch (sfc.get ch + n), ovrAt := t.sf }

theorem overrangeStep_same (chain : Bool) (ch : BitVec 2) (sf : Sf) (n : Nat) (f : Fe) : ∃ a b c d,
    overrangeStep chain ch sf n f = { f with stepX := a, stepFromX := b, stepY := c, stepFromY := d } := by
  unfold overrangeStep
  split
  · split
    · exact ⟨-2, sf + 1, f.stepY, f.stepFromY, rfl⟩
    · exact ⟨f.stepX, f.stepFromX, -2, sf + 1, rfl⟩
  · exact ⟨f.stepX, f.stepFromX, f.stepY, f.stepFromY, rfl⟩

/-- R139: of the front end an over-range writes its flags, its counts and the step. -/
theorem overranged_same (ch : BitVec 2) (n : Nat) (t : Lts) (s : State) : ∃ a b c d sf, overranged ch n t s = { s.fe with
    sticky := s.fe.sticky ||| chBit ch, ovr := s.fe.ovr.set ch (sat32 (s.fe.ovr.get ch + n)), ovrSf := sf, ovrAt := t.sf,
    stepX := a, stepFromX := b, stepY := c, stepFromY := d } := by
  unfold overranged
  obtain ⟨a, b, c, d, h⟩ := overrangeStep_same s.line.rxChain ch t.sf
    ((if t.sf = s.fe.ovrAt then s.fe.ovrSf else Four.all 0).get ch + n) { s.fe with
      sticky := s.fe.sticky ||| chBit ch, ovr := s.fe.ovr.set ch (sat32 (s.fe.ovr.get ch + n)),
      ovrSf := (if t.sf = s.fe.ovrAt then s.fe.ovrSf else Four.all 0).set ch
        ((if t.sf = s.fe.ovrAt then s.fe.ovrSf else Four.all 0).get ch + n), ovrAt := t.sf }
  exact ⟨a, b, c, d, _, h⟩

theorem overranged_marked (ch : BitVec 2) (n : Nat) (t : Lts) (s : State) : (overranged ch n t s).marked = s.fe.marked := by
  obtain ⟨_, _, _, _, _, h⟩ := overranged_same ch n t s
  rw [h]

/-- R139: an ADC_OVERRANGE counts, marks and notifies. -/
theorem exec_adcOverrange {ch : BitVec 2} {n : Nat} {s : State} (ht : ticking s = true) (hn : 0 < n) (high : Bool) (rx : RxAt) :
    ∃ t, exec (.adcOverrange ch high n rx) s = .next t ∧
      (∃ x y, t.fe = { overranged ch n (rxStamp rx s) s with ovrNoted := x, marked := y }) ∧
      t.hs.acc.disturbed = s.hs.acc.disturbed + (burstSymbols (rateNow s) n -
        spanWithin (rxStamp rx s).toNat ((rxStamp rx s).toNat + burstSymbols (rateNow s) n) s.fe.marked) ∧
      t = { s with fe := t.fe, eq := t.eq, hs := t.hs, win := t.win, hif := t.hif, q := t.q, flash := t.flash, aon := t.aon } := by
  have hc : (s.time.running && !s.dbg.frozen && decide (0 < n)) = true := by
    simp only [ticking] at ht
    simp [ht, hn]
  have hx : exec (.adcOverrange ch high n rx) s = .next (capBurst ch (rxStamp rx s) n (capMark 1 (overrangeEvent ch (rxStamp rx s)
      ((if (rxStamp rx s).sf = s.fe.ovrAt then s.fe.ovrSf else Four.all 0).get ch + n)
      (disturb (rxStamp rx s) (burstSymbols (rateNow s) n) { s with fe := overranged ch n (rxStamp rx s) s })))) := by
    simp only [exec, execAdcOverrange, hc, if_true, overranged]
  obtain ⟨x, hif, aon, win, q, flash, ho⟩ := overrangeEvent_same ch (rxStamp rx s)
      ((if (rxStamp rx s).sf = s.fe.ovrAt then s.fe.ovrSf else Four.all 0).get ch + n)
      (disturb (rxStamp rx s) (burstSymbols (rateNow s) n) { s with fe := overranged ch n (rxStamp rx s) s })
  rw [ho] at hx
  obtain ⟨fl, hm⟩ := capMark_same 1 { disturb (rxStamp rx s) (burstSymbols (rateNow s) n) { s with fe := overranged ch n (rxStamp rx s) s } with
    fe := { (disturb (rxStamp rx s) (burstSymbols (rateNow s) n) { s with fe := overranged ch n (rxStamp rx s) s }).fe with ovrNoted := x },
    hif := hif, aon := aon, win := win, q := q, flash := flash }
  rw [hm] at hx
  obtain ⟨ov, hb⟩ := capBurst_same ch (rxStamp rx s) n _
  rw [hb] at hx
  refine ⟨_, hx, ⟨x, _, rfl⟩, ?_, rfl⟩
  simp only [disturb, exclude, overranged_marked]

/-- Settles O22: each event's own lemma, for the gain steps in both polarisations at once. -/
theorem frontEndEvents : Obligations.FrontEndEvents := by
  unfold Obligations.FrontEndEvents
  refine ⟨fun power s ht => ?_, fun ch high n rx s ht hn => ?_, fun rx x y sf s hsf hx hy => ⟨fun hc hf hr hxy => ?_, fun h => ?_⟩,
    fun conv ch slice c s hc => ⟨fun hn => ?_, fun x hx => ⟨fun h => ?_, fun hst hsp hcv => ?_, fun hst hsp hcv => ?_⟩⟩⟩
  · have hc : (s.time.running && !s.dbg.frozen) = true := ht
    refine ⟨_, by simp only [exec, execLosCompare, hc, if_true]; rfl, rfl, fun h => losRaw_low h _, fun h => losRaw_high h _,
      fun h1 h2 => losRaw_between h1 h2 _, rawLevel_raw _ _ _, rfl⟩
  · obtain ⟨t, hx, ⟨x, y, hfe⟩, hd, hsame⟩ := exec_adcOverrange ht hn high rx
    refine ⟨t, hx, ?_, ?_, fun h1 h2 h3 h4 h5 => ?_, fun h1 h2 h3 h4 h5 => ?_, fun h => ?_, hd, hsame⟩
    · obtain ⟨_, _, _, _, _, ho⟩ := overranged_same ch n (rxStamp rx s) s
      rw [hfe, ho]
      rfl
    · obtain ⟨_, _, _, _, _, ho⟩ := overranged_same ch n (rxStamp rx s) s
      rw [hfe, ho, ← sat32_eq]
    · have hch : ch.toNat < 2 := h5
      simp [hfe, overranged, overrangeStep, h1, h2, h3, h4, hch, Four.get_all]
    · have hch : ¬ ch.toNat < 2 := by omega
      simp [hfe, overranged, overrangeStep, h1, h2, h3, h4, hch, Four.get_all]
    · rcases h with h | h | ⟨h1, h2⟩
      · simp [hfe, overranged, overrangeStep, h]
      · simp [hfe, overranged, overrangeStep, h]
      · simp [hfe, overranged, overrangeStep, h1, Nat.not_lt.mpr h2, Four.get_all]
  · have hx' : stepDue s.fe.stepX s.fe.stepFromX s.fe.stepSfX (rxStamp rx s).sf = x :=
      Bool.eq_iff_iff.mpr (by rw [stepDue_iff, hx, hsf])
    have hy' : stepDue s.fe.stepY s.fe.stepFromY s.fe.stepSfY (rxStamp rx s).sf = y :=
      Bool.eq_iff_iff.mpr (by rw [stepDue_iff, hy, hsf])
    have hg : (s.line.rxChain && !s.dbg.frozen && (s.eq.rawLosf || decide (rx.s = 32768)) && (x || y)) = true := by
      rcases hr with hr | hr <;> rcases hxy with hxy | hxy <;> simp [hc, hf, hr, hxy]
    simp only [exec, execGainStepApply, hx', hy', hg, if_true, hsf]
    cases x <;> cases y <;> simp [stepX, stepY, gainBy, BitVec.add_assoc]
  · have hx' : stepDue s.fe.stepX s.fe.stepFromX s.fe.stepSfX (rxStamp rx s).sf = x :=
      Bool.eq_iff_iff.mpr (by rw [stepDue_iff, hx, hsf])
    have hy' : stepDue s.fe.stepY s.fe.stepFromY s.fe.stepSfY (rxStamp rx s).sf = y :=
      Bool.eq_iff_iff.mpr (by rw [stepDue_iff, hy, hsf])
    have hg : (s.line.rxChain && !s.dbg.frozen && (s.eq.rawLosf || decide (rx.s = 32768)) && (x || y)) = false := by
      rcases h with h | h | ⟨h, h'⟩ | ⟨h, h'⟩ <;> simp [h, *] <;> simp_all
    simp only [exec, execGainStepApply, hx', hy', hg, Bool.false_eq_true, if_false]
  · subst hc
    simp only [exec, execSliceFailure, hn]
  · subst hc
    have hg : ¬ (x.st = .active ∧ sparesOf (chanOf conv ch s) = 0) := by
      rintro ⟨h1, h2⟩
      rcases h with h | h
      · exact h h1
      · omega
    simp only [exec, execSliceFailure, hx, hg, if_false]
  · subst hc hcv
    simp only [exec, execSliceFailure, hx, hst, hsp, and_self, if_true]
  · subst hc hcv
    simp only [exec, execSliceFailure, hx, hst, hsp, and_self, if_true]

/-! ### The front end's commands -/

/-- Where all checks answer one status, any that fails gives it. -/
theorem firstFail_of_any {l : List (Bool × St)} {st : St} (hs : ∀ x ∈ l, x.2 = st) (h : l.any (fun x => x.1) = true) :
    firstFail l = some st := by
  induction l with
  | nil => simp at h
  | cons x t ih =>
    obtain ⟨b, c⟩ := x
    have hc : c = st := hs (b, c) (by simp)
    cases b
    · simpa using ih (fun y hy => hs y (by simp [hy])) (by simpa using h)
    · simp [hc]

theorem reservedClear_one_iff (flags : Byte) : reservedClear flags 1 = true ↔ flags &&& 0xFE = 0 := reservedClear_iff flags 1

theorem reservedClear_one {flags : Byte} (h : flags &&& 0xFE = 0) : reservedClear flags 1 = true := (reservedClear_iff flags 1).mpr h

theorem not_reservedClear_one {flags : Byte} (h : flags &&& 0xFE ≠ 0) : reservedClear flags 1 = false :=
  Bool.eq_false_iff.mpr fun hc => h ((reservedClear_iff flags 1).mp hc)

/-- Settles O23, by the checks of the three cards. -/
theorem frontEndCommands : Obligations.FrontEndCommands := by
  unfold Obligations.FrontEndCommands
  refine ⟨fun h mode xGain yGain rms ovrStep losThr flags s ha => ⟨fun h1 h2 h3 h4 h5 h6 h7 h8 h9 => ?_, fun hbad => ?_⟩,
    fun h flags s ha hf => ?_, fun h flags s ha hf => ?_, fun h ch s ha hbad => ?_, fun h ch s ha hc hb => ?_⟩
  · simp only [exec, execFeConfig, command_accept ha]
    rw [guarded_pass]
    · by_cases hm : mode = 2
      · simp only [hm, if_true, bitOf]
      · by_cases hm1 : mode = 1
        · simp only [hm, hm1, if_true, if_false, bitOf]
          rfl
        · simp only [hm, hm1, if_false, bitOf]
    · simp only [firstFail_cons, firstFail_nil, decide_eq_false (Nat.not_lt.mpr h1), decide_eq_false (Nat.not_lt.mpr h2),
        decide_eq_false (Nat.not_lt.mpr h3), decide_eq_false (Nat.not_lt.mpr h4), decide_eq_false (Nat.not_lt.mpr h5),
        decide_eq_false h6, decide_eq_false (Int.not_lt.mpr h7), decide_eq_false (Int.not_lt.mpr h8), reservedClear_one h9,
        Bool.not_true, Bool.or_self, Bool.false_eq_true, if_false]
  · simp only [exec, execFeConfig, command_accept ha]
    refine congrArg _ (guarded_fail (firstFail_of_any (by simp) ?_) ..)
    simp only [List.any_cons, List.any_nil, Bool.or_false, Bool.or_eq_true, decide_eq_true_eq, Bool.not_eq_true', or_assoc,
      ← Bool.not_eq_true, reservedClear_one_iff]
    exact hbad
  · have hg : ∀ body, guarded 0x0441 h [(!reservedClear flags 1, .badArg)] body s = body s := fun body => guarded_pass (by
      simp only [firstFail_cons, firstFail_nil, reservedClear_one hf, Bool.not_true, Bool.false_eq_true, if_false]) ..
    refine ⟨_, by simp only [exec, execFeStatus, command_accept ha, hg]; rfl, ?_⟩
    simp
  · simp only [exec, execFeStatus, command_accept ha]
    rw [guarded_fail]
    simp only [firstFail_cons, not_reservedClear_one hf, Bool.not_false, if_true]
  · simp only [exec, execFeSlices, command_accept ha]
    rw [guarded_fail]
    rcases hbad with hc | hb
    · simp [hc]
    · simp [hb]
  · have h3 : ¬ 3 < ch.toNat := by omega
    simp only [exec, execFeSlices, command_accept ha]
    rw [guarded_pass]
    simp [h3, hb]

/-! ### Notifications and log entries move no response -/

@[simp] theorem setCause_rqTail (c : BitVec 6) (s : State) : (setCause c s).hif.rqTail = s.hif.rqTail := raiseNew_rqTail _ _

@[simp] theorem nqPut_rqTail (bs : List Byte) (s : State) : (nqPut bs s).hif.rqTail = s.hif.rqTail := raiseNew_rqTail _ _

@[simp] theorem deliver_rqTail (n : Note) (l u : Bool) (s : State) : (deliver n l u s).hif.rqTail = s.hif.rqTail := by
  unfold deliver
  dsimp only
  split
  · simp
  · split <;> simp

@[simp] theorem notifyAt_rqTail (e c : Half) (b : Option Bool) (d : List Byte) (t : Lts) (s : State) :
    (notifyAt e c b d t s).hif.rqTail = s.hif.rqTail := by
  unfold notifyAt
  dsimp only
  split
  · rfl
  · split
    · simp
    · split <;> simp

/-! ### Stops and starts of the receive chain -/

@[simp] theorem fecEvent_kept (st cause : Nat) (s : State) : (fecEvent st cause s).line = s.line ∧
    (fecEvent st cause s).fe = s.fe ∧ (fecEvent st cause s).tx = s.tx ∧ (fecEvent st cause s).hif.rqTail = s.hif.rqTail := by
  unfold fecEvent
  split <;> simp

/-- A loss of the decoder's alignment leaves the line, the front end and the transmitter. -/
@[simp] theorem fecDrop_kept (st cause : Nat) (s : State) : (fecDrop st cause s).line = s.line ∧
    (fecDrop st cause s).fe = s.fe ∧ (fecDrop st cause s).tx = s.tx ∧ (fecDrop st cause s).hif.rqTail = s.hif.rqTail := by
  unfold fecDrop framerClose refreshRawsAt
  dsimp only
  split <;> simp

@[simp] theorem eqEvent_kept (old new reason : Nat) (warm : Bool) (s : State) : (eqEvent old new reason warm s).line = s.line ∧
    (eqEvent old new reason warm s).fe = s.fe ∧ (eqEvent old new reason warm s).tx = s.tx ∧
    (eqEvent old new reason warm s).hif.rqTail = s.hif.rqTail := by
  unfold eqEvent
  split <;> simp

@[simp] theorem freezeTrip_kept (t : FreezeTrig) (s : State) : (freezeTrip t s).line = s.line ∧
    (freezeTrip t s).fe = s.fe ∧ (freezeTrip t s).tx = s.tx ∧ (freezeTrip t s).hif.rqTail = s.hif.rqTail := by
  unfold freezeTrip
  split <;> simp

/-- A move of the equaliser leaves the line, the front end and the transmitter. -/
@[simp] theorem eqMove_kept (new reason : Nat) (warm : Bool) (s : State) : (eqMove new reason warm s).line = s.line ∧
    (eqMove new reason warm s).fe = s.fe ∧ (eqMove new reason warm s).tx = s.tx ∧
    (eqMove new reason warm s).hif.rqTail = s.hif.rqTail := by
  unfold eqMove refreshRaws refreshRawsAt
  dsimp only
  repeat' split
  all_goals simp

@[simp] theorem eqToA0_kept (reason : Nat) (s : State) : (eqToA0 reason s).line = s.line ∧
    (eqToA0 reason s).fe = s.fe ∧ (eqToA0 reason s).tx = s.tx ∧ (eqToA0 reason s).hif.rqTail = s.hif.rqTail := by
  unfold eqToA0 refreshRaws refreshRawsAt
  split <;> simp

/-- R126: stopping the receive chain drops the pending gain steps. -/
theorem stopRx_kept {s : State} (hc : s.line.rxChain = true) (cause : Nat) :
    (stopRx cause s).line = { s.line with rxChain := false } ∧ (stopRx cause s).fe = { s.fe with stepX := 0, stepY := 0 } ∧
      (stopRx cause s).tx = s.tx ∧ (stopRx cause s).hif.rqTail = s.hif.rqTail := by
  simp [stopRx, hc, replaceAll]

@[simp] theorem coefEvent_kept (set : Nat) (was now : Bool) (stages : Nat) (s : State) :
    (coefEvent set was now stages s).line = s.line ∧ (coefEvent set was now stages s).fe = s.fe ∧
    (coefEvent set was now stages s).tx = s.tx := by
  unfold coefEvent
  split <;> simp

/-- R126: starting the receive chain takes the stored coefficient sets into use. -/
theorem startRx_kept (rate cause : Nat) (s : State) :
    (startRx rate cause s).line = { s.line with rxChain := true } ∧ (startRx rate cause s).tx = s.tx ∧
      (startRx rate cause s).fe.resHost = s.fe.resampler.isSome ∧ (startRx rate cause s).fe.hbHost = s.fe.halfband.isSome ∧
      (startRx rate cause s).fe.restart = s.fe.restart := by
  simp [startRx, refreshRaws, refreshRawsAt, exclude]

/-! ### Coefficient sets -/

/-- R126: at the boundary after the stop the receive chain starts again, and its command is answered. -/
theorem exec_modeChangeLoad_rx {r : Restart} {s s0 : State} (ht : ticking s = true) (hch : s.line.change = none)
    (hcur : s.line.cur.isSome = true) (hrx : s.line.rxChain = false) (hr : s.fe.restart = some r) (htx : s.tx.restart = none)
    (hdue : r.c.toNat + 1 ≤ s.time.lts.sf.toNat) (hs0 : s0 = { s with fe := { s.fe with restart := none } }) :
    exec .modeChangeLoad s =
      .next (answerLate r.late (reply 0x0443 r.hdr [fld 16 1 (stagesNow s0)]) (startRx (rateNow s0) 3 s0)) := by
  have hown : ownStop s = false := by simp only [ownStop, hch]
  have htx' : (answerLate r.late (reply 0x0443 r.hdr [fld 16 1 (stagesNow s0)]) (startRx (rateNow s0) 3 s0)).tx.restart = none := by
    obtain ⟨-, h, -⟩ := startRx_kept (rateNow s0) 3 s0
    have h0 : s0.tx.restart = none := by rw [hs0, htx]
    simp [answerLate, h, h0]
  simp only [exec, execModeChangeLoad, ht, if_true, hch, finishRestarts, hr, decide_eq_true hdue, hcur, hrx, hown, Bool.not_false,
    Bool.and_self, ← hs0, htx']

/-- R126: a coefficient set that its card takes is stored; action 1 stops the chain where no change of mode does. -/
theorem exec_feCoefSet_pass {h : Hdr} {set action : Byte} {check : Word} {s : State} (ha : admitted 0x0443 s = .accept)
    (hset : set.toNat ≤ 1) (hact : action = 0 ∨ action = 1) (hb : h.buf = true)
    (hl : (bufData h s).length = (if set = 0 then 3072 else 24)) (hbusy : busyChanging s = false)
    (hcur : action = 1 → s.line.cur.isSome = true) (hc : check0 (bufData h s) = check.toNat)
    (hsum : coefSums set (i16s (bufData h s)) = true) {s1 : State} (hs1 : s1 = storeCoef set (some (i16s (bufData h s))) s) :
    exec (.feCoefSet h set action check) s = .next (
      if action = 0 then reply 0x0443 h [fld 16 1 0xFF] s1
      else if changeHere s1 then reply 0x0443 h [fld 16 1 (newStages s1)] s1
      else { stopRx 3 s1 with
        fe := { (stopRx 3 s1).fe with restart := some ⟨boundaryNow s1, h, s1.q.acting = some true⟩ } }) := by
  have h1 : ¬ 1 < set.toNat := by omega
  have h2 : action ≠ 2 := by rcases hact with rfl | rfl <;> decide
  have h3 : ¬ 2 < action.toNat := by rcases hact with rfl | rfl <;> decide
  have hnone : (decide (action = 1) && s.line.cur.isNone && !changeHere s) = false := by
    by_cases hx : action = 1
    · simp [Option.isNone_eq_false_iff.mpr (hcur hx)]
    · simp only [hx, decide_false, Bool.false_and]
  simp only [exec, execFeCoefSet, command_accept ha]
  rw [guarded_pass]
  · simp only [h2, if_false, hs1]
  · simp only [firstFail_cons, firstFail_nil, h1, h2, h3, hb, hl, hbusy, hnone, hc, hsum, ne_eq, not_true_eq_false, not_false_eq_true,
      decide_false, decide_true, Bool.not_true, Bool.or_self, Bool.and_false, Bool.false_and, Bool.false_eq_true, if_false]

/-- Settles O24: the checks of the card, and the stop and the start of the chain. -/
theorem coefficientSets : Obligations.CoefficientSets := by
  unfold Obligations.CoefficientSets
  refine ⟨fun h set check s ha hset hb hbusy => ?_, fun h set check s ha hset hb hl hbusy hc hsum => ⟨?_, fun hcur hrx hch => ?_⟩,
    fun h set check s ha hset hb hl hbusy hc => ?_, fun r s s0 ht hch hcur hrx hr htx hdue hs0 => ?_⟩
  · have h1 : ¬ 1 < set.toNat := by omega
    simp only [exec, execFeCoefSet, command_accept ha]
    rw [guarded_pass]
    · rfl
    · simp [h1, hb, hbusy]
  · exact exec_feCoefSet_pass ha hset (.inl rfl) hb hl hbusy (fun h => absurd h (by decide)) hc hsum rfl
  · have hx := exec_feCoefSet_pass ha hset (.inr rfl) hb hl hbusy (fun _ => hcur) hc hsum rfl
    have hch' : changeHere (storeCoef set (some (i16s (bufData h s))) s) = false := by
      unfold storeCoef
      split <;> exact hch
    have hrx' : (storeCoef set (some (i16s (bufData h s))) s).line.rxChain = true := by
      unfold storeCoef
      split <;> exact hrx
    have h10 : ((1 : Byte) = 0) = False := by decide
    simp only [h10, hch', if_false, Bool.false_eq_true] at hx
    obtain ⟨hline, hfe, -, htail⟩ := stopRx_kept hrx' 3
    refine ⟨_, hx, by rw [hline], ?_, fun hz => ?_, fun hz => ?_, ?_⟩
    · unfold storeCoef
      split <;> rfl
    · simp only [hfe]
      simp only [storeCoef, hz, if_true, and_self]
    · simp only [hfe]
      simp only [storeCoef, hz, h10, if_false, and_self]
    · refine htail.trans ?_
      unfold storeCoef
      split <;> rfl
  · have h1 : ¬ 1 < set.toNat := by omega
    simp only [exec, execFeCoefSet, command_accept ha]
    rw [guarded_fail]
    simp [h1, hb, hl, hbusy, hc]
  · have hx := exec_modeChangeLoad_rx ht hch hcur hrx hr htx hdue hs0
    obtain ⟨h1, -, h2, h3, h4⟩ := startRx_kept (rateNow s0) 3 s0
    have hfe : s0.fe = { s.fe with restart := none } := by rw [hs0]
    refine ⟨hx, _, hx, ?_, ?_, ?_, ?_⟩ <;> simp [answerLate, h1, h2, h3, h4, hfe]

end Sys2Proof.Machine
end

section
/-! The equaliser (R145 to R185): settles O25 to O27. -/
namespace Sys2Proof.Machine

open Sys2Proof

/-! ### Moves of the equaliser -/

theorem eqMoves_iff (s : State) :
    eqMoves s = true ↔ ticking s = true ∧ s.time.lts.sym = 0 ∧ taskHeld .eqSupervision s = false := by
  simp [eqMoves, atBoundary, and_assoc]

/-- R164: the equaliser as a move leaves it. -/
def movedEq (new reason : Nat) (warm : Bool) (s : State) : Eq :=
  let e := eqRuns new s.eq
  let sf := (boundaryStamp s).sf
  let e1 := { e with
    st := new, since := sf, warm := warm && decide (new ≠ 8),
    reason := if reason = 0 then e.reason else reason,
    rawLosf := if new ≤ 1 then true else if new = 6 then false else e.rawLosf,
    taps := if new = 5 then e.tapsSet else e.taps,
    decErr := e.decErr && decide (new = 8) }
  if e.st = 8 ∧ new ≠ 8 then
    { e1 with trackOut := sf, warmOk := true, cdKept := true, failNoted := none, cdStored := e.cd, cfoStored := e.cfo,
              tapStored := e.tapVals }
  else if new = 8 ∧ e.st ≠ 8 then
    { e1 with trackIn := sf, entries := e.entries + 1, failed := 0 }
  else e1

@[simp] theorem fecEvent_eq (st cause : Nat) (s : State) : (fecEvent st cause s).eq = s.eq ∧ (fecEvent st cause s).fec = s.fec := by
  unfold fecEvent
  split <;> simp

@[simp] theorem fecDrop_eq (st cause : Nat) (s : State) : (fecDrop st cause s).eq = s.eq ∧ (fecDrop st cause s).fec.st = st := by
  unfold fecDrop framerClose refreshRawsAt
  dsimp only
  split <;> simp

@[simp] theorem eqEvent_eq (old new reason : Nat) (warm : Bool) (s : State) : (eqEvent old new reason warm s).eq = s.eq ∧
    (eqEvent old new reason warm s).fec = s.fec := by
  unfold eqEvent
  split <;> simp

@[simp] theorem freezeTrip_eq (t : FreezeTrig) (s : State) : (freezeTrip t s).eq = s.eq ∧ (freezeTrip t s).fec = s.fec := by
  unfold freezeTrip
  split <;> simp

/-- The run counts that a state restarts leave its other fields. -/
theorem eqRuns_same (new : Nat) (e : Eq) : ∃ locked fr sForm pr mx my lw sr lr lo, eqRuns new e = { e with
    locked := locked, foundRun := fr, sForm := sForm, pilotRun := pr, missX := mx, missY := my, lastWord := lw, snrRun := sr,
    limitRun := lr, lowRun := lo } := by
  unfold eqRuns
  split <;> exact ⟨_, _, _, _, _, _, _, _, _, _, rfl⟩

/-- R164: what a move does to the decoder. -/
def eqMoveFec (was new : Nat) (sf : Sf) (chain : Bool) (s : State) : State :=
  if was = 8 ∧ new ≠ 8 then fecDrop (if chain then 1 else 0) 2 (freezeTrip .trackExit s)
  else if was ≠ 8 ∧ new = 8 ∧ s.fec.st = 1 then { s with fec := { s.fec with searchFrom := sf, l := s.fec.lSet } }
  else s

theorem eqMove_steps (new reason : Nat) (warm : Bool) (s : State) : eqMove new reason warm s =
    refreshRaws (eqMoveFec (eqRuns new s.eq).st new (boundaryStamp s).sf s.line.rxChain
      (eqEvent (eqRuns new s.eq).st new reason warm { s with
        eq := movedEq new reason warm s,
        hs := if new = 8 then s.hs else { s.hs with lastGood := 0, acc := { s.hs.acc with track := false } } })) := by
  rfl

theorem eqRuns_st (new : Nat) (e : Eq) : (eqRuns new e).st = e.st := by
  obtain ⟨_, _, _, _, _, _, _, _, _, _, h⟩ := eqRuns_same new e
  rw [h]

@[simp] theorem refreshRaws_eq (s : State) : (refreshRaws s).eq = s.eq ∧ (refreshRaws s).fec = s.fec := ⟨rfl, rfl⟩

theorem eqMoveFec_eq (was new : Nat) (sf : Sf) (chain : Bool) (s : State) : (eqMoveFec was new sf chain s).eq = s.eq := by
  unfold eqMoveFec
  split
  · simp
  · split <;> rfl

theorem eqMove_eq (new reason : Nat) (warm : Bool) (s : State) : (eqMove new reason warm s).eq = movedEq new reason warm s := by
  rw [eqMove_steps]
  simp [eqMoveFec_eq]

/-- R164: on leaving TRACK the decoder loses its alignment. -/
theorem eqMove_fec_leave {new : Nat} {s : State} (h8 : s.eq.st = 8) (hn : new ≠ 8) (reason : Nat) (warm : Bool) :
    (eqMove new reason warm s).fec.st = if s.line.rxChain then 1 else 0 := by
  rw [eqMove_steps]
  simp [eqMoveFec, eqRuns_st, h8, hn]

/-- R164: on entering TRACK a decoder that searches starts its search. -/
theorem eqMove_fec_enter {s : State} (h8 : s.eq.st ≠ 8) (hf : s.fec.st = 1) (reason : Nat) (warm : Bool) :
    (eqMove 8 reason warm s).fec = { s.fec with searchFrom := (boundaryStamp s).sf, l := s.fec.lSet } := by
  rw [eqMove_steps]
  simp [eqMoveFec, eqRuns_st, h8, hf]

theorem eqMove_fec_other {new : Nat} {s : State} (h8 : s.eq.st ≠ 8) (hn : new ≠ 8 ∨ s.fec.st ≠ 1) (reason : Nat) (warm : Bool) :
    (eqMove new reason warm s).fec = s.fec := by
  rw [eqMove_steps]
  rcases hn with hn | hn <;> simp [eqMoveFec, eqRuns_st, h8, hn]

/-- R164: the state, its start and its reason after a move. -/
theorem movedEq_any (new reason : Nat) (warm : Bool) (s : State) : (movedEq new reason warm s).st = new ∧
    (movedEq new reason warm s).since = (boundaryStamp s).sf ∧ (reason ≠ 0 → (movedEq new reason warm s).reason = reason) ∧
    (movedEq new reason warm s).cands = s.eq.cands ∧ (movedEq new reason warm s).sweepWin = s.eq.sweepWin ∧
    (new ≠ 8 → (movedEq new reason warm s).failed = s.eq.failed) := by
  obtain ⟨_, _, _, _, _, _, _, _, _, _, h⟩ := eqRuns_same new s.eq
  unfold movedEq
  dsimp only
  rw [h]
  split
  · exact ⟨rfl, rfl, fun hr => if_neg hr, rfl, rfl, fun _ => rfl⟩
  · split
    · rename_i h8
      exact ⟨rfl, rfl, fun hr => if_neg hr, rfl, rfl, fun hn => absurd h8.1 hn⟩
    · exact ⟨rfl, rfl, fun hr => if_neg hr, rfl, rfl, fun _ => rfl⟩

/-- R171: leaving TRACK keeps what a warm entry uses. -/
theorem movedEq_leave {new : Nat} {s : State} (h8 : s.eq.st = 8) (hn : new ≠ 8) (reason : Nat) (warm : Bool) :
    (movedEq new reason warm s).trackOut = (boundaryStamp s).sf ∧ (movedEq new reason warm s).warmOk = true ∧
    (movedEq new reason warm s).cdStored = s.eq.cd ∧ (movedEq new reason warm s).cfoStored = s.eq.cfo ∧
    (movedEq new reason warm s).tapStored = s.eq.tapVals := by
  obtain ⟨_, _, _, _, _, _, _, _, _, _, h⟩ := eqRuns_same new s.eq
  unfold movedEq
  dsimp only
  rw [h]
  simp [h8, hn]

/-- R164: entering TRACK counts. -/
theorem movedEq_enter {s : State} (h8 : s.eq.st ≠ 8) (reason : Nat) (warm : Bool) :
    (movedEq 8 reason warm s).trackIn = (boundaryStamp s).sf ∧ (movedEq 8 reason warm s).failed = 0 ∧
    (movedEq 8 reason warm s).entries = s.eq.entries + 1 := by
  obtain ⟨_, _, _, _, _, _, _, _, _, _, h⟩ := eqRuns_same 8 s.eq
  unfold movedEq
  dsimp only
  rw [h]
  simp [h8]

/-- R168: the count and the notification of a failed pass, before the new pass starts. -/
def passCounted (st reason : Nat) (s : State) : State :=
  let due := match s.eq.failNoted with
    | none => true
    | some a => decide (16384 ≤ sfSince a s)
  let s1 := { s with eq := { s.eq with
      failed := s.eq.failed + 1, cands := [], sweepWin := none,
      failNoted := if due then some s.time.lts.sf else s.eq.failNoted } }
  if due then notify 0x0402 noInstance none (ev [fld 20 1 reason, fld 21 1 st, fld 24 4 (s.eq.failed + 1).toNat]) s1 else s1

theorem passCounted_eq (st reason : Nat) (s : State) : (passCounted st reason s).eq.failed = s.eq.failed + 1 ∧
    (passCounted st reason s).eq.cands = [] ∧ (passCounted st reason s).eq.sweepWin = none := by
  unfold passCounted
  dsimp only
  split <;> split <;> simp

/-- R168: a failed pass is counted and starts again at A1. -/
theorem passFails_eq {reason : Nat} (hr : reason ≠ 0) (st : Nat) (s : State) : (passFails st reason s).eq.st = 1 ∧
    (passFails st reason s).eq.failed = s.eq.failed + 1 ∧ (passFails st reason s).eq.cands = [] ∧
    (passFails st reason s).eq.sweepWin = none ∧ (passFails st reason s).eq.reason = reason := by
  obtain ⟨hf, hc, hw⟩ := passCounted_eq st reason s
  obtain ⟨h1, -, h3, h4, h5, h6⟩ := movedEq_any 1 reason false (passCounted st reason s)
  have hp : (passFails st reason s).eq = movedEq 1 reason false (passCounted st reason s) :=
    eqMove_eq 1 reason false (passCounted st reason s)
  rw [hp]
  exact ⟨h1, (h6 (by decide)).trans hf, h4.trans hc, h5.trans hw, h3 hr⟩

theorem acqReason_ne_zero {st : Nat} (h1 : 1 ≤ st) (h7 : st ≤ 7) : acqReason st ≠ 0 := by
  interval_cases st <;> decide

/-- Settles O25: the moves by `movedEq`, each acquisition event by its state. -/
theorem acquisition : Obligations.Acquisition := by
  unfold Obligations.Acquisition
  refine ⟨fun new reason warm s => ?_, fun s h0 hr hm => ⟨fun hw hin => ?_, fun hw => ?_⟩, fun c cands found cfo s hm h1 hk => ?_,
    fun rate win found => ?_, fun cands cfo s hm => ?_, fun s hm h1 h7 ht => ⟨fun c rest hn1 hw hc => ?_, fun hf => ?_⟩,
    eqMoves_iff, by decide⟩
  · obtain ⟨hst, hsince, hreason, -⟩ := movedEq_any new reason warm s
    rw [eqMove_eq]
    refine ⟨hst, hsince, hreason, fun h8 hn => ?_, fun h8 hn => ?_, fun h8 hn => eqMove_fec_other h8 hn reason warm⟩
    · obtain ⟨a, b, c, d, e⟩ := movedEq_leave h8 hn reason warm
      refine ⟨a, b, c, d, e, ?_⟩
      rw [eqMove_fec_leave h8 hn]
      split <;> decide
    · subst hn
      obtain ⟨a, b, c⟩ := movedEq_enter h8 reason warm
      exact ⟨a, b, c, fun hf => eqMove_fec_enter h8 hf reason warm⟩
  · simp only [exec, execAcqEntry, h0, hr, hm, and_self, if_true, hw, hin, Bool.and_self, warmSet]
  · have hc : (s.eq.warmOk && withinWarm s) = false := by
      rcases hw with hw | hw <;> simp [hw]
    simp only [exec, execAcqEntry, h0, hr, hm, and_self, if_true, hc, Bool.false_eq_true, if_false]
  · have hg : (eqMoves s && canComplete s.eq && stateMet s.eq) = true := by simp [hm, canComplete, stateMet, h1]
    simp only [exec, execAcqStateComplete, hg, if_true, h1, hk]
  · refine ⟨List.length_take_le _ _, fun c hc => ?_⟩
    have hc := List.mem_of_mem_take hc
    cases win with
    | none => exact (List.mem_filter.mp hc).1
    | some w =>
      dsimp only at hc
      split at hc
      · exact (List.mem_filter.mp hc).1
      · exact (List.mem_filter.mp hc).1
  · refine ⟨fun h hh hl => ?_, fun h hc => ?_, fun h hf => ?_, fun h hh hf hs => ?_, fun h hh hp => ?_, fun h hs => ?_, fun h => ?_⟩
    · have hg : (eqMoves s && canComplete s.eq && stateMet s.eq) = true := by simp [hm, canComplete, stateMet, h, hh, hl]
      simp only [exec, execAcqStateComplete, hg, if_true, h]
    · have hg : (eqMoves s && canComplete s.eq && stateMet s.eq) = true := by simp [hm, canComplete, stateMet, h]
      simp only [exec, execAcqStateComplete, hg, if_true, h, hc]
    · have hg : (eqMoves s && canComplete s.eq && stateMet s.eq) = true := by simp [hm, canComplete, stateMet, h, hf]
      simp only [exec, execAcqStateComplete, hg, if_true, h]
    · have hg : (eqMoves s && canComplete s.eq && stateMet s.eq) = true := by simp [hm, canComplete, stateMet, h, hh, hf, hs]
      simp only [exec, execAcqStateComplete, hg, if_true, h]
    · have hg : (eqMoves s && canComplete s.eq && stateMet s.eq) = true := by simp [hm, canComplete, stateMet, h, hh, hp]
      simp only [exec, execAcqStateComplete, hg, if_true, h]
    · have hg : (eqMoves s && canComplete s.eq && stateMet s.eq) = true := by simp [hm, canComplete, stateMet, h, hs]
      simp only [exec, execAcqStateComplete, hg, if_true, h]
    · by_cases h3 : s.eq.st = 3
      · have hbig : ¬ cfo.natAbs ≤ 3600000 := by omega
        simp only [exec, execAcqStateComplete, h3, hbig, if_false, ite_self]
      · have hg : (eqMoves s && canComplete s.eq && stateMet s.eq) = false := by
          rcases h with ⟨hh, h | h | h⟩ | ⟨h, h'⟩ | ⟨h, h'⟩ | ⟨h, h'⟩ | ⟨h, h' | h'⟩ | ⟨h, h'⟩ | ⟨h, h'⟩
          · simp [canComplete, hh, h]
          · simp [canComplete, hh, h]
          · simp [canComplete, hh, h]
          · simp [stateMet, h, h']
          · exact absurd h h3
          · simp [stateMet, h, Nat.not_le.mpr h']
          · simp [stateMet, h, Nat.not_le.mpr h']
          · simp [stateMet, h, h']
          · simp [stateMet, h, Nat.not_le.mpr h']
          · simp [stateMet, h, Nat.not_le.mpr h']
        simp only [exec, execAcqStateComplete, hg, Bool.false_eq_true, if_false]
  · have hg : (eqMoves s && decide (1 ≤ s.eq.st) && decide (s.eq.st ≤ 7) && decide (acqTimeout s.eq.st ≤ sfSince s.eq.since s)) = true := by
      simp [hm, h1, h7, ht]
    simp only [exec, execAcqStateTimeout, hg, if_true, hn1, hw, Bool.false_eq_true, or_self, if_false, hc]
  · have hg : (eqMoves s && decide (1 ≤ s.eq.st) && decide (s.eq.st ≤ 7) && decide (acqTimeout s.eq.st ≤ sfSince s.eq.since s)) = true := by
      simp [hm, h1, h7, ht]
    have hx : exec .acqStateTimeout s = .next (passFails s.eq.st (acqReason s.eq.st) s) := by
      simp only [exec, execAcqStateTimeout, hg, if_true]
      split
      · rfl
      · rename_i hn
        rcases hf with hf | hf | hf
        · exact absurd (.inl hf) hn
        · exact absurd (.inr hf) hn
        · rw [hf]
    exact ⟨_, hx, passFails_eq (acqReason_ne_zero h1 h7) s.eq.st s⟩

/-! ### Exits from TRACK and cycle slips -/

/-- R169: where a TRACK exit leads. -/
theorem exec_trackExit {s : State} (hm : eqMoves s = true) (h8 : s.eq.st = 8) : exec .trackExit s = .next (
    (trackExitTo (trackConds s)).elim s fun r => eqMove r.1 r.2.1 true { s with eq := { s.eq with cands := [] } }) := by
  have hg : s.eq.st = 8 ∧ eqMoves s = true := ⟨h8, hm⟩
  simp only [exec, execTrackExit, if_pos hg]
  cases trackExitTo (trackConds s) <;> rfl

/-- R169: the conditions in force, by the rows. -/
theorem trackConds_of {timing cfo frame snr slips : Bool} {s : State} (h1 : trackHolds s .timingRange = timing)
    (h2 : trackHolds s .cfoRange = cfo) (h3 : trackHolds s .frameLost = frame) (h4 : trackHolds s .lowSnr = snr)
    (h5 : trackHolds s .slipRate = slips) :
    trackExitTo (trackConds s) =
      if timing then some (2, 4, 1) else if cfo then some (3, 5, 2) else if frame then some (4, 0x0A, 0)
      else if snr then some (4, 9, 3) else if slips then some (4, 0x0B, 4) else none := by
  simp only [trackConds, List.filter_cons, List.filter_nil, h1, h2, h3, h4, h5]
  clear h1 h2 h3 h4 h5
  revert timing cfo frame snr slips
  decide

/-- R172: of the equaliser the notification of a slip writes the superframe noted. -/
theorem slipEvent_same {mark : State → State}
    (hmark : ∀ s : State, ∃ x y, mark s = { s with eq := { s.eq with slipNotedX := x, slipNotedY := y } })
    (src : Half) (noted : Option Sf) (n : Nat) (t : Lts) (s : State) : ∃ x y hif aon win q flash,
      slipEvent src noted n t mark s = { s with
        eq := { s.eq with slipNotedX := x, slipNotedY := y }, hif := hif, aon := aon, win := win, q := q, flash := flash } := by
  obtain ⟨x, y, hm⟩ := hmark s
  unfold slipEvent
  split
  · split
    · rw [notifyAt_same, hm]
      exact ⟨x, y, _, _, _, _, _, rfl⟩
    · split
      · exact ⟨s.eq.slipNotedX, s.eq.slipNotedY, s.hif, s.aon, s.win, _, s.flash, rfl⟩
      · split
        · rw [notifyAt_same, hm]
          exact ⟨x, y, _, _, _, _, _, rfl⟩
        · exact ⟨s.eq.slipNotedX, s.eq.slipNotedY, s.hif, s.aon, s.win, s.q, s.flash, rfl⟩
  · exact ⟨s.eq.slipNotedX, s.eq.slipNotedY, s.hif, s.aon, s.win, s.q, s.flash, rfl⟩

/-- R155: a value within a quarter turn of the last phase is in its quadrant. -/
theorem quadrant_small {r : Int} (h1 : -8192 ≤ r) (h2 : r ≤ 8192) : quadrant r = 0 := by
  have hw : (r + 32768) % 65536 - 32768 = r := by omega
  have hn : r.natAbs ≤ 8192 := by omega
  simp only [quadrant, hw, hn, if_true]

/-- R155, R156: the slip counted, the phase turned back and the symbols erased, before the freeze trigger and the notification. -/
def slipped (polY : Bool) (k : BitVec 2) (rx : RxAt) (s : State) : State :=
  let e := s.eq
  let fresh := decide (e.slipSf ≠ (rxStamp rx s).sf)
  let s1 := { s with
    eq := { e with
      slipsX := if polY then e.slipsX else e.slipsX + 1, slipsY := if polY then e.slipsY + 1 else e.slipsY,
      slipTotal := e.slipTotal + 1, slipSfX := (if fresh then 0 else e.slipSfX) + (if polY then 0 else 1),
      slipSfY := (if fresh then 0 else e.slipSfY) + (if polY then 1 else 0), slipSf := (rxStamp rx s).sf,
      quadX := if polY then e.quadX else e.quadX - k, quadY := if polY then e.quadY - k else e.quadY },
    hs := { s.hs with acc := { s.hs.acc with
      slipX := if polY then s.hs.acc.slipX else s.hs.acc.slipX + 1,
      slipY := if polY then s.hs.acc.slipY + 1 else s.hs.acc.slipY } } }
  if e.noErase then s1 else eraseSlip polY (slipErased (rxStamp rx s).toNat rx s) s1

theorem slipped_same (polY : Bool) (k : BitVec 2) (rx : RxAt) (s : State) :
    slipped polY k rx s = { s with eq := (slipped polY k rx s).eq, hs := (slipped polY k rx s).hs } := by
  unfold slipped eraseSlip exclude
  dsimp only
  split
  · rfl
  · cases polY <;> rfl

theorem slipped_eq (polY : Bool) (k : BitVec 2) (rx : RxAt) (s : State) {w : Nat × Nat}
    (hw : w = slipErased (rxStamp rx s).toNat rx s) :
    (slipped polY k rx s).eq.slipsX = (if polY then s.eq.slipsX else s.eq.slipsX + 1) ∧
    (slipped polY k rx s).eq.slipsY = (if polY then s.eq.slipsY + 1 else s.eq.slipsY) ∧
    (slipped polY k rx s).eq.slipTotal = s.eq.slipTotal + 1 ∧
    (slipped polY k rx s).eq.quadX = (if polY then s.eq.quadX else s.eq.quadX - k) ∧
    (slipped polY k rx s).eq.quadY = (if polY then s.eq.quadY - k else s.eq.quadY) ∧
    (slipped polY k rx s).eq.erasedX = (if polY || s.eq.noErase then s.eq.erasedX
      else spanFrom (w.1 - 4 * 2 ^ 24) (spanAdd w.1 w.2 s.eq.erasedX)) ∧
    (slipped polY k rx s).eq.erasedY = (if !polY || s.eq.noErase then s.eq.erasedY
      else spanFrom (w.1 - 4 * 2 ^ 24) (spanAdd w.1 w.2 s.eq.erasedY)) ∧
    (slipped polY k rx s).eq.st = s.eq.st := by
  subst hw
  unfold slipped eraseSlip exclude
  cases polY <;> cases hn : s.eq.noErase <;> simp [hn]

/-- R155: where the pilots show a slip, it is counted, may trip the freeze, and is notified. -/
theorem exec_cycleSlip {polY : Bool} {r1 r2 : Int} {rx : RxAt} {s : State} (ht : ticking s = true) (h6 : 6 ≤ s.eq.st)
    (hp : pilotAt rx.s.toNat s = true) (hk : quadrant r1 ≠ 0) (hk2 : quadrant r2 = quadrant r1)
    (hd : spanHits (rxStamp rx s).toNat ((rxStamp rx s).toNat + 1) s.fe.marked = false) :
    ∃ x y hif aon win q flash, exec (.cycleSlip polY r1 r2 rx) s = .next { freezeTrip .cycleSlip (slipped polY (quadrant r1) rx s) with
      eq := { (slipped polY (quadrant r1) rx s).eq with slipNotedX := x, slipNotedY := y },
      hif := hif, aon := aon, win := win, q := q, flash := flash } := by
  have hg : (ticking s && decide (6 ≤ s.eq.st) && decide (quadrant r1 ≠ 0) && decide (quadrant r2 = quadrant r1) &&
      pilotAt rx.s.toNat s && !spanHits (rxStamp rx s).toNat ((rxStamp rx s).toNat + 1) s.fe.marked) = true := by
    simp only [ht, h6, hk, hk2, hp, hd, ne_eq, not_false_eq_true, decide_true, Bool.not_false, Bool.and_self]
  have hmX : ∀ u : State, ∃ x y, { u with eq := { u.eq with slipNotedX := some (rxStamp rx s).sf } } =
      { u with eq := { u.eq with slipNotedX := x, slipNotedY := y } } := fun u => ⟨_, u.eq.slipNotedY, rfl⟩
  have hmY : ∀ u : State, ∃ x y, { u with eq := { u.eq with slipNotedY := some (rxStamp rx s).sf } } =
      { u with eq := { u.eq with slipNotedX := x, slipNotedY := y } } := fun u => ⟨u.eq.slipNotedX, _, rfl⟩
  have hx : ∃ nx ny, exec (.cycleSlip polY r1 r2 rx) s = .next (if polY then
      slipEvent 1 s.eq.slipNotedY ny (rxStamp rx s) (fun s' => { s' with eq := { s'.eq with slipNotedY := some (rxStamp rx s).sf } })
        (freezeTrip .cycleSlip (slipped polY (quadrant r1) rx s))
      else slipEvent 0 s.eq.slipNotedX nx (rxStamp rx s) (fun s' => { s' with eq := { s'.eq with slipNotedX := some (rxStamp rx s).sf } })
        (freezeTrip .cycleSlip (slipped polY (quadrant r1) rx s))) :=
    ⟨_, _, by simp only [exec, execCycleSlip, hg, if_true]; rfl⟩
  obtain ⟨nx, ny, hx⟩ := hx
  rw [hx]
  have heq := (freezeTrip_eq .cycleSlip (slipped polY (quadrant r1) rx s)).1
  generalize freezeTrip .cycleSlip (slipped polY (quadrant r1) rx s) = u at heq ⊢
  rw [← heq]
  cases polY
  · obtain ⟨x, y, hif, aon, win, q, flash, hs⟩ := slipEvent_same hmX 0 s.eq.slipNotedX nx (rxStamp rx s) u
    exact ⟨x, y, hif, aon, win, q, flash, congrArg _ hs⟩
  · obtain ⟨x, y, hif, aon, win, q, flash, hs⟩ := slipEvent_same hmY 1 s.eq.slipNotedY ny (rxStamp rx s) u
    exact ⟨x, y, hif, aon, win, q, flash, congrArg _ hs⟩

/-- Settles O26: the exits by the order of the conditions, the slip by its three steps. -/
theorem trackEvents : Obligations.TrackEvents := by
  unfold Obligations.TrackEvents
  refine ⟨fun s hf h0 hm => ⟨fun h => ?_, fun h => ?_, fun h => ?_⟩,
    fun timing cfo frame snr slips s u hm h8 hu h1 h2 h3 h4 h5 => ?_, fun s h => ?_,
    fun polY r1 r2 rx s ht h6 hp => ⟨fun hk hk2 hd => ?_, fun h => ?_⟩, fun r h1 h2 => quadrant_small h1 h2,
    fun a rx s hz hs => ?_⟩
  · have hg : (!s.time.running || eqMoves s) = true := by rcases hm with hm | hm <;> simp [hm]
    simp [exec, execAcqReturnA0, h, h0, hf, hg, eqToA0]
  · have hg : (!s.time.running || eqMoves s) = true := by rcases hm with hm | hm <;> simp [hm]
    simp [exec, execAcqReturnA0, h, h0, hf, hg, eqToA0]
  · have hg : (!s.time.running || eqMoves s) = true := by rcases hm with hm | hm <;> simp [hm]
    simp [exec, execAcqReturnA0, h, h0, hf, hg, eqToA0]
  · have e1 : trackHolds s .timingRange = timing := Bool.eq_iff_iff.mpr (by simp [trackHolds, h1])
    have e2 : trackHolds s .cfoRange = cfo := Bool.eq_iff_iff.mpr (by simp [trackHolds, h2])
    have e3 : trackHolds s .frameLost = frame := Bool.eq_iff_iff.mpr (by simp [trackHolds, h3])
    have e4 : trackHolds s .lowSnr = snr := Bool.eq_iff_iff.mpr (by simp [trackHolds, h4])
    have e5 : trackHolds s .slipRate = slips := Bool.eq_iff_iff.mpr (by simp [trackHolds, h5])
    rw [exec_trackExit hm h8, trackConds_of e1 e2 e3 e4 e5, ← hu]
    clear e1 e2 e3 e4 e5 h1 h2 h3 h4 h5 hu
    cases timing <;> cases cfo <;> cases frame <;> cases snr <;> cases slips <;> simp
  · have hg : ¬ (s.eq.st = 8 ∧ eqMoves s = true) := by
      rintro ⟨h8, hm⟩
      rcases h with h | h
      · exact h h8
      · simp [hm] at h
    simp only [exec, execTrackExit, if_neg hg]
  · obtain ⟨x, y, hif, aon, win, q, flash, hx⟩ := exec_cycleSlip ht h6 hp hk hk2 hd
    obtain ⟨h1, h2, h3, h4, h5, -, -, h8⟩ := slipped_eq polY (quadrant r1) rx s rfl
    refine ⟨_, hx, h1, h2, h3, h4, h5, fun w hw => ?_, h8, ?_⟩
    · obtain ⟨-, -, -, -, -, h6, h7, -⟩ := slipped_eq polY (quadrant r1) rx s hw
      exact ⟨h6, h7⟩
    · rw [freezeTrip_same, slipped_same]
  · have hg : (ticking s && decide (6 ≤ s.eq.st) && decide (quadrant r1 ≠ 0) && decide (quadrant r2 = quadrant r1) &&
        pilotAt rx.s.toNat s && !spanHits (rxStamp rx s).toNat ((rxStamp rx s).toNat + 1) s.fe.marked) = false := by
      rcases h with h | h | h <;> simp [h]
    simp only [exec, execCycleSlip, hg, Bool.false_eq_true, if_false]
  · have hc : (!zrNow s && decide (rx.s.toNat % 65536 = 512)) = false := by simp [hs]
    simp only [slipErased, hc, Bool.false_eq_true, if_false]

/-! ### The equaliser's commands -/

/-- The form of an EQ.CONFIG (R145). -/
def eqConfigForm (taps profile bw flags : Byte) (hint window : Word) (floor warmHold : Half) : Prop :=
  (taps = 0 ∨ (15 ≤ taps.toNat ∧ taps.toNat ≤ 63 ∧ taps.toNat % 2 = 1)) ∧ profile.toNat ≤ 1 ∧ bw.toNat ≤ 3 ∧
    flags &&& 0xF8 = 0 ∧ -600000 ≤ s32 hint ∧ s32 hint ≤ 600000 ∧ window.toNat ≤ 1200000 ∧
    (floor = 0 ∨ (50 ≤ floor.toNat ∧ floor.toNat ≤ 250)) ∧ (warmHold = 0 ∨ 256 ≤ warmHold.toNat)

theorem eqConfigBad_iff (taps profile bw flags : Byte) (hint window : Word) (floor warmHold : Half) :
    eqConfigBad taps profile bw flags hint window floor warmHold = true ↔
      ¬ eqConfigForm taps profile bw flags hint window floor warmHold := by
  have hr : reservedClear flags 7 = true ↔ flags &&& 0xF8 = 0 := reservedClear_iff flags 7
  unfold eqConfigBad eqConfigForm
  rw [← hr]
  simp only [Bool.or_eq_true, Bool.and_eq_true, decide_eq_true_eq, Bool.not_eq_true', ne_eq, ← Bool.not_eq_true]
  grind

theorem movedEq_warm (new reason : Nat) (warm : Bool) (s : State) :
    (movedEq new reason warm s).warm = (warm && decide (new ≠ 8)) := by
  unfold movedEq
  dsimp only
  split
  · rfl
  · split <;> rfl

theorem movedEq_taps {new : Nat} (hn : new ≠ 5) (reason : Nat) (warm : Bool) (s : State) :
    (movedEq new reason warm s).taps = s.eq.taps := by
  obtain ⟨_, _, _, _, _, _, _, _, _, _, h⟩ := eqRuns_same new s.eq
  unfold movedEq
  dsimp only
  rw [h]
  split
  · simp
  · split <;> simp

/-- R176: a warm re-acquisition enters A4. -/
theorem reacquire_warm {s : State} (h : s.eq.st = 8 ∨ s.eq.a3Done = true) :
    (reacquire true s).eq.st = 4 ∧ (reacquire true s).eq.warm = true := by
  have hc : (true && (decide (s.eq.st = 8) || s.eq.a3Done)) = true := by
    rcases h with h | h <;> simp [h]
  unfold reacquire
  simp only [hc, if_true]
  rw [eqMove_eq]
  exact ⟨(movedEq_any 4 _ true _).1, (movedEq_warm 4 _ true _).trans rfl⟩

/-- R176: a cold re-acquisition enters A1 with no candidates and the set number of taps. -/
theorem reacquire_cold {warm : Bool} {s : State} (h : warm = false ∨ s.eq.st ≠ 8 ∧ s.eq.a3Done = false) :
    (reacquire warm s).eq.st = 1 ∧ (reacquire warm s).eq.cands = [] ∧ (reacquire warm s).eq.taps = s.eq.tapsSet := by
  have hc : (warm && (decide (s.eq.st = 8) || s.eq.a3Done)) = false := by
    rcases h with h | ⟨h, h'⟩
    · simp [h]
    · simp [h, h']
  unfold reacquire
  simp only [hc, Bool.false_eq_true, if_false]
  rw [eqMove_eq]
  obtain ⟨h1, -, -, h4, -⟩ := movedEq_any 1 (if s.eq.st = 8 then 0x0C else 0) false
    { s with eq := { s.eq with cands := [], taps := s.eq.tapsSet } }
  exact ⟨h1, h4, movedEq_taps (by decide) _ _ _⟩

theorem exec_eqReacquire {h : Hdr} {entry : Byte} {s : State} (ha : admitted 0x0405 s = .accept) (he : entry.toNat ≤ 1)
    (hcur : s.line.cur.isSome = true) (hrx : s.line.rxChain = true) (h0 : s.eq.st ≠ 0) :
    exec (.eqReacquire h entry) s = .next (reply 0x0405 h [fld 16 1 (reacquire (decide (entry = 0)) s).eq.st]
      (reacquire (decide (entry = 0)) s)) := by
  have h1 : ¬ 1 < entry.toNat := by omega
  have hn : s.line.cur.isNone = false := Option.isNone_eq_false_iff.mpr hcur
  simp only [exec, execEqReacquire, command_accept ha]
  rw [guarded_pass]
  simp only [firstFail_cons, firstFail_nil, h1, hn, hrx, h0, decide_false, Bool.not_true, Bool.or_self, Bool.false_eq_true, if_false]

/-- Settles O27, by the checks of the cards and the two entries. -/
theorem equaliserCommands : Obligations.EqualiserCommands := by
  unfold Obligations.EqualiserCommands
  refine ⟨fun h taps profile bw flags hint window floor warmHold s ha => ⟨fun hok => ?_, fun hbad => ?_⟩, fun h s ha => ?_,
    fun h s ha => ?_, fun h mode scale s ha => ⟨fun hm => ?_, fun hm => ?_⟩, fun h s ha hcur hrx h0 => ⟨?_, fun hw => ?_, fun h8 h3 => ?_⟩,
    fun h entry s ha he hbad => ?_, fun h hold s ha => ⟨fun hh => ?_, fun hh => ?_⟩⟩
  · have hb := Bool.eq_false_iff.mpr fun hx => (eqConfigBad_iff taps profile bw flags hint window floor warmHold).mp hx hok
    simp only [exec, execEqConfig, command_accept ha]
    rw [guarded_pass]
    · rfl
    · simp only [firstFail_cons, firstFail_nil, hb, Bool.false_eq_true, if_false]
  · have hb := (eqConfigBad_iff taps profile bw flags hint window floor warmHold).mpr hbad
    simp only [exec, execEqConfig, command_accept ha]
    rw [guarded_fail]
    simp only [firstFail_cons, hb, if_true]
  · refine ⟨_, by simp only [exec, execEqStatus, query_accept ha]; rfl, ?_⟩
    simp
  · refine ⟨_, by simp only [exec, execEqEstimates, query_accept ha]; rfl, ?_⟩
    simp
  · refine ⟨if mode = 0 then (drawn s).toNat else (if mode = 2 then scale else s.eq.nlcUsed).toNat, ?_, ?_, ?_⟩
    · rintro rfl
      rfl
    · rintro rfl
      rfl
    · have h2 : ¬ 2 < mode.toNat := by omega
      simp only [exec, execEqNlc, command_accept ha]
      rw [guarded_pass]
      simp only [firstFail_cons, firstFail_nil, h2, decide_false, Bool.false_eq_true, if_false]
  · simp only [exec, execEqNlc, command_accept ha]
    rw [guarded_fail]
    simp only [firstFail_cons, hm, decide_true, if_true]
  · obtain ⟨h1, h2, h3⟩ := reacquire_cold (warm := false) (s := s) (.inl rfl)
    have hx := exec_eqReacquire (h := h) (entry := 1) ha (by decide) hcur hrx h0
    rw [show decide ((1 : Byte) = 0) = false by decide, h1] at hx
    exact ⟨_, hx, h1, h2, h3⟩
  · obtain ⟨h1, h2⟩ := reacquire_warm hw
    have hx := exec_eqReacquire (h := h) (entry := 0) ha (by decide) hcur hrx h0
    rw [show decide ((0 : Byte) = 0) = true by decide, h1] at hx
    exact ⟨_, hx, h1, h2⟩
  · obtain ⟨h1, -⟩ := reacquire_cold (warm := true) (.inr ⟨h8, h3⟩)
    have hx := exec_eqReacquire (h := h) (entry := 0) ha (by decide) hcur hrx h0
    rw [show decide ((0 : Byte) = 0) = true by decide, h1] at hx
    exact ⟨_, hx, h1⟩
  · have h1 : ¬ 1 < entry.toNat := by omega
    have hb : (s.line.cur.isNone || !s.line.rxChain || decide (s.eq.st = 0)) = true := by
      rcases hbad with h | h | h <;> simp [h]
    simp only [exec, execEqReacquire, command_accept ha]
    rw [guarded_fail]
    simp only [firstFail_cons, h1, hb, decide_false, Bool.false_eq_true, if_false, if_true]
  · have h1 : ¬ 1 < hold.toNat := by omega
    simp only [exec, execEqHold, command_accept ha]
    rw [guarded_pass]
    simp only [firstFail_cons, firstFail_nil, h1, decide_false, Bool.false_eq_true, if_false]
  · simp only [exec, execEqHold, command_accept ha]
    rw [guarded_fail]
    simp only [firstFail_cons, hh, decide_true, if_true]

end Sys2Proof.Machine
end


section
/-! O28, O29. The laser and the transmit commands: one rule for a move of the optical state, then one for each of the moves that
the commands make. -/
namespace Sys2Proof.Machine

open Sys2Proof

/-! ### What a notification leaves of the always-on domain -/

/-- R360: a log entry moves the highest log number of the always-on domain and nothing else of it. -/
theorem logEntry_aon (t : Nat) (c : Half) (e : Option Half) (d : List Byte) (s : State) :
    (logEntry t c e d s).aon = { s.aon with logSeq := (logEntry t c e d s).aon.logSeq } := by
  have retire : ∀ (bs : List Nat) (u : State), (bs.foldl retireNote u).aon = { u.aon with logSeq := (bs.foldl retireNote u).aon.logSeq } := by
    intro bs
    induction bs with
    | nil => exact fun _ => rfl
    | cons b bs ih =>
      intro u
      rw [List.foldl_cons, ih (retireNote u b)]
      rfl
  have flush : ∀ (n : Nat) (u : State), (flushEntries n u).aon = { u.aon with logSeq := (flushEntries n u).aon.logSeq } :=
    fun n u => retire _ _
  unfold logEntry
  dsimp only
  split
  · rfl
  · split
    · rw [show flushLog (stageEntry t c e d s) = flushEntries _ _ from rfl, flush]
      rfl
    · rfl

theorem deliver_aon (m : Note) (l u : Bool) (s : State) :
    (deliver m l u s).aon = { s.aon with logSeq := (deliver m l u s).aon.logSeq } := by
  unfold deliver
  dsimp only
  split
  · rfl
  · split
    · rfl
    · rw [logEntry_aon]
      rfl

theorem notifyAt_aon (e c : Half) (b : Option Bool) (d : List Byte) (t : Lts) (s : State) :
    (notifyAt e c b d t s).aon = { s.aon with logSeq := (notifyAt e c b d t s).aon.logSeq } := by
  unfold notifyAt
  dsimp only
  split
  · rfl
  · split
    · rw [deliver_aon]
    · split
      · rw [deliver_aon]
      · rfl

/-- The registers of the always-on domain that the optical states and the power states read. -/
@[simp] theorem notifyAt_aonRegs (e c : Half) (b : Option Bool) (d : List Byte) (t : Lts) (s : State) :
    (notifyAt e c b d t s).aon.shut = s.aon.shut ∧ (notifyAt e c b d t s).aon.coppice = s.aon.coppice ∧
    (notifyAt e c b d t s).aon.vinOk = s.aon.vinOk ∧ (notifyAt e c b d t s).aon.supplyArmed = s.aon.supplyArmed ∧
    (notifyAt e c b d t s).aon.valid = s.aon.valid ∧ (notifyAt e c b d t s).aon.code = s.aon.code ∧
    (notifyAt e c b d t s).aon.wakeSrc = s.aon.wakeSrc ∧ (notifyAt e c b d t s).aon.wakeEn = s.aon.wakeEn ∧
    (notifyAt e c b d t s).aon.timer = s.aon.timer := by
  rw [notifyAt_aon]
  exact ⟨rfl, rfl, rfl, rfl, rfl, rfl, rfl, rfl, rfl⟩

/-! ### Moves of the optical state -/

/-- The transmitter after a move of the optical state (R196). -/
def txMoved (st : Opt) (reason : Nat) (t : Tx) : Tx :=
  if t.st = st then t
  else { t with
    st := st, reason := reason, powerNow := if st = .lit then t.power else t.powerNow, beyond := [none, none, none, none, none, none] }

@[simp] theorem txMoveAt_tx (b : Lts) (st : Opt) (r : Nat) (q : Bool) (s : State) : (txMoveAt b st r q s).tx = txMoved st r s.tx := by
  unfold txMoveAt txMoved
  dsimp only
  split
  · rfl
  · split <;> simp

@[simp] theorem txMove_tx (st : Opt) (r : Nat) (q : Bool) (s : State) : (txMove st r q s).tx = txMoved st r s.tx := by
  rw [txMove, txMoveAt_tx]

@[simp] theorem txMoved_st (st : Opt) (r : Nat) (t : Tx) : (txMoved st r t).st = st := by
  unfold txMoved
  split
  · assumption
  · rfl

/-- A move of the optical state leaves the settings, the requests and the shutdown's state. -/
@[simp] theorem txMoved_kept (st : Opt) (r : Nat) (t : Tx) :
    (txMoved st r t).freqSet = t.freqSet ∧ (txMoved st r t).grid = t.grid ∧ (txMoved st r t).fine = t.fine ∧
    (txMoved st r t).power = t.power ∧ (txMoved st r t).request = t.request ∧ (txMoved st r t).rearmed = t.rearmed ∧
    (txMoved st r t).converged = t.converged ∧ (txMoved st r t).alarmed = t.alarmed ∧ (txMoved st r t).tuneFrom = t.tuneFrom ∧
    (txMoved st r t).stored = t.stored ∧ (txMoved st r t).restart = t.restart ∧ (txMoved st r t).als = t.als ∧
    (txMoved st r t).alsPulsing = t.alsPulsing ∧ (txMoved st r t).alsFrom = t.alsFrom ∧ (txMoved st r t).dac = t.dac ∧
    (txMoved st r t).now = t.now := by
  unfold txMoved
  split <;> exact ⟨rfl, rfl, rfl, rfl, rfl, rfl, rfl, rfl, rfl, rfl, rfl, rfl, rfl, rfl, rfl, rfl⟩

/-- A move of the optical state writes the transmitter and what its notification writes. -/
theorem txMoveAt_same (b : Lts) (st : Opt) (r : Nat) (q : Bool) (s : State) : txMoveAt b st r q s = { s with
    tx := txMoved st r s.tx, hif := (txMoveAt b st r q s).hif, aon := (txMoveAt b st r q s).aon, win := (txMoveAt b st r q s).win,
    q := (txMoveAt b st r q s).q, flash := (txMoveAt b st r q s).flash } := by
  rw [← txMoveAt_tx b st r q s]
  unfold txMoveAt
  dsimp only
  split
  · rfl
  · split
    · rfl
    · rw [notifyAt_same]

theorem txMove_same (st : Opt) (r : Nat) (q : Bool) (s : State) : txMove st r q s = { s with
    tx := txMoved st r s.tx, hif := (txMove st r q s).hif, aon := (txMove st r q s).aon, win := (txMove st r q s).win,
    q := (txMove st r q s).q, flash := (txMove st r q s).flash } :=
  txMoveAt_same _ st r q s

/-- What a move of the optical state leaves of the other parts. -/
@[simp] theorem txMove_kept (st : Opt) (r : Nat) (q : Bool) (s : State) : (txMove st r q s).time = s.time ∧
    (txMove st r q s).pwr = s.pwr ∧ (txMove st r q s).line = s.line ∧ (txMove st r q s).fe = s.fe ∧ (txMove st r q s).eq = s.eq ∧
    (txMove st r q s).fec = s.fec ∧ (txMove st r q s).tf = s.tf ∧ (txMove st r q s).ident = s.ident ∧
    (txMove st r q s).pins = s.pins ∧ (txMove st r q s).ref = s.ref ∧ (txMove st r q s).cal = s.cal ∧
    (txMove st r q s).dbg = s.dbg ∧ (txMove st r q s).health = s.health ∧ (txMove st r q s).hl = s.hl := by
  rw [txMove_same]
  exact ⟨rfl, rfl, rfl, rfl, rfl, rfl, rfl, rfl, rfl, rfl, rfl, rfl, rfl, rfl⟩

@[simp] theorem txMove_aonRegs (st : Opt) (r : Nat) (q : Bool) (s : State) : (txMove st r q s).hif.rqTail = s.hif.rqTail ∧
    (txMove st r q s).aon.shut = s.aon.shut ∧ (txMove st r q s).aon.coppice = s.aon.coppice ∧
    (txMove st r q s).aon.vinOk = s.aon.vinOk ∧ (txMove st r q s).aon.supplyArmed = s.aon.supplyArmed ∧
    (txMove st r q s).aon.valid = s.aon.valid ∧ (txMove st r q s).aon.code = s.aon.code := by
  unfold txMove txMoveAt
  dsimp only
  split
  · simp
  · split <;> simp

/-! ### TX.ENABLE -/

/-- R197, R198: from DARK the tune starts once nothing forbids it. -/
theorem txAdvance_dark {s : State} (h : s.tx.st = .dark) (reason : Nat) : txAdvance reason s =
    if s.tx.freqSet && decide (s.tx.request ≠ 0) && !inWatch s && decide (s.aon.coppice < 4) && s.tx.rearmed && !s.aon.shut
        && domWorks .opt s then
      txMove .tuning reason false { s with tx := { s.tx with tuneFrom := s.time.lts.sf } }
    else s := by
  simp only [txAdvance, h]

/-- R198: from BLANK the modulator goes to null once light is allowed. -/
theorem txAdvance_blank {s : State} (h : s.tx.st = .blank) (reason : Nat) : txAdvance reason s =
    if litAllowed s then txMove .null reason false { s with tx := { s.tx with converged := 0, tuneFrom := s.time.lts.sf } } else s := by
  simp only [txAdvance, h]

theorem txAdvance_other {s : State} (hd : s.tx.st ≠ .dark) (hb : s.tx.st ≠ .blank) (reason : Nat) : txAdvance reason s = s := by
  unfold txAdvance
  split
  · contradiction
  · contradiction
  · rfl

/-- An advance leaves the settings and the requests of the transmitter. -/
theorem txAdvance_kept (reason : Nat) (s : State) : (txAdvance reason s).tx.grid = s.tx.grid ∧
    (txAdvance reason s).tx.fine = s.tx.fine ∧ (txAdvance reason s).tx.freqSet = s.tx.freqSet ∧
    (txAdvance reason s).tx.request = s.tx.request := by
  unfold txAdvance
  split
  · split <;> simp
  · split <;> simp
  · simp

/-! ### TX.LASER -/

theorem laserMove_same (s : State) : laserMove s = { s with tx := (laserMove s).tx } := by
  unfold laserMove
  dsimp only
  split <;> rfl

/-- R192: the set frequency is stored, and what a warm entry rests on is given up. -/
def tuneSet (grid fine : Int) (s : State) : State :=
  { s with
    tx := { (laserMove s).tx with grid := grid, fine := fine, freqSet := true, rampAt := s.time.wardenNs },
    eq := { s.eq with warmOk := false, cdKept := false } }

/-- R192: how far a tune moves the laser, in MHz. -/
def tuneGap (grid fine : Int) (s : State) : Nat := (laserMhz grid fine - laserMhz s.tx.grid s.tx.fine).natAbs

theorem laserMove_st (s : State) : (laserMove s).tx.st = s.tx.st := by
  unfold laserMove
  dsimp only
  split <;> rfl

theorem tune_eq (grid fine : Int) (s : State) : tune grid fine s =
    if loPresent s && s.tx.freqSet && decide (tuneGap grid fine s = 0) then (s, 2)
    else if loPresent s && s.tx.freqSet && decide (tuneGap grid fine s ≤ 100) then (tuneSet grid fine s, 0)
    else if loPresent s then
      (txMove .tuning 2 false { tuneSet grid fine s with tx := { (tuneSet grid fine s).tx with tuneFrom := s.time.lts.sf } }, 1)
    else if s.tx.st = .tuning then
      ({ tuneSet grid fine s with tx := { (tuneSet grid fine s).tx with tuneFrom := s.time.lts.sf } }, 1)
    else (txAdvance 0 (tuneSet grid fine s), if (txAdvance 0 (tuneSet grid fine s)).tx.st = .tuning then 1 else 2) := by
  unfold tune
  dsimp only
  rw [laserMove_same s]
  rfl

/-- R192: a change of at most 100 MHz with the laser locked is made in light. -/
theorem tune_near {grid fine : Int} {s : State} (hl : loPresent s = true) (hf : s.tx.freqSet = true)
    (h0 : 0 < tuneGap grid fine s) (h100 : tuneGap grid fine s ≤ 100) : tune grid fine s = (tuneSet grid fine s, 0) := by
  rw [tune_eq, hl, hf, decide_eq_false (by omega : ¬ tuneGap grid fine s = 0), decide_eq_true h100]
  rfl

/-- R192: any other change with the laser locked is a dark tune. -/
theorem tune_far {grid fine : Int} {s : State} (hl : loPresent s = true) (h100 : 100 < tuneGap grid fine s) : tune grid fine s =
    (txMove .tuning 2 false { tuneSet grid fine s with tx := { (tuneSet grid fine s).tx with tuneFrom := s.time.lts.sf } }, 1) := by
  rw [tune_eq, hl, decide_eq_false (by omega : ¬ tuneGap grid fine s = 0), decide_eq_false (by omega : ¬ tuneGap grid fine s ≤ 100)]
  simp only [Bool.and_false, Bool.false_eq_true, if_false, if_true]

/-- R192, R197: without light the frequency is set, and a tune starts or goes on where the state lets it. -/
theorem tune_dark (grid fine : Int) {s : State} (hl : loPresent s = false) : ∃ u k, tune grid fine s = (u, k) ∧
    u.tx.grid = grid ∧ u.tx.fine = fine ∧ u.tx.freqSet = true ∧ (k = 1 ↔ u.tx.st = .tuning) := by
  rw [tune_eq, hl]
  simp only [Bool.false_and, Bool.false_eq_true, if_false]
  by_cases ht : s.tx.st = .tuning
  · rw [if_pos ht]
    exact ⟨_, _, rfl, rfl, rfl, rfl, by simp [tuneSet, laserMove_st, ht]⟩
  · rw [if_neg ht]
    obtain ⟨hg, hfi, hfs, -⟩ := txAdvance_kept 0 (tuneSet grid fine s)
    refine ⟨_, _, rfl, hg, hfi, hfs, ?_⟩
    by_cases hs : (txAdvance 0 (tuneSet grid fine s)).tx.st = .tuning <;> simp [hs]

/-- R192: a ramp brings the laser nearer by 10 MHz/ms and never past its target. -/
theorem laserMove_gap (s : State) : (laserMhz s.tx.grid s.tx.fine - (laserMove s).tx.freq).natAbs =
    (laserMhz s.tx.grid s.tx.fine - s.tx.freq).natAbs - (s.time.wardenNs - s.tx.rampAt) / 100000 := by
  generalize hd : (s.time.wardenNs - s.tx.rampAt) / 100000 = d
  unfold laserMove
  dsimp only
  rw [hd]
  split
  · dsimp only
    omega
  · dsimp only
    split <;> omega

/-- TX.LASER with a check that passes does what its flags ask. -/
theorem exec_txLaser {h : Hdr} {grid fine power : Half} {flags : Byte} {s : State} (ha : admitted 0x0501 s = .accept)
    (hc : firstFail (txLaserCheck (zrNow s) grid fine power flags s) = none) :
    exec (.txLaser h grid fine power flags) s = .next (reply 0x0501 h
      [fld 16 1 (optCode (txLaserApply grid fine power flags s).1.tx.st), fld 17 1 (txLaserApply grid fine power flags s).2]
      (txLaserApply grid fine power flags s).1) := by
  simp only [exec, execTxLaser, command_accept ha]
  rw [guarded_pass hc]

theorem exec_txLaser_tune {h : Hdr} {grid fine power : Half} {s : State} (ha : admitted 0x0501 s = .accept)
    (hc : firstFail (txLaserCheck (zrNow s) grid fine power 1 s) = none) :
    exec (.txLaser h grid fine power 1) s = .next (reply 0x0501 h
      [fld 16 1 (optCode (tune (s16 grid) (s16 fine) s).1.tx.st), fld 17 1 (tune (s16 grid) (s16 fine) s).2]
      (tune (s16 grid) (s16 fine) s).1) :=
  exec_txLaser ha hc

theorem exec_txEnable {h : Hdr} {request : Byte} {s : State} (ha : admitted 0x0502 s = .accept) (hr : request.toNat ≤ 2) :
    exec (.txEnable h request) s =
      .next (reply 0x0502 h [fld 16 1 (optCode (txEnableApply request s).tx.st)] (txEnableApply request s)) := by
  simp only [exec, execTxEnable, command_accept ha]
  rw [guarded_pass]
  simp [txEnableCheck, hr]

/-- R198: "dark" from every state but SHUT. -/
theorem txEnable_dark {s : State} (hs : s.tx.st ≠ .shut) : txEnableApply 0 s =
    txMove .dark 0 false { s with tx := { s.tx with request := 0, alsPulsing := false } } := by
  simp [txEnableApply, txDark, hs]

/-- R198: "dark" in SHUT clears the latch. -/
theorem txEnable_shut {s : State} (hs : s.tx.st = .shut) : txEnableApply 0 s =
    txMove .dark 0 false { s with tx := { s.tx with request := 0, rearmed := false }, aon := { s.aon with shut := false } } := by
  simp [txEnableApply, hs]

/-- R198: "blank" from LIT and NULL. -/
theorem txEnable_blank {s : State} (hs : s.tx.st = .lit ∨ s.tx.st = .null) : txEnableApply 2 s =
    txMove .blank 0 false { s with tx := { s.tx with request := 2 } } := by
  have hb : txBlank 0 false { s with tx := { s.tx with request := 2 } } =
      txMove .blank 0 false { s with tx := { s.tx with request := 2 } } := by
    rcases hs with hs | hs <;> simp only [txBlank, hs]
  have hl : litAllowed (txMove .blank 0 false { s with tx := { s.tx with request := 2 } }) = false := by simp [litAllowed]
  calc txEnableApply 2 s = txAdvance 0 (txBlank 0 false { s with tx := { s.tx with request := 2 } }) := rfl
    _ = _ := by rw [hb, txAdvance_blank (by simp), if_neg (by simp [hl])]

/-- R197: "enable" in DARK with nothing that forbids it starts the tune. -/
theorem txEnable_tunes {s : State} (hs : s.tx.st = .dark) (hf : s.tx.freqSet = true) (hw : inWatch s = false)
    (hco : s.aon.coppice < 4) (hsh : s.aon.shut = false) (hd : domWorks .opt s = true) : txEnableApply 1 s =
    txMove .tuning 0 false { s with tx := { s.tx with request := 1, rearmed := true, tuneFrom := s.time.lts.sf } } := by
  calc txEnableApply 1 s = txAdvance 0 { s with tx := { s.tx with request := 1, rearmed := true } } := rfl
    _ = _ := by
      rw [txAdvance_dark (s := { s with tx := { s.tx with request := 1, rearmed := true } }) hs]
      refine if_pos ?_
      simp [hf, hco, hsh]
      exact ⟨hw, hd⟩

/-- Settles O28: the tune in its kinds, the checks, and the moves of the optical state that the enable request makes. -/
theorem laserCommands : Obligations.LaserCommands := by
  unfold Obligations.LaserCommands
  refine ⟨?_, laserMove_gap, ?_, ?_, ?_, ?_, ?_⟩
  · intro h grid fine power s ha hc
    refine ⟨fun hl hf => ⟨fun he => ?_, fun h0 h100 => ?_, fun h100 => ?_⟩, fun hl => ?_⟩
    · have ht : tune (s16 grid) (s16 fine) s = (s, 2) := by
        rw [tune_eq, hl, hf, decide_eq_true (by simp [tuneGap, he] : tuneGap (s16 grid) (s16 fine) s = 0)]
        rfl
      rw [exec_txLaser_tune ha hc, ht]
    · rw [exec_txLaser_tune ha hc, tune_near hl hf h0 h100]
      simp only [tuneSet, laserMove_st]
    · refine ⟨_, by rw [exec_txLaser_tune ha hc, tune_far hl h100, txMove_tx, txMoved_st]; rfl, ?_⟩
      simp [tuneSet]
    · obtain ⟨u, k, ht, hu⟩ := tune_dark (s16 grid) (s16 fine) hl
      exact ⟨u, k, by rw [exec_txLaser_tune ha hc, ht], hu⟩
  · intro h grid fine power flags st s ha hc
    simp only [exec, execTxLaser, command_accept ha]
    rw [guarded_fail hc]
  · intro h grid fine power s ha hz hs hw hco hd hbad
    simp only [exec, execTxLaser, command_accept ha]
    rw [guarded_fail]
    have hz' : (zrCentre (s16 grid) (s16 fine) && laserRange s.ident.variant (s16 grid) (s16 fine)) = false := by
      rw [Bool.and_eq_false_iff]; exact hbad
    have hco' : ¬ 4 ≤ s.aon.coppice := by omega
    simp only [txLaserCheck, firstFail_cons, hz, hs, hw, hd, hco', hz', show reservedClear (1 : Byte) 3 = true from by decide,
      show bitOf (1 : Byte) 1 = false from by decide, show bitOf (1 : Byte) 0 = true from by decide, Bool.not_true, Bool.not_false,
      Bool.and_false, Bool.false_and, Bool.and_self, Bool.or_self, decide_false, Bool.false_eq_true, if_false, if_true]
  · intro h grid fine power s ha hc
    rw [exec_txLaser ha hc]
    rfl
  · intro h s ha
    refine ⟨fun hs => ?_, fun hs => ?_, fun hs => ?_, fun hs hf hw hco hsh hd => ?_, fun hs => ?_⟩
    · refine ⟨txEnableApply 0 s, by rw [exec_txEnable ha (by decide), txEnable_dark hs]; simp [optCode], ?_⟩
      rw [txEnable_dark hs]
      simp
    · refine ⟨txEnableApply 0 s, by rw [exec_txEnable ha (by decide), txEnable_shut hs]; simp [optCode], ?_⟩
      rw [txEnable_shut hs]
      simp
    · refine ⟨txEnableApply 2 s, by rw [exec_txEnable ha (by decide), txEnable_blank hs]; simp [optCode], ?_⟩
      rw [txEnable_blank hs]
      simp
    · refine ⟨txEnableApply 1 s, by rw [exec_txEnable ha (by decide), txEnable_tunes hs hf hw hco hsh hd]; simp [optCode], ?_⟩
      rw [txEnable_tunes hs hf hw hco hsh hd]
      simp
    · have ht : txEnableApply 1 s = { s with tx := { s.tx with request := 1, rearmed := true } } :=
        txAdvance_other (by simp [hs]) (by simp [hs]) 0
      exact ⟨txEnableApply 1 s, by rw [exec_txEnable ha (by decide), ht]; simp only [hs, optCode], ht⟩
  · intro h request s ha hr
    simp only [exec, execTxEnable, command_accept ha]
    rw [guarded_fail]
    simp [txEnableCheck, hr]

/-! ### The transmit commands -/

theorem txNull_tx (reason : Nat) (s : State) : (txNull reason s).tx = if s.tx.st = .lit then txMoved .null reason s.tx else s.tx := by
  unfold txNull
  split <;> simp

/-- R198: the modulator at null leaves no light. -/
theorem txNull_st (reason : Nat) (s : State) : (txNull reason s).tx.st ≠ .lit := by
  rw [txNull_tx]
  split
  · simp
  · assumption

theorem txNull_kept (reason : Nat) (s : State) : (txNull reason s).tx.stored = s.tx.stored ∧
    (txNull reason s).hif.rqTail = s.hif.rqTail := by
  unfold txNull
  split <;> simp

/-- Checks that pass leave the answer to the checks after them. -/
theorem firstFail_append {l : List (Bool × St)} (hl : firstFail l = none) (m : List (Bool × St)) :
    firstFail (l ++ m) = firstFail m := by
  induction l with
  | nil => rfl
  | cons x l ih =>
    rw [firstFail_cons] at hl
    rw [List.cons_append, firstFail_cons]
    split at hl
    · cases hl
    · rw [if_neg ‹_›, ih hl]

/-- R183: TX.SHAPING with a check that passes stores its settings; action 1 stops the chain where no change of mode does. -/
theorem exec_txShaping {h : Hdr} {beta action flags : Byte} {cd : Word} {scale : Half} {clip : Byte} {s : State}
    (ha : admitted 0x0503 s = .accept) (hc : firstFail (txShapingCheck (zrNow s) (rateNow s) beta action flags cd clip) = none)
    (hb : busyChanging s = false) (hcur : action = 1 → s.line.cur.isSome = true) :
    exec (.txShaping h beta action flags cd scale clip) s = .next (
      if action = 0 ∨ changeHere s then done 0x0503 h (txShapingApply beta flags cd scale clip s)
      else { stopTx (txNull 9 (txShapingApply beta flags cd scale clip s)) with
        tx := { (stopTx (txNull 9 (txShapingApply beta flags cd scale clip s))).tx with
          restart := some ⟨boundaryNow s, h, s.q.acting = some true⟩ } }) := by
  have hnone : (decide (action = 1) && s.line.cur.isNone && !changeHere s) = false := by
    by_cases hx : action = 1
    · simp [Option.isNone_eq_false_iff.mpr (hcur hx)]
    · simp only [hx, decide_false, Bool.false_and]
  simp only [exec, execTxShaping, command_accept ha]
  rw [guarded_pass]
  · rfl
  · rw [firstFail_append hc]
    simp only [firstFail_cons, firstFail_nil, hb, hnone, Bool.false_eq_true, if_false]

/-- A check that turns a command away does so whatever checks stand after it. -/
theorem firstFail_append_some {l : List (Bool × St)} {st : St} (hl : firstFail l = some st) (m : List (Bool × St)) :
    firstFail (l ++ m) = some st := by
  induction l with
  | nil => cases hl
  | cons x l ih =>
    rw [firstFail_cons] at hl
    rw [List.cons_append, firstFail_cons]
    split at hl
    · rw [if_pos ‹_›, hl]
    · rw [if_neg ‹_›, ih hl]

/-- R183: at the boundary after the stop the transmit chain starts again, and its command is answered. -/
theorem exec_modeChangeLoad_tx {r : Restart} {s s0 : State} (ht : ticking s = true) (hch : s.line.change = none)
    (hcur : s.line.cur.isSome = true) (htx : s.line.txChain = false) (hr : s.tx.restart = some r) (hfe : s.fe.restart = none)
    (hdue : r.c.toNat + 1 ≤ s.time.lts.sf.toNat) (hs0 : s0 = { s with tx := { s.tx with restart := none } }) :
    exec .modeChangeLoad s =
      .next (answerLate r.late (done 0x0503 r.hdr) (txAdvance 9 (txStream (startTx (boundaryNow s) s0)))) := by
  have hown : ownStop s = false := by simp only [ownStop, hch]
  simp only [exec, execModeChangeLoad, ht, if_true, hch, finishRestarts, hr, hfe, decide_eq_true hdue, hcur, htx, hown,
    Bool.not_false, Bool.and_self, hs0]
  rfl

/-- TX.SAFETY with times in its form is done. -/
theorem exec_txSafety {h : Hdr} {on : Byte} {interval : Half} {pulse : Byte} {s : State} (ha : admitted 0x0505 s = .accept)
    (hv : on.toNat ≤ 1 ∧ (interval = 0 ∨ (60 ≤ interval.toNat ∧ interval.toNat ≤ 300)) ∧ pulse.toNat ≤ 4) :
    exec (.txSafety h on interval pulse) s = .next (done 0x0505 h (txSafetyApply on interval pulse s)) := by
  obtain ⟨h1, h2, h3⟩ := hv
  simp only [exec, execTxSafety, command_accept ha]
  rw [guarded_pass]
  simp only [txSafetyCheck, firstFail_cons, firstFail_nil, Bool.and_eq_true, Bool.or_eq_true, decide_eq_true_eq]
  rw [if_neg (by omega), if_neg, if_neg (by omega)]
  rintro ⟨hn, hb⟩
  rcases h2 with h2 | h2
  · exact hn h2
  · omega

/-- R199: when the shutdown ends, the output of BLANK lights again where light is allowed. -/
theorem alsStop_st {s : State} (hst : s.tx.st = .blank) (hal : s.tx.als = false) (hcur : s.line.cur.isSome = true)
    (hf : s.tx.freqSet = true) (hr : s.tx.request = 1) (hch : s.line.txChain = true) (hd : domWorks .opt s = true) :
    (alsStop s).tx.st = (if s.tx.converged = 0x3F then .lit else .null) := by
  have hl : litAllowed { s with tx := { s.tx with alsPulsing := false } } = true := by
    simp only [litAllowed, alsBlanks, hcur, hf, hr, hch, hal, decide_true, Bool.false_and, Bool.not_false, Bool.true_or, Bool.and_self,
      Bool.true_and]
    exact hd
  rw [alsStop, alsLight, if_pos ⟨hst, hl⟩]
  split <;> rw [txMove_tx, txMoved_st]

/-- Settles O29: the settings of shaping with the stop and the start of the chain, the shutdown's times, and the two reports. -/
theorem transmitCommands : Obligations.TransmitCommands := by
  unfold Obligations.TransmitCommands
  refine ⟨?_, ?_, ?_, fun r s s0 ht hch hcur htx hr hfe hdue hs0 => exec_modeChangeLoad_tx ht hch hcur htx hr hfe hdue hs0, ?_, ?_, ?_⟩
  · intro h beta flags cd scale clip s ha hc hb
    rw [exec_txShaping ha hc hb (fun h01 => absurd h01 (by decide : ¬ (0 : Byte) = 1)), if_pos (Or.inl rfl)]
    rfl
  · intro h beta flags cd scale clip s ha hc hb hch hcur
    refine ⟨_, by rw [exec_txShaping ha hc hb (fun _ => hcur), if_neg (by simp [hch])], ?_⟩
    obtain ⟨hst, hrq⟩ := txNull_kept 9 (txShapingApply beta flags cd scale clip s)
    refine ⟨rfl, ?_, ?_, txNull_st 9 _, ?_⟩
    · by_cases hq : s.q.acting = some true <;> simp [hq]
    · exact (congrArg Shaping.beta hst).trans rfl
    · exact hrq.trans rfl
  · intro h beta action flags cd scale clip st s ha hc
    simp only [exec, execTxShaping, command_accept ha]
    rw [guarded_fail (firstFail_append_some hc _)]
  · intro h on interval pulse s s1 ha hs1
    refine ⟨fun hv => ⟨fun hx => ?_, fun hon hlos hal hst => ?_, fun hon hal hst hcur hf hr hch hd => ?_⟩, fun hv => ?_⟩
    · rw [exec_txSafety ha hv]
      congr 2
      rcases hx with ⟨rfl, hk⟩ | ⟨rfl, hk⟩
      · rw [txSafetyApply, if_pos rfl, if_neg (by rcases hk with hk | hk <;> simp [hk]), hs1]
      · rw [txSafetyApply, if_neg (by decide), if_neg (by simp [hk]), hs1]
    · refine ⟨_, exec_txSafety ha hv, ?_⟩
      rw [txSafetyApply, if_pos hon, if_pos (by simp [hlos, hal])]
      simp [alsStart, hon, txBlank, hst]
      rfl
    · refine ⟨_, exec_txSafety ha hv, ?_⟩
      rw [txSafetyApply, if_neg (by simp [hon]), if_pos hal]
      refine (alsStop_st ?_ ?_ ?_ ?_ ?_ ?_ ?_).trans rfl
      · exact hst
      · exact decide_eq_false (by rw [hon]; decide)
      · exact hcur
      · exact hf
      · exact hr
      · exact hch
      · exact hd
    · simp only [exec, execTxSafety, command_accept ha]
      rw [guarded_fail (firstFail_of_any (st := .badArg) (by simp [txSafetyCheck]) ?_)]
      simp only [txSafetyCheck, List.any_cons, List.any_nil, Bool.or_false, Bool.or_eq_true, Bool.and_eq_true, decide_eq_true_eq]
      by_contra hn
      refine hv ⟨by omega, ?_, by omega⟩
      by_cases hi : interval = 0
      · exact .inl hi
      · exact .inr (by simp only [ne_eq, hi, not_false_eq_true, true_and] at hn; omega)
  · intro h s ha
    exact ⟨_, by simp only [exec, execTxStatus, command_accept ha]; rfl, by simp, by simp, by simp, by simp, by simp, by simp, by simp,
      by simp, by simp⟩
  · intro h ch s ha hch hb
    simp only [exec, execTxSlices, command_accept ha]
    rw [guarded_pass]
    simp [hb, hch]

end Sys2Proof.Machine
end


section
/-! O30. The optical states and the automatic shutdown. -/
namespace Sys2Proof.Machine

open Sys2Proof

@[simp] theorem notify_aonRegs (e c : Half) (b : Option Bool) (d : List Byte) (s : State) :
    (notify e c b d s).aon.shut = s.aon.shut ∧ (notify e c b d s).aon.coppice = s.aon.coppice ∧
    (notify e c b d s).aon.vinOk = s.aon.vinOk ∧ (notify e c b d s).aon.supplyArmed = s.aon.supplyArmed ∧
    (notify e c b d s).aon.valid = s.aon.valid ∧ (notify e c b d s).aon.code = s.aon.code ∧
    (notify e c b d s).hif.rqTail = s.hif.rqTail := by
  simp [notify]

@[simp] theorem logEntry_aonRegs (t : Nat) (c : Half) (e : Option Half) (d : List Byte) (s : State) :
    (logEntry t c e d s).aon.shut = s.aon.shut ∧ (logEntry t c e d s).aon.coppice = s.aon.coppice ∧
    (logEntry t c e d s).aon.vinOk = s.aon.vinOk ∧ (logEntry t c e d s).aon.supplyArmed = s.aon.supplyArmed ∧
    (logEntry t c e d s).aon.valid = s.aon.valid ∧ (logEntry t c e d s).aon.code = s.aon.code ∧
    (logEntry t c e d s).aon.wakeSrc = s.aon.wakeSrc ∧ (logEntry t c e d s).aon.wakeEn = s.aon.wakeEn ∧
    (logEntry t c e d s).aon.timer = s.aon.timer := by
  rw [logEntry_aon]
  exact ⟨rfl, rfl, rfl, rfl, rfl, rfl, rfl, rfl, rfl⟩

/-- Whether light is allowed does not depend on the optical state (R198, R199). -/
@[simp] theorem litAllowed_txMove (st : Opt) (r : Nat) (q : Bool) (s : State) : litAllowed (txMove st r q s) = litAllowed s := by
  simp [litAllowed, alsBlanks, domWorks]

@[simp] theorem txMoveAt_aonShut (b : Lts) (st : Opt) (r : Nat) (q : Bool) (s : State) : (txMoveAt b st r q s).aon.shut = s.aon.shut := by
  unfold txMoveAt
  dsimp only
  split
  · rfl
  · split <;> simp

/-- R192: what a lock leaves before the optical state moves. -/
def locked (s : State) : State := { s with tx := { s.tx with
  freq := laserMhz s.tx.grid s.tx.fine, rampAt := s.time.wardenNs, alsFrom := if alsBlanks s then s.time.lts.sf else s.tx.alsFrom } }

/-- R196: a lock in TUNING leaves for BLANK. -/
theorem exec_laserLock {s : State} (hst : s.tx.st = .tuning) (hb : atBoundary s = true) (hd : domWorks .opt s = true)
    (ht : taskHeld .laser s = false) : exec .laserLock s = .next (
      if litAllowed s then txMove .null 2 false { txMove .blank 2 false (locked s) with
        tx := { (txMove .blank 2 false (locked s)).tx with converged := 0, tuneFrom := (txMove .blank 2 false (locked s)).time.lts.sf } }
      else txMove .blank 2 false (locked s)) := by
  have hl : litAllowed (locked s) = litAllowed s := rfl
  simp only [exec, execLaserLock]
  rw [if_pos ⟨hst, hb, hd, by rw [ht]; rfl⟩]
  rw [txAdvance_blank (by simp), litAllowed_txMove]
  rfl

/-- R188: when the loops converge in NULL, the last of them lets the output light where light is allowed. -/
theorem exec_biasConverged {loops : BitVec 6} {s : State} (hst : s.tx.st = .null) (hb : atBoundary s = true)
    (hd : domWorks .opt s = true) (ht : taskHeld .bias s = false) : exec (.biasConverged loops) s = .next (
      if litAllowed s = true ∧ s.tx.converged ||| loops = 0x3F then
        txMove .lit s.tx.reason s.tx.alsPulsing { s with tx := { s.tx with converged := s.tx.converged ||| loops } }
      else { s with tx := { s.tx with converged := s.tx.converged ||| loops } }) := by
  simp only [exec, execBiasConverged]
  rw [if_pos ⟨hst, hb, hd, by rw [ht]; rfl⟩]
  simp only [Bool.and_eq_true, decide_eq_true_eq]
  rfl

theorem alsLight_kept (q : Bool) (s : State) : (alsLight q s).tx.alsPulsing = s.tx.alsPulsing ∧
    (alsLight q s).tx.alsFrom = s.tx.alsFrom := by
  unfold alsLight
  split
  · split <;> simp
  · exact ⟨rfl, rfl⟩

/-- R199: the output of BLANK lights again where light is allowed. -/
theorem alsLight_st (q : Bool) {s : State} (hst : s.tx.st = .blank) (hl : litAllowed s = true) :
    (alsLight q s).tx.st = (if s.tx.converged = 0x3F then .lit else .null) := by
  rw [alsLight, if_pos ⟨hst, hl⟩]
  split <;> rw [txMove_tx, txMoved_st]

/-- R189: an alarm whose condition holds is given, 16,384 superframes after the last at the earliest. -/
theorem exec_biasConvergeLimit {loop : BitVec 3} {drift : Bool} {last : Option Sf} {s : State} (ht : ticking s = true)
    (hlast : s.tx.alarmed[loop.toNat]? = some last) (hdue : ∀ a, last = some a → 16384 ≤ sfSince a s)
    (hh : (if drift then drifted loop.toNat s
      else decide (s.tx.st = .null) && !s.tx.converged.getLsbD loop.toNat && decide (2048 ≤ sfSince s.tx.tuneFrom s)) = true) :
    exec (.biasConvergeLimit loop drift) s =
      .next (notify 0x0503 (BitVec.ofNat 16 loop.toNat) none (ev [fld 20 1 drift.toNat]) { s with
        tx := { s.tx with
          alarmed := s.tx.alarmed.set loop.toNat (some s.time.lts.sf), reason := if drift then s.tx.reason else 7 } }) := by
  simp only [exec, execBiasConvergeLimit, hlast, ht, hh]
  cases last with
  | none => rfl
  | some a => simp only [decide_eq_true (hdue a rfl), Bool.and_self, if_true]

/-- Settles O30: the guard of each event, and the move that it makes. -/
theorem opticalEvents : Obligations.OpticalEvents := by
  unfold Obligations.OpticalEvents
  refine ⟨?_, ?_, ?_, ?_, ?_, ?_⟩
  · intro s hst hb hd ht
    refine ⟨fun hl => ⟨_, by rw [exec_laserLock hst hb hd ht, if_neg (by simp [hl])], by simp⟩, fun hl => ?_⟩
    exact ⟨_, by rw [exec_laserLock hst hb hd ht, if_pos hl], by simp, by simp⟩
  · intro loops s hst hb hd ht
    refine ⟨_, exec_biasConverged hst hb hd ht, ?_, ?_⟩
    · split <;> simp
    · split <;> simp [hst]
  · intro peak s hp hst hv
    refine ⟨_, by simp only [exec, execOverpowerTrip]; rw [if_pos (by simp [hp, hst, hv])], ?_⟩
    simp [txMoved, hst]
  · intro s hb hal hlos hpu hdue hst
    refine ⟨_, by simp only [exec, execAlsPulseStart]; rw [if_pos (by simp [hb, alsBlanks, hal, hlos, hpu, hst, hdue])], ?_⟩
    obtain ⟨hp, hf⟩ := alsLight_kept true { s with tx := { s.tx with alsPulsing := true, alsFrom := s.time.lts.sf } }
    refine ⟨hp, hf, fun hcur hfr hr hch hd => ?_⟩
    refine (alsLight_st true (by exact hst) ?_).trans rfl
    simp [litAllowed, hcur, hfr, hr, hch]
    exact hd
  · intro s hb hpu hdue hst
    simp only [exec, execAlsPulseEnd]
    rw [if_pos (by simp [hb, hpu, hdue])]
    simp [txBlank, hst, txMove, txMoveAt]
  · intro loop last s ht hlast hdue
    refine ⟨fun a hst hb ha => ?_, fun hst hc ha => ?_⟩
    · rw [exec_biasConvergeLimit ht hlast hdue (by simp only [drifted, hst, hb, ha, decide_true, Bool.and_self, if_true])]
      rfl
    · rw [exec_biasConvergeLimit ht hlast hdue
        (by simp only [Bool.false_eq_true, if_false, hst, hc, ha, decide_true, Bool.not_false, Bool.and_self])]
      rfl

end Sys2Proof.Machine
end


section
/-! O31, O32. The decoder: its search, the loss of its alignment, the codewords that it delivers, and its commands. -/
namespace Sys2Proof.Machine

open Sys2Proof

/-! ### The decoder's events -/

/-- R210: the lowest fraction stands at the place that is found, and no fraction is below it. -/
theorem lowest_spec : ∀ (fs : List Nat) (k f : Nat), lowest fs = some (k, f) → fs[k]? = some f ∧ ∀ x ∈ fs, f ≤ x := by
  intro fs
  induction fs with
  | nil => intro k f h; cases h
  | cons g t ih =>
    intro k f h
    rw [lowest] at h
    split at h
    next hn =>
      cases h
      have ht : t = [] := by
        cases t with
        | nil => rfl
        | cons a t => rw [lowest] at hn; split at hn <;> [cases hn; (split at hn <;> cases hn)]
      simp [ht]
    next r hr =>
      obtain ⟨hat, hle⟩ := ih r.1 r.2 hr
      split at h
      next hg =>
        cases h
        exact ⟨rfl, List.forall_mem_cons.mpr ⟨le_rfl, fun x hx => hg.trans (hle x hx)⟩⟩
      next hg =>
        cases h
        exact ⟨by simpa using hat, List.forall_mem_cons.mpr ⟨by omega, hle⟩⟩

/-- R210: the state of a decoder that has found its place, before its notification. -/
def fecFound (phase cycle : Nat) (rxSf : Sf) (s : State) : State :=
  framerHunt { s with
    fec := { s.fec with st := 2, phase := phase, cycle := cycle, refSf := rxSf, flight := 0, outIdx := 0,
                        alignedAt := s.time.lts.sf, curSf := rxSf, curCw := 0, curCorr := 0, curUnc := 0 } }

@[simp] theorem fecEvent_tf (st cause : Nat) (s : State) : (fecEvent st cause s).tf = s.tf := by
  unfold fecEvent
  split <;> simp

theorem refreshRaws_tf (s : State) : (refreshRaws s).tf.st = s.tf.st ∧ (refreshRaws s).tf.hunts = s.tf.hunts := ⟨rfl, rfl⟩

/-- R210: the decision of a search, at a boundary after its start. -/
theorem exec_fecAlignDecision {fs : List Nat} {rxSf : Sf} {k f : Nat} {s : State} (hb : atBoundary s = true) (h1 : s.fec.st = 1)
    (h8 : s.eq.st = 8) (hz : zrNow s = false) (hs : s.fec.searchFrom ≠ s.time.lts.sf) (hl : fs.length = 5 * cycleLen s)
    (hlow : lowest fs = some (k, f)) : exec (.fecAlignDecision fs rxSf) s = .next (
      if f < 4200 then refreshRaws (fecEvent 2 s.fec.cause (fecFound (k % 5) (if cycleLen s = 23 then k / 5 else 0xFF) rxSf s))
      else { s with fec := { s.fec with searchFrom := s.time.lts.sf } }) := by
  simp only [exec, execFecAlignDecision]
  rw [if_pos (by simp [hb, h1, h8, hz, hs, hl])]
  simp only [hz, hlow, Bool.false_eq_true, if_false]
  rfl

/-- R213: a codeword of the received superframe being counted is delivered once the window is full. -/
theorem exec_codewordDeliver {c : Codeword} {rx : RxAt} {s : State} (ht : ticking s = true) (h2 : s.fec.st = 2) (hz : zrNow s = false)
    (hl : s.fec.l ≤ s.fec.flight) (hc : c.sf = s.fec.curSf) :
    exec (.codewordDeliver c rx) s = .next (deliverCodeword c (rxStamp rx s) s) := by
  simp only [exec, execCodewordDeliver]
  rw [if_pos (by simp [ht, h2]), if_neg (by simp only [windowLength, hz, Bool.false_eq_true, if_false]; omega), nextSuperframe,
    if_pos hc]

/-- R212: a decoder that loses its alignment searches or stops, counts the loss, and closes the framer. -/
theorem fecDrop_aligned {s : State} (h2 : s.fec.st = 2) (st cause : Nat) : (fecDrop st cause s).fec.st = st ∧
    (fecDrop st cause s).fec.losses = s.fec.losses + 1 ∧ (fecDrop st cause s).tf.st = 0 := by
  simp [fecDrop, framerClose, refreshRawsAt, h2]

/-- Settles O31: the decision of a search, the loss, and the window that fills before a codeword is delivered. -/
theorem decoderEvents : Obligations.DecoderEvents := by
  unfold Obligations.DecoderEvents
  refine ⟨?_, lowest_spec, ?_, ?_, ?_⟩
  · intro fs rxSf k f s hb h1 h8 hz hs hl hlow
    refine ⟨fun hf => ⟨_, by rw [exec_fecAlignDecision hb h1 h8 hz hs hl hlow, if_pos hf], ?_⟩, fun hf => ?_⟩
    · simp [fecFound, framerHunt, refreshRaws_tf]
    · rw [exec_fecAlignDecision hb h1 h8 hz hs hl hlow, if_neg (by omega)]
  · intro fs s hb h2 hz hsf hl hall
    have hguard : (atBoundary s && decide (s.fec.st = 2) && decide (4 ≤ sfSince s.fec.alignedAt s) &&
        (if zrNow s then Config.zrLost fs else decide (fs.length = 4) && fs.all (fun f => decide (4200 < f)))) = true := by
      simp only [hb, h2, hsf, hz, hl, decide_true, Bool.false_eq_true, if_false, Bool.true_and, List.all_eq_true, decide_eq_true_eq]
      exact hall
    refine ⟨_, by simp only [exec, execFecAlignLoss]; rw [if_pos hguard], ?_⟩
    obtain ⟨hst, hlo, htf⟩ := fecDrop_aligned h2 1 1
    exact ⟨hst, hlo, htf⟩
  · intro c rx s ht h2 hz hfl
    simp only [exec, execCodewordDeliver]
    simp [ht, h2, windowLength, hz, hfl]
  · intro c rx s ht h2 hz hl hc
    refine ⟨_, exec_codewordDeliver ht h2 hz hl hc, rfl, fun hi ho => ?_, fun hbad => ?_, rfl⟩
    · have hu : uncorrectable c s = false := by simp [uncorrectable, hz, hi, ho]
      simp [deliverCodeword, hu]
    · have hu : uncorrectable c s = true := by rcases hbad with hbad | hbad <;> simp [uncorrectable, hz, hbad]
      simp [deliverCodeword, hu]

/-! ### The decoder's commands -/

/-- The values that FEC.CONFIG takes (R211, R216). -/
def fecConfigForm (l : Half) (flags : Byte) (deg : Word) (s : State) : Prop :=
  ((l.toNat % 256 = 0 ∧ l.toNat ≤ 4096) ∨ zrNow s = true) ∧ reservedClear flags 3 = true ∧
    (deg = 0 ∨ (100 ≤ deg.toNat ∧ deg.toNat ≤ 500000))

/-- What FEC.CONFIG keeps. -/
def fecConfigured (l : Half) (flags : Byte) (deg : Word) (s : State) : State := { s with fec := { s.fec with
  lSet := if l = 0 ∨ zrNow s = true then s.fec.lSet else l.toNat, notify := flags.getLsbD 1, deg := deg.toNat } }

/-- FEC.CONFIG with values in their form keeps them; with START it searches anew. -/
theorem exec_fecConfig {h : Hdr} {l : Half} {flags : Byte} {deg : Word} {s : State} (ha : admitted 0x0601 s = .accept)
    (hv : fecConfigForm l flags deg s) (hcur : bitOf flags 0 = true → s.line.cur.isSome = true) :
    exec (.fecConfig h l flags deg) s = .next (done 0x0601 h (
      if bitOf flags 0 then fecDrop (if s.line.rxChain then 1 else 0) 3 (fecConfigured l flags deg s)
      else fecConfigured l flags deg s)) := by
  obtain ⟨h1, h2, h3⟩ := hv
  have hz : (!zrNow s && (decide (l.toNat % 256 ≠ 0) || decide (4096 < l.toNat))) = false := by
    rcases h1 with ⟨hm, hl⟩ | hz
    · rw [decide_eq_false (not_not.mpr hm), decide_eq_false (by omega : ¬ 4096 < l.toNat), Bool.or_self, Bool.and_false]
    · rw [hz]; rfl
  have hd : (decide (deg ≠ 0) && (decide (deg.toNat < 100) || decide (500000 < deg.toNat))) = false := by
    rcases h3 with hd | ⟨hlo, hhi⟩
    · rw [decide_eq_false (not_not.mpr hd), Bool.false_and]
    · rw [decide_eq_false (by omega : ¬ deg.toNat < 100), decide_eq_false (by omega : ¬ 500000 < deg.toNat), Bool.or_self, Bool.and_false]
  have hn : (bitOf flags 0 && s.line.cur.isNone) = false := by
    by_cases hb : bitOf flags 0 = true
    · simp [Option.isNone_eq_false_iff.mpr (hcur hb)]
    · simp [hb]
  simp only [exec, execFecConfig, command_accept ha]
  rw [guarded_pass]
  · simp only [fecConfigured, Bool.or_eq_true, decide_eq_true_eq]
    rfl
  · simp only [firstFail_cons, firstFail_nil, hz, h2, hd, hn, Bool.not_true, Bool.false_eq_true, if_false]

theorem exec_fecConfig_bad {h : Hdr} {l : Half} {flags : Byte} {deg : Word} {s : State} (ha : admitted 0x0601 s = .accept)
    (hv : (zrNow s = false ∧ (l.toNat % 256 ≠ 0 ∨ 4096 < l.toNat)) ∨ reservedClear flags 3 = false ∨
      (deg ≠ 0 ∧ (deg.toNat < 100 ∨ 500000 < deg.toNat))) :
    exec (.fecConfig h l flags deg) s = .next (refuse 0x0601 h .badArg s) := by
  simp only [exec, execFecConfig, command_accept ha]
  rw [guarded_fail (st := .badArg)]
  have hb := firstFail_of_any (l := [(!zrNow s && (decide (l.toNat % 256 ≠ 0) || decide (4096 < l.toNat)), St.badArg),
    (!reservedClear flags 3, .badArg), (decide (deg ≠ 0) && (decide (deg.toNat < 100) || decide (500000 < deg.toNat)), .badArg)])
    (st := .badArg) (by simp)
    (by
      simp only [List.any_cons, List.any_nil, Bool.or_false, Bool.or_eq_true, Bool.and_eq_true, decide_eq_true_eq,
        Bool.not_eq_true']
      exact hv)
  exact firstFail_append_some hb [(bitOf flags 0 && s.line.cur.isNone, .badState)]

/-- R217: a search starts with the L that is set. -/
theorem fecDrop_l (st cause : Nat) (s : State) : (fecDrop st cause s).fec.l = s.fec.lSet := by
  have he : ∀ u : State, (fecEvent st cause u).fec = u.fec := fun u => (fecEvent_eq st cause u).2
  unfold fecDrop framerClose refreshRawsAt
  dsimp only
  split <;> simp

theorem flags_notify_only {flags : Byte} (hf : flags &&& 0xFD = 0) : bitOf flags 0 = false ∧ reservedClear flags 3 = true := by
  revert flags
  decide

/-- Settles O32, by the checks of the cards. -/
theorem decoderCommands : Obligations.DecoderCommands := by
  unfold Obligations.DecoderCommands
  refine ⟨fun h l flags deg s ha => ⟨fun hl hf hd => ?_, fun hbad => ?_⟩, fun h s ha hcur hrx => ?_, fun h s ha => ?_, fun h s ha => ⟨?_, ?_⟩,
    fun h ber s ha hcur => ⟨fun h1 h5 => ?_, ?_⟩⟩
  · obtain ⟨hb0, hr⟩ := flags_notify_only hf
    rw [exec_fecConfig ha ⟨hl, hr, hd⟩ (by simp [hb0]), hb0]
    rfl
  · refine exec_fecConfig_bad ha ?_
    rcases hbad with hb | hb | hb
    · exact .inl hb
    · exact .inr (.inl (decide_eq_false hb))
    · exact .inr (.inr hb)
  · refine ⟨_, by rw [exec_fecConfig ha ⟨.inl (by decide), by decide, .inl rfl⟩ (fun _ => hcur), if_pos (by decide)], ?_, ?_⟩
    · rw [hrx, if_pos rfl, (fecDrop_eq _ _ _).2]
    · rw [fecDrop_l]
      rfl
  · refine ⟨_, by simp only [exec, execFecStatus, command_accept ha]; rfl, ?_⟩
    simp
  · simp only [exec, execFecCounters, command_accept ha]
    rw [guarded_pass (by decide)]
    rfl
  · simp only [exec, execFecCounters, command_accept ha]
    rw [guarded_pass (by decide)]
    rfl
  · have h0 : ¬ ber = 0 := by rintro rfl; exact absurd h1 (by decide)
    simp only [exec, execFecInject, command_accept ha]
    rw [guarded_pass]
    · rfl
    · simp only [firstFail_cons, firstFail_nil, h0, decide_eq_false (by omega : ¬ 500000 < ber.toNat),
        Option.isNone_eq_false_iff.mpr hcur, decide_false, Bool.or_self, Bool.and_false, Bool.false_eq_true, if_false]
      rfl
  · simp only [exec, execFecInject, command_accept ha]
    rw [guarded_pass]
    · rfl
    · simp only [firstFail_cons, firstFail_nil, Option.isNone_eq_false_iff.mpr hcur, Bool.false_eq_true, if_false]
      rfl

end Sys2Proof.Machine
end


section
/-! O33, O34. The framer: the overheads and frames that it receives, the frames that it sends, and the integration of the
defects. -/
namespace Sys2Proof.Machine

open Sys2Proof

/-! ### Defects -/

/-- R236: a level that stands counts as held once the time is over. -/
@[simp] theorem heldFor_same {b : Bool} {n : Nat} {i : Integ} {s : State} (hr : i.raw = b) :
    heldFor b n i s = decide (i.since.toNat + n ≤ s.time.lts.toNat) := by
  simp [heldFor, hr]

/-- R236: and so for a run. -/
@[simp] theorem ranFor_same {b : Bool} {n : Nat} {i : Integ} (hr : i.raw = b) : ranFor b n i = decide (n ≤ i.run) := by
  simp [ranFor, hr]

/-- R29, R236: a defect that does not integrate stays as it is. -/
theorem exec_defect_idle {d : Defect} {s : State} (h : integrates d s = false) :
    exec (.defectSet d) s = .next s ∧ exec (.defectClear d) s = .next s := by
  simp [exec, execDefectSet, execDefectClear, h]

theorem exec_defect {d : Defect} {s : State} (h : integrates d s = true) :
    exec (.defectSet d) s = .next ((setsAt d s).elim s fun t => defectFollow d true t (moveDefect d true t s)) ∧
    exec (.defectClear d) s = .next ((clearsAt d s).elim s fun t => defectFollow d false t (moveDefect d false t s)) := by
  simp only [exec, execDefectSet, execDefectClear, h, if_true]
  exact ⟨by cases setsAt d s <;> rfl, by cases clearsAt d s <;> rfl⟩

/-- The task whose engine integrates a defect (R26). -/
def defectTask : Defect → Task
  | .ref _ => .references
  | _ => .framing

theorem integrates_eq (d : Defect) (s : State) :
    integrates d s = (!s.dbg.frozen && defectExists d s && !taskHeld (defectTask d) s) := by
  cases d <;> rfl

theorem integrates_not {d : Defect} {s : State} (h : s.dbg.frozen = true ∨ defectExists d s = false ∨
    taskHeld (defectTask d) s = true) : integrates d s = false := by
  rw [integrates_eq]
  rcases h with h | h | h <;> simp [h]

/-- Settles O34: what each row of the table of defects waits for. -/
theorem defectIntegration : Obligations.DefectIntegration := by
  unfold Obligations.DefectIntegration
  refine ⟨?_, fun d s h => exec_defect_idle (integrates_not ?_), ?_, ?_, ?_, ?_, ?_, ?_, ?_, ?_, ?_, ?_, ?_, ?_, ?_, ?_, ?_, ?_, ?_, ?_⟩
  · intro d s h
    obtain ⟨hset, hclear⟩ := exec_defect h
    refine ⟨fun t ht => ?_, fun ht => ?_, fun t ht => ?_, fun ht => ?_⟩
    · rw [hset, ht]; rfl
    · rw [hset, ht]; rfl
    · rw [hclear, ht]; rfl
    · rw [hclear, ht]; rfl
  · cases d <;> exact h
  · intro s hs hr
    refine ⟨fun h => ⟨?_, ?_⟩, fun h => ?_⟩
    · simp [setsAt, integOf, hs, hr, sfSymbols, h, endOf]
    · simp [moveDefect, putDefect]
    · simp [setsAt, integOf, hs, hr, sfSymbols, h]
  · intro s hs hr
    simp [setsAt, integOf, hs, hr, sfSymbols]
  · intro s hs hr
    simp [setsAt, integOf, hs, hr, sfSymbols]
  · intro s hs hr
    simp [setsAt, integOf, hs, hr, lofSymbols]
  · intro s hs hr
    simp [setsAt, integOf, hs, hr]
  · intro s hs hr
    simp [setsAt, integOf, hs, hr]
  · intro s hs hr
    simp [setsAt, integOf, hs, hr]
  · intro s hs hr h3
    simp [setsAt, integOf, hs, hr, h3]
  · intro i x s hx h3
    refine ⟨fun hs hr => ?_, fun hs hr => ?_, fun hs hr => ?_, fun hs hr => ?_⟩
    · simp [setsAt, integOf, hx, hs, hr, h3]
    · simp [setsAt, integOf, hx, hs, hr, h3]
    · simp [clearsAt, integOf, hx, hs, hr, h3]
    · simp [clearsAt, integOf, hx, hs, hr, h3]
  · intro i x s hx
    refine ⟨fun hs hr => ?_, fun hs hr => ?_, fun hs hr => ?_, fun hs hr => ?_⟩
    · simp [setsAt, integOf, hx, hs, hr]
    · simp [clearsAt, integOf, hx, hs, hr]
    · simp [setsAt, integOf, hx, hs, hr]
    · simp [clearsAt, integOf, hx, hs, hr]
  · intro s hs hr
    simp [clearsAt, integOf, hs, hr, sfSymbols]
  · intro s hs
    simp [clearsAt, integOf, hs]
  · intro s hs hr
    simp [clearsAt, integOf, hs, hr]
  · intro s hs hr
    simp [clearsAt, integOf, hs, hr]
  · intro s hs hr ho
    simp [clearsAt, integOf, hs, hr, ho, lofSymbols]
  · intro s hs hr
    simp [clearsAt, integOf, hs, hr]
  · intro s hs hr
    simp [clearsAt, integOf, hs, hr]
  · intro s hs hr h3
    simp [clearsAt, integOf, hs, hr, h3]


/-! ### The overhead of a superframe -/

/-- R232: the judgement of the candidates leaves what the overheads have told. -/
theorem judgeCands_kept (t : Lts) (s : State) : (judgeCands t s).tf.fbytes = s.tf.fbytes ∧ (judgeCands t s).tf.usable = s.tf.usable ∧
    (judgeCands t s).tf.fnext = s.tf.fnext ∧ (judgeCands t s).tf.ptr = s.tf.ptr ∧ (judgeCands t s).tf.base = s.tf.base ∧
    (judgeCands t s).tf.rxSf = s.tf.rxSf ∧ (judgeCands t s).tf.sfohFails = s.tf.sfohFails := by
  unfold judgeCands
  dsimp only
  split
  · exact ⟨rfl, rfl, rfl, rfl, rfl, rfl, rfl⟩
  · split
    · exact ⟨rfl, rfl, rfl, rfl, rfl, rfl, rfl⟩
    · exact ⟨rfl, rfl, rfl, rfl, rfl, rfl, rfl⟩

/-- R225: a received overhead of 16 bytes is taken. -/
theorem exec_sfohReceive {bytes : List Byte} {rxSf : Sf} {s : State} (ht : ticking s = true) (hm : slotModeNow s = true)
    (h2 : s.fec.st = 2) (hl : bytes.length = 16) : exec (.sfohReceive bytes rxSf) s = .next (judgeCands s.time.lts { s with
      tf := sfohTake bytes rxSf (sfohCheck bytes && !bitsMarked rxSf 0 128 s) s.tf }) := by
  simp only [exec, execSfohReceive]
  rw [if_pos (by simp [ht, hm, h2, hl])]

/-! ### Keeping the frame -/

/-- R230: what a tributary takes of a frame leaves the framer. -/
theorem tribTake_tf (t : Trib) (tfn : Word) (pos : Nat) (table : List (List Byte)) (at_ : Lts) (s : State) :
    (tribTake t tfn pos table at_ s).tf = s.tf := by
  have hjo : ∀ bp, (settleJo t pos tfn bp s).tf = s.tf := by
    intro bp
    unfold settleJo
    split <;> rfl
  unfold tribTake
  dsimp only
  split <;> simp only [modTrib, hjo]

theorem tribTakes_tf (tfn : Word) (pos : Nat) (table : List (List Byte)) (at_ : Lts) : ∀ (ts : List Trib) (s : State),
    (ts.foldl (fun s t => tribTake t tfn pos table at_ s) s).tf = s.tf
  | [], _ => rfl
  | t :: ts, s => by rw [List.foldl_cons, tribTakes_tf tfn pos table at_ ts, tribTake_tf]

/-- R231: the framer after a frame at the expected position. -/
def frameTaken (x : TfRx) (ok marked : Bool) (at_ : Lts) (f : Tf) : Tf :=
  let next := { f with pos := f.pos + 65536, tfn := f.tfn + 1 }
  if marked then next
  else if ok && decide (headerTfn x.header = f.tfn) then
    { next with
      badRun := 0, rxMode := byteAt x.header 4, rxTfn := headerTfn x.header, rxSfc := x.sfc,
      rxDiff := x.sfc - at_.sf, bdi := runLevel 5 (bitOf (byteAt x.header 8) 0) at_ f.bdi }
  else { next with badRun := f.badRun + 1, bad := f.bad + 1 }

theorem frameTaken_good {x : TfRx} {at_ : Lts} {f : Tf} (h : headerTfn x.header = f.tfn) : frameTaken x true false at_ f = { f with
    pos := f.pos + 65536, tfn := f.tfn + 1, badRun := 0, rxMode := byteAt x.header 4, rxTfn := headerTfn x.header, rxSfc := x.sfc,
    rxDiff := x.sfc - at_.sf, bdi := runLevel 5 (bitOf (byteAt x.header 8) 0) at_ f.bdi } := by
  simp [frameTaken, h]

theorem frameTaken_bad {x : TfRx} {ok : Bool} {at_ : Lts} {f : Tf} (h : ok = false ∨ headerTfn x.header ≠ f.tfn) :
    frameTaken x ok false at_ f = { f with pos := f.pos + 65536, tfn := f.tfn + 1, badRun := f.badRun + 1, bad := f.bad + 1 } := by
  rcases h with h | h <;> simp [frameTaken, h]

theorem frameTake_eq (x : TfRx) (ok marked : Bool) (at_ : Lts) (s : State) : frameTake x ok marked at_ s =
    if 3 ≤ (frameTaken x ok marked at_ s.tf).badRun then loseFrame at_ { s with tf := frameTaken x ok marked at_ s.tf }
    else refreshTribs (s.tribs.foldl (fun u t => tribTake t s.tf.tfn x.pos x.table at_ u)
      { s with tf := frameTaken x ok marked at_ s.tf }) := by
  unfold frameTake frameTaken
  cases marked
  · by_cases hg : (ok && decide (headerTfn x.header = s.tf.tfn)) = true
    · simp only [hg, if_true, Bool.false_eq_true, if_false]
    · simp only [hg, Bool.false_eq_true, if_false]
  · rfl

/-- R231: fewer than three bad headers in a row keep the frame. -/
theorem frameTake_keeps {x : TfRx} {ok marked : Bool} {at_ : Lts} {s : State} (h : (frameTaken x ok marked at_ s.tf).badRun < 3) :
    (frameTake x ok marked at_ s).tf = frameTaken x ok marked at_ s.tf := by
  rw [frameTake_eq, if_neg (by omega), refreshTribs, refreshTribsAt, tribTakes_tf]

/-- R231: the third bad header in a row loses it. -/
theorem frameTake_loses {x : TfRx} {ok marked : Bool} {at_ : Lts} {s : State} (h : 3 ≤ (frameTaken x ok marked at_ s.tf).badRun)
    (hst : (frameTaken x ok marked at_ s.tf).st = 3) : (frameTake x ok marked at_ s).tf.st = 1 ∧
      (frameTake x ok marked at_ s).tf.oofCause = 0 ∧
      (frameTake x ok marked at_ s).tf.hunts = (frameTaken x ok marked at_ s.tf).hunts + 1 ∧
      (frameTake x ok marked at_ s).tf.bad = (frameTaken x ok marked at_ s.tf).bad := by
  rw [frameTake_eq, if_pos h]
  simp [loseFrame, refreshTribs, refreshTribsAt, refreshRawsAt, framerHunt, framerClose, hst]

theorem exec_tfHeaderReceive {m : LMode} {f : TfRx} {rx : RxAt} {s : State} (hm : s.line.cur = some m) (hz : isZr m = false)
    (ht : ticking s = true) (h2 : s.fec.st = 2) (hl : f.header.length = 16) (h3 : s.tf.st = 3) :
    exec (.tfHeaderReceive f rx) s = .next (if f.pos = s.tf.pos then
      frameTake f (headerPasses m.code f.header) (bytesMarked f.pos 16 s) (rxStamp rx s) s else s) := by
  simp only [exec, execTfHeaderReceive, hm, hz, ht, h2, hl, h3, decide_true, Bool.and_self, Bool.false_eq_true, if_false, if_true]

/-! ### Sending -/

theorem framerBytes_mono (m : LMode) (k : Nat) : framerBytes m k ≤ framerBytes m (k + 1) := by
  unfold framerBytes
  gcongr
  omega

/-- R223: the frame bytes of the superframes since the first are those that the stream has given. -/
theorem fbytes_sum (m : LMode) (origin : Lts) (k : Nat) :
    (List.range k).foldl (fun a i => a + fbytesOf m origin (origin.sf.toNat + i)) 0 = framerBytes m k := by
  induction k with
  | zero => simp [framerBytes]
  | succ k ih =>
    have hm := framerBytes_mono m k
    rw [List.range_succ, List.foldl_append, ih, List.foldl_cons, List.foldl_nil, fbytesOf, if_neg (by omega),
      show origin.sf.toNat + k + 1 - origin.sf.toNat = k + 1 by omega, show origin.sf.toNat + k - origin.sf.toNat = k by omega]
    omega

theorem beBytes_four (v : Nat) : ∃ a b c d, beBytes 4 v = [a, b, c, d] := ⟨_, _, _, _, rfl⟩

theorem beBytes_three (v : Nat) : ∃ a b c, beBytes 3 v = [a, b, c] := ⟨_, _, _, rfl⟩

/-- R223, R229: the first 16 bytes of a frame are its number, the mode, the key phases, the backward indication and their check. -/
theorem txOverhead_head (m : LMode) (fills : List ClientFill) (s : State) :
    (txOverhead m fills s).take 4 = beBytes 4 s.tf.txTfn.toNat ∧ byteAt (txOverhead m fills s) 4 = m.code ∧
    byteAt (txOverhead m fills s) 8 = boolByte (sendBdi s) ∧
    ((txOverhead m fills s).drop 12).take 4 = leBytes 4 (check0 ((txOverhead m fills s).take 12)) := by
  unfold txOverhead txHeader
  have h4 := beBytes_four s.tf.txTfn.toNat
  have h3 := beBytes_three (keyPhases s)
  generalize beBytes 4 s.tf.txTfn.toNat = a at h4
  generalize beBytes 3 (keyPhases s) = b at h3
  obtain ⟨a0, a1, a2, a3, rfl⟩ := h4
  obtain ⟨b0, b1, b2, rfl⟩ := h3
  refine ⟨rfl, rfl, rfl, ?_⟩
  rfl

/-- What a sent frame leaves. -/
def sentFrame (m : LMode) (fills : List ClientFill) (s : State) : State := { s with
  tf := { s.tf with
    txHead := txOverhead m fills s, txFrame := txFrameBytes (txOverhead m fills s) fills s, txBdi := sendBdi s,
    txLast := s.tf.txTfn, txTfn := s.tf.txTfn + 1, txCount := s.tf.txCount + 1, txSf := s.time.lts.sf,
    txFbytes := fbytesOf m s.tf.origin s.time.lts.sf.toNat, txFnext := fbytesOf m s.tf.origin (s.time.lts.sf.toNat + 1),
    txTsp := tspOf m s.tf.origin s.time.lts.sf.toNat,
    txSfoh := sfohBytes (fbytesOf m s.tf.origin s.time.lts.sf.toNat) (fbytesOf m s.tf.origin (s.time.lts.sf.toNat + 1))
      (tspOf m s.tf.origin s.time.lts.sf.toNat) m.code },
  tribs := s.tribs.map (txTake m fills s),
  hl := { s.hl with ports := s.hl.ports.map (ingressTake fills s) },
  fec := { s.fec with injectPos := s.fec.injectPos +
    if s.fec.inject && decide (s.tf.txSf ≠ s.time.lts.sf) then superframeSymbols * baseBits m.base else 0 } }

theorem exec_tfTransmit {m : LMode} {fills : List ClientFill} {s : State} (hm : s.line.cur = some m) (hz : isZr m = false)
    (hsl : isSlotMode m = true) (hd : tfDue s = true) (hch : s.line.txChain = true) :
    exec (.tfTransmit fills) s = .next (sentFrame m fills s) := by
  simp only [exec, execTfTransmit, hm, hz, hd, Bool.false_eq_true, if_false, if_true, txStream, hch, hsl, Bool.and_self, sentFrame]

/-- A sent frame writes the framer's side of the line, the tributaries, their ports and the injection's place. -/
theorem sentFrame_same (m : LMode) (fills : List ClientFill) (s : State) : sentFrame m fills s = { s with
    tf := { s.tf with
      txHead := (sentFrame m fills s).tf.txHead, txFrame := (sentFrame m fills s).tf.txFrame, txBdi := sendBdi s,
      txLast := (sentFrame m fills s).tf.txLast, txTfn := (sentFrame m fills s).tf.txTfn, txCount := s.tf.txCount + 1,
      txSf := (sentFrame m fills s).tf.txSf, txFbytes := (sentFrame m fills s).tf.txFbytes,
      txFnext := (sentFrame m fills s).tf.txFnext, txTsp := (sentFrame m fills s).tf.txTsp,
      txSfoh := (sentFrame m fills s).tf.txSfoh },
    tribs := (sentFrame m fills s).tribs, hl := { s.hl with ports := (sentFrame m fills s).hl.ports },
    fec := { s.fec with injectPos := (sentFrame m fills s).fec.injectPos } } := by
  simp only [sentFrame]

/-- Settles O33: the header's place and the bytes of a superframe follow from what the overhead and the sent frame write. -/
theorem transportFrames : Obligations.TransportFrames := by
  unfold Obligations.TransportFrames
  refine ⟨?_, ?_, ?_, ?_, fbytes_sum, ?_⟩
  · intro bytes rxSf ok s ht hm h2 hl hok
    have hok' : (sfohCheck bytes && !bitsMarked rxSf 0 128 s) = ok := by
      rw [Bool.eq_iff_iff, Bool.and_eq_true, Bool.not_eq_true', hok]
    obtain ⟨hfb, hus, hfn, hpt, hba, hsf, hfa⟩ := judgeCands_kept s.time.lts { s with tf := sfohTake bytes rxSf ok s.tf }
    refine ⟨_, by rw [exec_sfohReceive ht hm h2 hl, hok'], ?_⟩
    rw [hfb, hus, hfn, hpt, hba, hsf, hfa]
    refine ⟨fun h => ?_, fun h => ?_, rfl, rfl, rfl⟩
    · simp [sfohTake, h]
    · simp [sfohTake, h]
  · intro m f rx s hm hz ht h2 hl h3
    rw [exec_tfHeaderReceive hm hz ht h2 hl h3]
    refine ⟨fun hp => by rw [if_neg hp], fun hp hmk hok htfn => ?_, fun hp hmk hbad => ?_, fun hp hmk hrun => ?_⟩
    · have hk := frameTaken_good (at_ := rxStamp rx s) htfn
      rw [if_pos hp, hmk, hok]
      refine ⟨_, rfl, ?_⟩
      rw [frameTake_keeps (by rw [hk]; exact (by decide : 0 < 3)), hk]
      exact ⟨h3, rfl, rfl, rfl, htfn, rfl⟩
    · have hk := frameTaken_bad (x := f) (ok := headerPasses m.code f.header) (at_ := rxStamp rx s) (f := s.tf) hbad
      rw [if_pos hp, hmk]
      refine ⟨_, rfl, ?_⟩
      by_cases hr : 2 ≤ s.tf.badRun
      · obtain ⟨hst, ho, hh, hbd⟩ := frameTake_loses (x := f) (ok := headerPasses m.code f.header) (marked := false)
          (at_ := rxStamp rx s) (s := s) (by rw [hk]; exact Nat.succ_le_succ hr) (by rw [hk]; exact h3)
        rw [hst, ho, hh, hbd, hk]
        exact ⟨rfl, fun _ => ⟨rfl, rfl, rfl⟩, fun hlt => absurd hr (by omega)⟩
      · rw [frameTake_keeps (by rw [hk]; exact Nat.succ_lt_succ (by omega)), hk]
        exact ⟨rfl, fun hge => absurd hge hr, fun _ => ⟨h3, rfl⟩⟩
    · rw [if_pos hp, hmk]
      refine ⟨_, rfl, ?_⟩
      rw [frameTake_keeps (by exact hrun)]
      exact ⟨h3, rfl, rfl, rfl⟩
  · intro m fills s hm hz hsl
    refine ⟨fun hd => ?_, fun hd => ?_⟩
    · have hch : s.line.txChain = true := by
        simp only [tfDue, Bool.and_eq_true] at hd
        exact hd.1.1.2
      obtain ⟨h4, hc, hb, hk⟩ := txOverhead_head m fills s
      refine ⟨_, by rw [exec_tfTransmit hm hz hsl hd hch], rfl, rfl, h4, hc, hb, hk, rfl, rfl, rfl,
        sentFrame_same m fills s⟩
    · simp only [exec, execTfTransmit, hm, hz, hd, Bool.false_eq_true, if_false]
  · intro s
    simp [tfDue, and_assoc]
  · intro m fills s hm hz ht hch
    simp only [exec, execTfTransmit, hm, hz, ht, hch, Bool.and_self, if_true]

end Sys2Proof.Machine
end


section
/-! O35, O36, O37. The tributaries: the rules of their table, their commands, and what a span boundary, a span record and a tag do. -/
namespace Sys2Proof.Machine

open Sys2Proof

/-! ### The table of tributaries -/

theorem tribAt_congr {u s : State} (h : u.tribs = s.tribs) (tid : Byte) : tribAt tid u = tribAt tid s := by
  rw [tribAt, tribAt, h]

theorem tribAt_mem {tid : Byte} {t : Trib} {s : State} (h : tribAt tid s = some t) : t ∈ s.tribs ∧ t.tid = tid :=
  ⟨List.mem_of_find?_eq_some h, by simpa using List.find?_some h⟩

/-- What is found of a table after each entry has changed but for its TID. -/
theorem tribAt_map {g : Trib → Trib} (hg : ∀ t, (g t).tid = t.tid) {u s : State} (h : u.tribs = s.tribs.map g) (tid : Byte) :
    tribAt tid u = (tribAt tid s).map g := by
  rw [tribAt, tribAt, h, List.find?_map]
  congr 2
  funext t
  simp [hg]

theorem tribAt_modTrib {f : Trib → Trib} (hf : ∀ t, (f t).tid = t.tid) {tid : Byte} {t : Trib} {s : State}
    (h : tribAt tid s = some t) : tribAt tid (modTrib tid f s) = some (f t) := by
  rw [tribAt_map (g := fun t => if t.tid = tid then f t else t) (by intro t; split <;> simp [hf]) rfl, h, Option.map_some,
    if_pos (tribAt_mem h).2]

/-- R250, R235: a tributary after the KEY level and the replacement have been judged anew. -/
def judgedTrib (at_ : Lts) (s : State) (t : Trib) : Trib :=
  { t with key := rawLevel (txBlocked t s || rxBlocked t s) at_ t.key, replaced := mustReplace t s }

theorem refreshTribsAt_tribs (at_ : Lts) (s : State) : (refreshTribsAt at_ s).tribs = s.tribs.map (judgedTrib at_ s) := rfl

theorem tribAt_refreshAt {tid : Byte} {t : Trib} {s : State} (h : tribAt tid s = some t) (at_ : Lts) :
    tribAt tid (refreshTribsAt at_ s) = some (judgedTrib at_ s t) := by
  rw [tribAt_map (g := judgedTrib at_ s) (fun _ => rfl) rfl, h, Option.map_some]

/-! ### The tributary commands -/

theorem exec_tribDefine {h : Hdr} {tid client : Byte} {port : Half} {cipher : Byte} {s : State} (ha : admitted 0x0701 s = .accept)
    (hc : firstFail (tribDefineCheck (slotModeNow s) (slotsNow s) tid client port cipher s) = none) :
    exec (.tribDefine h tid client port cipher) s = .next (reply 0x0701 h
      [fld 16 1 ((freeEntry s).getD 0), fld 17 1 ((clientSlots client.toNat).getD 0)] (tribDefineApply tid client port cipher s)) := by
  simp only [exec, execTribDefine, command_accept ha]
  rw [guarded_pass hc]

theorem freeEntry_of_check {tid client : Byte} {port : Half} {cipher : Byte} {s : State}
    (hc : firstFail (tribDefineCheck (slotModeNow s) (slotsNow s) tid client port cipher s) = none) : ∃ e, freeEntry s = some e := by
  cases hf : freeEntry s with
  | some e => exact ⟨e, rfl⟩
  | none =>
    simp only [tribDefineCheck, firstFail_cons, firstFail_nil, hf, Option.isNone_none, Bool.or_true, Bool.true_or, if_true] at hc
    exfalso
    revert hc
    split
    · simp
    · split
      · simp
      · split
        · simp
        · split <;> simp

theorem readmit_tribs (s : State) : (readmit s).tribs = s.tribs := by
  unfold readmit
  split
  · split <;> rfl
  · rfl

/-- What TRIB.DEFINE adds to the table and to the ports, before the tributaries are judged anew. -/
def withTrib (tid client : Byte) (port : Half) (cipher : Byte) (s : State) : State := readmit { s with
  tribs := s.tribs ++ [newTrib tid client port cipher ((freeEntry s).getD 0) s.time.lts],
  hl := { s.hl with ports := insertPort { num := port.toNat, client := client.toNat } s.hl.ports } }

/-- TRIB.DEFINE adds one tributary, of the entry found. -/
theorem tribDefine_tribs (tid client : Byte) (port : Half) (cipher : Byte) {s : State} {e : Nat} (he : freeEntry s = some e) :
    (tribDefineApply tid client port cipher s).tribs = (s.tribs ++ [newTrib tid client port cipher e s.time.lts]).map
      (judgedTrib (txStamp (withTrib tid client port cipher s)) (withTrib tid client port cipher s)) := by
  have ht : (withTrib tid client port cipher s).tribs = s.tribs ++ [newTrib tid client port cipher e s.time.lts] := by
    rw [withTrib, readmit_tribs, he]
    rfl
  rw [← ht]
  rfl

/-- R261: what is admitted are the same ports. -/
theorem admitPorts_nums (limit step : Nat) : ∀ (used : Nat) (ps : List Port),
    (admitPorts limit step used ps).2.map Port.num = ps.map Port.num
  | used, [] => rfl
  | used, p :: ps => by
    unfold admitPorts
    dsimp only
    split <;> simp [admitPorts_nums limit step _ ps]

theorem servedFrom_nums (sf : Sf) : ∀ {ps qs : List Port}, qs.map Port.num = ps.map Port.num →
    (List.zipWith (servedFrom sf) ps qs).map Port.num = ps.map Port.num
  | [], [], _ => rfl
  | p :: ps, q :: qs, h => by
    simp only [List.map_cons, List.cons.injEq] at h
    have hp : (servedFrom sf p q).num = q.num := by unfold servedFrom; split <;> rfl
    simp only [List.zipWith_cons_cons, List.map_cons, hp, h.1, servedFrom_nums sf h.2]

theorem readmit_port {s : State} {p : Port} (hp : p ∈ (readmit s).hl.ports) : ∃ q ∈ s.hl.ports, q.num = p.num := by
  have key : p.num ∈ s.hl.ports.map Port.num := by
    unfold readmit at hp
    split at hp
    · split at hp
      · obtain ⟨i, hi, rfl⟩ := List.mem_iff_getElem.mp hp
        have hz : (List.zipWith (servedFrom s.time.lts.sf) s.hl.ports
            (admitPorts (positionLimit s.hl.n) s.hl.step 0 s.hl.ports).2).map Port.num = s.hl.ports.map Port.num := 
          servedFrom_nums _ (admitPorts_nums _ _ _ _)
        rw [← hz]
        exact List.mem_map_of_mem hp
      · exact List.mem_map_of_mem hp
    · obtain ⟨q, hq, rfl⟩ := List.mem_map.mp hp
      exact List.mem_map.mpr ⟨q, hq, rfl⟩
  simpa using key

theorem releaseRefs_ports (t : Trib) (s : State) : (releaseRefs t s).hl = s.hl ∧ (releaseRefs t s).tribs = s.tribs := by
  have one : ∀ (r : Option Byte) (u : State), (releaseRef r u).hl = u.hl ∧ (releaseRef r u).tribs = u.tribs := by
    intro r u
    cases r <;> exact ⟨rfl, rfl⟩
  simp [releaseRefs, one]

/-- Settles O35: the checks in their order, and what each command does with the table. -/
theorem tributaryCommands : Obligations.TributaryCommands := by
  unfold Obligations.TributaryCommands
  refine ⟨fun h tid client port cipher s ha => ⟨fun hc => ?_, fun st hc => ?_⟩, fun h tid s ha => ⟨fun hn => ?_, fun t ht => ?_⟩,
    fun h tid flags s ha hn => ?_, fun h tid t s ha ht => ?_, fun h s ha => ?_⟩
  · obtain ⟨e, he⟩ := freeEntry_of_check hc
    have hu := tribDefine_tribs tid client port cipher he
    refine ⟨_, e, he, by rw [exec_tribDefine ha hc, he]; rfl, ?_, ?_⟩
    · simp [hu]
    · exact ⟨judgedTrib _ _ (newTrib tid client port cipher e s.time.lts), by rw [hu]; exact List.mem_map_of_mem (by simp),
        rfl, rfl, rfl, rfl, rfl, rfl, rfl⟩
  · simp only [exec, execTribDefine, command_accept ha]
    rw [guarded_fail hc]
  · simp only [exec, execTribRemove, command_accept ha]
    rw [guarded_fail (st := .badArg)]
    simp [tribRemoveCheck, hn]
  · refine ⟨tribRemoveApply tid s, ?_, ?_, ?_⟩
    · simp only [exec, execTribRemove, command_accept ha]
      rw [guarded_pass]
      simp [tribRemoveCheck, ht]
    · intro x hx
      simp only [tribRemoveApply, ht, readmit_tribs, List.mem_filter, decide_eq_true_eq] at hx
      exact hx.2
    · intro p hp
      simp only [tribRemoveApply, ht] at hp
      obtain ⟨q, hq, hn⟩ := readmit_port hp
      simp only [List.mem_filter, decide_eq_true_eq] at hq
      rw [← hn]
      exact hq.2
  · simp only [exec, execTribStatus, command_accept ha, hn]
  · refine ⟨_, by simp only [exec, execTribStatus, command_accept ha, ht]; rw [guarded_pass (by decide)]; rfl, ?_, ?_⟩
    · simp only [exec, execTribStatus, command_accept ha, ht]
      rw [guarded_pass (by decide)]
      rfl
    · simp
  · refine ⟨_, by simp only [exec, execTfStatus]; rw [query_accept ha], ?_⟩
    simp


/-! ### Key slots -/

theorem slotAt_setSlot_same {i : Byte} {s : State} (hi : i.toNat < s.ciph.slots.length) (k : KeySlot) :
    slotAt i (setSlot i k s) = k := by
  simp [slotAt, setSlot, setAt, List.getD_eq_getElem?_getD, hi]

theorem slotAt_congr {u s : State} (h : u.ciph.slots = s.ciph.slots) (i : Byte) : slotAt i u = slotAt i s := by
  rw [slotAt, slotAt, h]

theorem slotAt_modTrib (i tid : Byte) (f : Trib → Trib) (s : State) : slotAt i (modTrib tid f s) = slotAt i s := rfl

theorem slotAt_modSlot_same {i : Byte} {s : State} (hi : i.toNat < s.ciph.slots.length) (f : KeySlot → KeySlot) :
    slotAt i (modSlot i f s) = f (slotAt i s) :=
  slotAt_setSlot_same hi _

theorem modSlot_tribs (i : Byte) (f : KeySlot → KeySlot) (s : State) : (modSlot i f s).tribs = s.tribs := rfl

/-- R248: the ageing of a key leaves the tributaries. -/
theorem ageEvent_tribs (tid i : Byte) (at_ : Lts) (s : State) : (ageEvent tid i at_ s).tribs = s.tribs := by
  unfold ageEvent
  dsimp only
  split
  · simp [setSlot]
  · rfl

/-- R248: and of its slot nothing but the mark that it has been reported. -/
theorem ageEvent_slot {i : Byte} {s : State} (hi : i.toNat < s.ciph.slots.length) (tid : Byte) (at_ : Lts) :
    (slotAt i (ageEvent tid i at_ s)).spans = (slotAt i s).spans := by
  unfold ageEvent
  dsimp only
  split
  · rw [slotAt_congr (s := setSlot i { slotAt i s with aged := true } s) (by simp), slotAt_setSlot_same hi]
  · rfl

/-! ### Span boundaries -/

/-- What a change of the tributaries of one TID leaves in each of them. -/
theorem mem_modTrib {tid : Byte} {f : Trib → Trib} {s : State} {x : Trib}
    (hx : x ∈ (modTrib tid f s).tribs) (ht : x.tid = tid) : ∃ y, x = f y := by
  obtain ⟨y, -, rfl⟩ := List.mem_map.mp hx
  by_cases hy : y.tid = tid
  · exact ⟨y, if_pos hy⟩
  · rw [if_neg hy] at ht
    exact absurd ht hy

/-- R245, R248: a span under a current key counts in its slot; at 2^40 the slot is spent and the tributary blocked. -/
theorem txSpanOf_counts {t : Trib} {i : Byte} {s : State} (hi : t.txCur = some i) (hs : txSilent t s = false) (hf : t.txFresh = false) :
    txSpanOf t s = if 2 ^ 40 ≤ t.txSpan + 1 then
        modTrib t.tid (fun t => { t with blockTx := true, keySlot := i, txFresh := false })
          (modSlot i (fun k => { k with st := .spent, spans := 2 ^ 40 }) s)
      else
        ageEvent t.tid i (txStamp s) (modTrib t.tid (fun x => { x with txSpan := t.txSpan + 1, txFresh := false })
          (modSlot i (fun k => { k with spans := t.txSpan + 1 + 1 }) s)) := by
  simp only [txSpanOf, hi, hs, hf, Bool.false_eq_true, if_false]

theorem txSpanOf_silent {t : Trib} {s : State} (hs : txSilent t s = true) : txSpanOf t s = s := by
  unfold txSpanOf
  split
  · rfl
  · rw [if_pos hs]

theorem rxDrainAt_tribs (tid : Byte) (i : Nat) (s : State) : (rxDrainAt tid i s).tribs = s.tribs := by
  have hz : ∀ (b : Byte) (n : Nat), (zeroise b n s).tribs = s.tribs := by
    intro b n
    unfold zeroise
    split
    · rfl
    · simp [setSlot]
  unfold rxDrainAt
  dsimp only
  split
  · split
    · exact hz _ _
    · rfl
  · rfl

theorem rxDrains_tribs (tid : Byte) : ∀ (is : List Nat) (s : State), (is.foldl (fun s i => rxDrainAt tid i s) s).tribs = s.tribs
  | [], _ => rfl
  | i :: is, s => by rw [List.foldl_cons, rxDrains_tribs tid is, rxDrainAt_tribs]

/-- R253: closing a run of failed spans changes nothing of the tributary but their count. -/
theorem failClose_trib {tid : Byte} {t : Trib} {s : State} (h : tribAt tid s = some t) :
    ∃ n, tribAt tid (failClose tid s) = some { t with failLogged := n } := by
  simp only [failClose, h]
  split
  · exact ⟨t.failLogged, h⟩
  · refine ⟨0, tribAt_modTrib (t := t) (by intro; rfl) ?_⟩
    split
    · rw [tribAt_congr (s := s) (by simp) tid, h]
    · exact h

/-- R246: the tributary at the start of a received span. -/
theorem rxStart_trib {tid : Byte} {t : Trib} {s s0 : State} (h : tribAt tid s = some t)
    (hs0 : s0 = modTrib tid (fun t => { t with
        prevSpan := t.rxSpan, prevSlot := t.rxCur, prevConf := t.confirmed, lineRx := t.lineRx && !s.ciph.lineOk })
      ((List.range 256).foldl (fun s i => rxDrainAt tid i s) (failClose tid s))) :
    ∃ n, tribAt tid s0 = some { t with
      failLogged := n, prevSpan := t.rxSpan, prevSlot := t.rxCur, prevConf := t.confirmed, lineRx := t.lineRx && !s.ciph.lineOk } := by
  obtain ⟨n, hn⟩ := failClose_trib h
  refine ⟨n, ?_⟩
  rw [hs0]
  exact tribAt_modTrib (t := { t with failLogged := n }) (by intro; rfl) ((tribAt_congr (rxDrains_tribs tid _ _) tid).trans hn)

/-- R246: the first span under a receive key has counter zero. -/
theorem rxSpanOf_first {tid i : Byte} {t : Trib} {s : State} (h : tribAt tid s = some t) (hi : t.rxCur = some i) (at_ : Lts) :
    ∃ x, tribAt tid (rxSpanOf tid true at_ s) = some x ∧ x.rxCur = some i ∧ x.rxNext = t.rxNext ∧ x.rxSpan = 0 ∧
      x.rxPhase = t.rxPhase ∧ x.blockRx = t.blockRx := by
  simp only [rxSpanOf, h, if_true, hi]
  rw [if_neg (by decide)]
  refine ⟨{ t with
    rxSpan := 0, confirmed := t.confirmed || t.confirmNext.isSome, confirmNext := none, relBad := t.relBad && decide (t.cipher = 2),
    buffer := if t.cipher = 2 then t.buffer ++ [⟨0, at_, none⟩] else [] }, ?_, hi, rfl, rfl, rfl, rfl⟩
  split
  · rw [tribAt_congr (ageEvent_tribs _ _ _ _) tid, tribAt_congr (modSlot_tribs _ _ _) tid]
    exact tribAt_modTrib (by intro; rfl) h
  · exact tribAt_modTrib (by intro; rfl) h

/-- R246: a usable next receive key becomes current. -/
theorem rxPromote_trib {tid n : Byte} {t t0 : Trib} {s : State} (h : tribAt tid s = some t0) (ht : t.tid = tid)
    (hn : t.rxNext = some n) (ph : Bool) (at_ : Lts) : tribAt tid (rxPromote t ph at_ s) = some { t0 with
      rxCur := some n, rxNext := none, rxPhase := ph, rxSpan := 0, blockRx := false, confirmNext := none } := by
  have hd : ∀ r, (drain t.tid r s).tribs = s.tribs := by
    intro r
    cases r <;> rfl
  simp only [rxPromote, hn, switchEvent]
  rw [tribAt_congr (notifyAt_frame _ _ _ _ _ _).2.2.2.2.2.2.2.2.2.2.2.2.1 tid, ht]
  exact tribAt_modTrib (by intro; rfl) ((tribAt_congr ((modSlot_tribs _ _ _).trans (ht ▸ hd _)) tid).trans h)

/-- What a received span starts with, for a tributary with a receive key. -/
theorem exec_rxSpanStart {tid : Byte} {ph : Option Bool} {rx : RxAt} {t : Trib} {s s0 : State} (h : tribAt tid s = some t)
    (hc : t.cipher ≠ 0) (h3 : s.tf.st = 3) (htk : ticking s = true) (hw : cipherWorks s = true) (had : t.adopt = false)
    (hcur : t.rxCur.isSome = true) (hs0 : s0 = modTrib tid (fun t => { t with
        prevSpan := t.rxSpan, prevSlot := t.rxCur, prevConf := t.confirmed, lineRx := t.lineRx && !s.ciph.lineOk })
      ((List.range 256).foldl (fun s i => rxDrainAt tid i s) (failClose tid s))) :
    exec (.rxSpanStart tid ph rx) s = .next (refreshTribsAt (rxStamp rx s) (
      if ph.getD t.rxPhase = t.rxPhase then rxSpanOf tid false (rxStamp rx s) s0
      else match t.rxNext with
        | some n =>
          if usable (slotNow n s0) then
            rxSpanOf tid true (rxStamp rx s) (rxPromote t (ph.getD t.rxPhase) (rxStamp rx s) (modSlot n (settled s.time.lts) s0))
          else modTrib tid rxBlock s0
        | none => modTrib tid rxBlock s0)) := by
  have hnone : ¬ (t.rxCur.isNone = true ∧ t.blockRx = false) := by
    rw [Option.isNone_eq_false_iff.mpr hcur]
    simp
  simp only [exec, execRxSpanStart, h]
  rw [if_neg (by simp [hc, h3, htk, hw]), if_neg hnone, had, if_neg (by decide), ← hs0] <;> rfl

/-- Settles O36: the work of a boundary is that of the slots and the tributaries it meets, each by its own lemma. -/
theorem spanBoundaries : Obligations.SpanBoundaries := by
  unfold Obligations.SpanBoundaries
  refine ⟨fun s s0 s1 hs0 hs1 hsp ht => ⟨fun hd => ?_, fun hd => ?_⟩, fun s hsp => ?_, fun t i s hi hs hl hf => ⟨fun h40 => ⟨?_, ?_⟩, fun h40 => ⟨?_, ?_⟩⟩,
    fun t s hs => txSpanOf_silent hs, ?_⟩
  · simp only [exec, execTxSpanBoundary, hsp, ht, hd, Bool.and_self, if_true, hs1, hs0]
  · simp only [exec, execTxSpanBoundary, hd, Bool.and_false, Bool.false_eq_true, if_false]
  · simp only [exec, execTxSpanBoundary, hsp, Bool.false_and, Bool.false_eq_true, if_false]
  · rw [txSpanOf_counts hi hs hf, if_pos h40, slotAt_modTrib, slotAt_modSlot_same hl]
  · intro x hx hxt
    rw [txSpanOf_counts hi hs hf, if_pos h40] at hx
    obtain ⟨y, rfl⟩ := mem_modTrib hx hxt
    rfl
  · rw [txSpanOf_counts hi hs hf, if_neg (by omega), ageEvent_slot (by simpa [modTrib, modSlot, setSlot, setAt] using hl),
      slotAt_modTrib, slotAt_modSlot_same hl]
  · intro x hx hxt
    rw [txSpanOf_counts hi hs hf, if_neg (by omega), ageEvent_tribs] at hx
    obtain ⟨y, rfl⟩ := mem_modTrib hx hxt
    rfl
  · intro tid ph rx t s s0 h hc h3 htk hw had hcur hs0
    obtain ⟨k, h0⟩ := rxStart_trib h hs0
    rw [exec_rxSpanStart h hc h3 htk hw had hcur hs0]
    refine ⟨fun hp => by rw [if_pos hp], fun hp hn => ?_, fun n hp hn hu => ?_⟩
    · rw [if_neg hp]
      simp only [hn]
      exact ⟨_, _, rfl, tribAt_refreshAt (tribAt_modTrib (by intro; rfl) h0) _, rfl, rfl, rfl⟩
    · rw [if_neg hp]
      simp only [hn, hu, if_true]
      have h1 : tribAt tid (modSlot n (settled s.time.lts) s0) = _ := (tribAt_congr (modSlot_tribs _ _ _) tid).trans h0
      have h2 := rxPromote_trib h1 (tribAt_mem h).2 hn (ph.getD t.rxPhase) (rxStamp rx s)
      obtain ⟨x, hx, hxc, hxn, hxs, hxp, hxb⟩ := rxSpanOf_first h2 rfl (rxStamp rx s)
      refine ⟨_, _, rfl, tribAt_refreshAt hx _, hxc, hxn, hxs, ?_, hxb⟩
      rw [show (judgedTrib _ _ x).rxPhase = x.rxPhase from rfl, hxp]
      cases hr : t.rxPhase <;> cases hq : ph.getD t.rxPhase <;> simp_all

end Sys2Proof.Machine
end


section
/-! O37. Span records, tags and the verify buffer. -/
namespace Sys2Proof.Machine

open Sys2Proof

/-- What the reception of a record or a tag waits for. -/
def receives (t : Trib) (s : State) : Prop := t.cipher ≠ 0 ∧ s.tf.st = 3 ∧ ticking s = true ∧ cipherWorks s = true

theorem receives_not {t : Trib} {s : State} (h : receives t s) :
    ¬ (t.cipher = 0 ∨ s.tf.st ≠ 3 ∨ ticking s = false ∨ cipherWorks s = false) := by
  obtain ⟨hc, h3, ht, hw⟩ := h
  simp [hc, h3, ht, hw]

/-! ### Records -/

/-- R247: an unusable record changes nothing. -/
theorem exec_record_unusable {tid : Byte} {bytes : List Byte} {rx : RxAt} {t : Trib} {s : State} (h : tribAt tid s = some t)
    (hu : recordUsable tid bytes (bytesMarked (tagPlace (3 + t.rxEntry / 8) t s) 16 s) = false) :
    exec (.spanRecordReceive tid bytes rx) s = .next s := by
  simp only [exec, execSpanRecordReceive, h, hu]
  rw [if_pos (by simp)]

/-- R247: a usable one that says BLOCKED marks the far end. -/
theorem exec_record_blocked {tid : Byte} {bytes : List Byte} {rx : RxAt} {t : Trib} {s : State} (h : tribAt tid s = some t)
    (hr : receives t s) (hu : recordUsable tid bytes (bytesMarked (tagPlace (3 + t.rxEntry / 8) t s) 16 s) = true)
    (hb : bitOf (byteAt bytes 9) 0 = true) : exec (.spanRecordReceive tid bytes rx) s =
      .next (refreshTribsAt (rxStamp rx s) (modTrib tid (fun t => { t with farBlocked := true }) s)) := by
  obtain ⟨hc, h3, ht, hw⟩ := hr
  simp only [exec, execSpanRecordReceive, h]
  rw [if_neg (by simp [hc, h3, ht, hw, hu]), if_pos hb]

/-- R247: one whose counter is 2^40 or more spends the receive key. -/
theorem exec_record_spent {tid i : Byte} {bytes : List Byte} {rx : RxAt} {t : Trib} {s : State} (h : tribAt tid s = some t)
    (hr : receives t s) (hu : recordUsable tid bytes (bytesMarked (tagPlace (3 + t.rxEntry / 8) t s) 16 s) = true)
    (hb : bitOf (byteAt bytes 9) 0 = false) (h40 : 2 ^ 40 ≤ beNat (slice bytes 0 8)) (hi : t.rxCur = some i) :
    exec (.spanRecordReceive tid bytes rx) s = .next (refreshTribsAt (rxStamp rx s)
      (modTrib tid (fun t => { t with blockRx := true, keySlot := i })
        (modSlot i (fun k => { k with st := .spent, spans := 2 ^ 40 }) (modTrib tid (fun t => { t with farBlocked := false }) s)))) := by
  obtain ⟨hc, h3, ht, hw⟩ := hr
  simp only [exec, execSpanRecordReceive, h]
  rw [if_neg (by simp [hc, h3, ht, hw, hu]), if_neg (by simp [hb]), if_pos h40]
  simp only [hi]

/-- R247: what a counter says of the prediction. -/
def predicted (v : Nat) (t : Trib) : Trib :=
  if t.confirmed then (if t.rxSpan = v then t else { t with counterMiss := t.counterMiss + 1, confirmNext := some (v + 1) })
  else { t with confirmNext := some (v + 1), rxSpan := v }

theorem predicted_tid (v : Nat) (t : Trib) : (predicted v t).tid = t.tid := by
  unfold predicted
  split
  · split <;> rfl
  · rfl

theorem predicted_farBlocked (v : Nat) (t : Trib) : (predicted v { t with farBlocked := false }).farBlocked = false := by
  unfold predicted
  split
  · split <;> rfl
  · rfl

theorem exec_record_counter {tid : Byte} {bytes : List Byte} {rx : RxAt} {t : Trib} {s : State} (h : tribAt tid s = some t)
    (hr : receives t s) (hu : recordUsable tid bytes (bytesMarked (tagPlace (3 + t.rxEntry / 8) t s) 16 s) = true)
    (hb : bitOf (byteAt bytes 9) 0 = false) (h40 : beNat (slice bytes 0 8) < 2 ^ 40) (hi : t.rxCur.isSome = true) :
    exec (.spanRecordReceive tid bytes rx) s = .next (refreshTribsAt (rxStamp rx s)
      (modTrib tid (predicted (beNat (slice bytes 0 8))) (modTrib tid (fun t => { t with farBlocked := false }) s))) := by
  obtain ⟨hc, h3, ht, hw⟩ := hr
  simp only [exec, execSpanRecordReceive, h]
  rw [if_neg (by simp [hc, h3, ht, hw, hu]), if_neg (by simp [hb]), if_neg (by omega),
    if_neg (by simp [Option.isNone_eq_false_iff.mpr hi])]
  rfl

/-! ### Tags -/

theorem logEntry_tribs (n : Nat) (c : Half) (e : Option Half) (d : List Byte) (s : State) : (logEntry n c e d s).tribs = s.tribs := by
  simp

theorem drawMany_tribs (n : Nat) (s : State) : (drawMany n s).tribs = s.tribs := rfl

/-- R252: a failed span is counted and logged; the tributary keeps its verdicts. -/
theorem failLog_trib {tid : Byte} {t : Trib} {s : State} (h : tribAt tid s = some t) (span : Nat) :
    ∃ x, tribAt tid (failLog tid span s) = some x ∧ x.verified = t.verified ∧ x.failedSpans = t.failedSpans ∧ x.auth = t.auth := by
  obtain ⟨n, hn⟩ := failClose_trib h
  simp only [failLog, hn]
  split
  · refine ⟨_, (tribAt_congr (logEntry_tribs _ _ _ _ _) tid).trans (tribAt_modTrib (by intro; rfl) hn), rfl, rfl, rfl⟩
  · exact ⟨_, tribAt_modTrib (by intro; rfl) hn, rfl, rfl, rfl⟩

/-- R251: what cut-through delivered of a failed span counts as errors. -/
theorem cutThrough_trib {tid : Byte} {t x : Trib} {s : State} (ht : t.tid = tid) (h : tribAt tid s = some x) :
    ∃ y, tribAt tid (cutThrough t s) = some y ∧ y.verified = x.verified ∧ y.failedSpans = x.failedSpans ∧ y.auth = x.auth := by
  unfold cutThrough
  split
  · rw [ht]
    exact ⟨_, (tribAt_congr (drawMany_tribs _ _) tid).trans (tribAt_modTrib (by intro; rfl) h), rfl, rfl, rfl⟩
  · exact ⟨x, h, rfl, rfl, rfl⟩

theorem tribAt_markHandled {tid : Byte} {t : Trib} {s : State} (h : tribAt tid s = some t) : tribAt tid (markHandled tid s) = some t := h

/-- R252: what a tag does to a tributary whose span before has a slot. -/
theorem exec_spanTagVerify {tid i : Byte} {data tag : List Byte} {rx : RxAt} {t : Trib} {s : State} (h : tribAt tid s = some t)
    (hr : receives t s) (hi : t.prevSlot = some i) (hb : rxBlocked t s = false) :
    exec (.spanTagVerify tid data tag rx) s = .next (
      if t.prevConf = false then markHandled tid s
      else if spanWhole t = false then modTrib tid (fun t => { t with incomplete := t.incomplete + 1 }) (markHandled tid s)
      else if t.farBlocked then markHandled tid s
      else if !bytesMarked (tagPlace (t.rxEntry / 8) t s) 16 s && decide (expectedTag t i data s = tag) then
        modTrib tid (fun x => { x with
          verified := x.verified + 1, auth := runLevel 16 false (rxStamp rx s) x.auth,
          buffer := judge x.prevSpan true x.buffer }) (markHandled tid s)
      else
        cutThrough t (failLog tid t.prevSpan (modTrib tid (fun x => { x with
          failedSpans := x.failedSpans + 1, failTotal := x.failTotal + 1, auth := runLevel 1 true (rxStamp rx s) x.auth,
          buffer := judge x.prevSpan false x.buffer }) (markHandled tid s)))) := by
  simp only [exec, execSpanTagVerify, h]
  rw [if_neg (receives_not hr)]
  simp only [hi, hb, Bool.false_eq_true, if_false]

theorem runLevel_raw (n : Nat) (b : Bool) (t : Lts) (i : Integ) : (runLevel n b t i).raw = b := by
  unfold runLevel
  split
  · split <;> assumption
  · rfl

/-- R258: with the line engine failed every encrypted tributary is blocked both ways. -/
theorem lineFailed_trib {u : State} (hu : u.ciph.lineOk = false) {x : Trib} (hx : x ∈ (refreshTribs u).tribs) (hc : x.cipher ≠ 0) :
    x.key.raw = true ∧ txBlocked x (refreshTribs u) = true ∧ rxBlocked x (refreshTribs u) = true := by
  obtain ⟨y, -, rfl⟩ := List.mem_map.mp hx
  have hcy : y.cipher ≠ 0 := hc
  refine ⟨?_, ?_, ?_⟩
  · have hb : (txBlocked y u || rxBlocked y u) = true := by simp [txBlocked, hu, hcy]
    simp only [rawLevel, hb]
    split <;> simp_all
  · simp [txBlocked, refreshTribs, refreshTribsAt, hu, hcy]
  · simp [rxBlocked, refreshTribs, refreshTribsAt, hu, hcy]

/-- Settles O37: what a record or a tag writes is one field of the tributary's receive side, and the verdict of a held span its state. -/
theorem spanRecordsAndTags : Obligations.SpanRecordsAndTags := by
  unfold Obligations.SpanRecordsAndTags
  refine ⟨?_, ?_, ?_, ?_⟩
  · intro tid bytes rx marked t s h hc h3 ht hw hm
    subst hm
    have hr : receives t s := ⟨hc, h3, ht, hw⟩
    refine ⟨fun hu => exec_record_unusable h hu, fun hu hb => ?_, fun hu hb h40 i hi hl => ?_, fun hu hb h40 hi => ?_⟩
    · exact ⟨_, _, exec_record_blocked h hr hu hb, tribAt_refreshAt (tribAt_modTrib (by intro; rfl) h) _, rfl⟩
    · refine ⟨_, _, exec_record_spent h hr hu hb h40 hi,
        tribAt_refreshAt (tribAt_modTrib (by intro; rfl) (tribAt_modTrib (by intro; rfl) h)) _, rfl, rfl, ?_⟩
      exact congrArg KeySlot.st (slotAt_modSlot_same (s := modTrib tid (fun t => { t with farBlocked := false }) s) hl
        (fun k => { k with st := .spent, spans := 2 ^ 40 }))
    · refine ⟨_, _, exec_record_counter h hr hu hb h40 hi,
        tribAt_refreshAt (tribAt_modTrib (predicted_tid _) (tribAt_modTrib (by intro; rfl) h)) _, ?_, fun hcf hv => ?_, fun hcf hv => ?_,
        fun hcf => ?_⟩
      · exact predicted_farBlocked _ _
      · simp [judgedTrib, predicted, hcf, hv]
      · simp [judgedTrib, predicted, hcf, hv]
      · simp [judgedTrib, predicted, hcf]
  · intro tid data tag rx i t s h hc h3 ht hw hi hb
    have hr : receives t s := ⟨hc, h3, ht, hw⟩
    have hm := tribAt_markHandled h
    rw [exec_spanTagVerify h hr hi hb]
    refine ⟨fun hcf => by rw [if_pos hcf], fun hcf hwh => ?_, fun hwh hfb => ?_⟩
    · rw [if_neg (by simp [hcf]), if_pos hwh]
      exact ⟨_, _, rfl, tribAt_modTrib (by intro; rfl) hm, rfl, rfl, rfl⟩
    · have hcf : t.prevConf = true := by
        simp only [spanWhole, Bool.and_eq_true] at hwh
        exact hwh.2
      rw [if_neg (by simp [hcf]), if_neg (by simp [hwh]), if_neg (by simp [hfb])]
      by_cases hok : bytesMarked (tagPlace (t.rxEntry / 8) t s) 16 s = false ∧ expectedTag t i data s = tag
      · rw [if_pos (by simp [hok.1, hok.2])]
        refine ⟨_, _, rfl, tribAt_modTrib (by intro; rfl) hm, fun _ => ⟨rfl, rfl, runLevel_raw _ _ _ _⟩, fun hn => ?_⟩
        rcases hn with hn | hn
        · rw [hok.1] at hn; cases hn
        · exact absurd hok.2 hn
      · rw [if_neg (by simpa using hok)]
        obtain ⟨x, hx, hxv, hxf, hxa⟩ := failLog_trib (tribAt_modTrib (f := fun x => { x with
          failedSpans := x.failedSpans + 1, failTotal := x.failTotal + 1, auth := runLevel 1 true (rxStamp rx s) x.auth,
          buffer := judge x.prevSpan false x.buffer }) (by intro; rfl) hm) t.prevSpan
        obtain ⟨y, hy, hyv, hyf, hya⟩ := cutThrough_trib (tribAt_mem h).2 hx
        refine ⟨_, y, rfl, hy, fun hn => absurd hn hok, fun _ => ⟨by rw [hyv, hxv], by rw [hyf, hxf], ?_⟩⟩
        rw [hya, hxa]
        exact runLevel_raw _ _ _ _
  · intro tid b rest t s h hbuf h2 ht hw
    refine ⟨fun hd => ?_, fun hd => ?_⟩
    · simp only [exec, execSpanRelease, h, hbuf]
      rw [if_pos ⟨h2, ht, hw, hd⟩]
      refine ⟨_, _, rfl, tribAt_refreshAt (tribAt_modTrib (by intro; rfl) h) _, rfl, fun hv => ?_, fun hv => ?_, rfl⟩
      · simp [judgedTrib, mustReplace, hv, h2]
      · simp [judgedTrib, hv]
        rfl
    · simp only [exec, execSpanRelease, h, hbuf]
      rw [if_neg (by rintro ⟨-, -, -, hle⟩; omega)]
  · intro tid t s h hc ht hs
    refine ⟨_, by simp only [exec, execTagRecomputeMismatch, h]; rw [if_neg (by simp [hc, ht, hs])], ?_, ?_⟩
    · simp [refreshTribs, refreshTribsAt, selftestEvent, lineFails]
    · intro x hx hxc
      have hc : (selftestEvent 3 (lineFails s)).ciph.lineOk = false := by simp [selftestEvent, lineFails]
      exact lineFailed_trib hc hx hxc

end Sys2Proof.Machine
end


section
/-! O38. The key and cipher commands. -/
namespace Sys2Proof.Machine

open Sys2Proof

/-! ### KEY.LOAD and KEY.ERASE -/

/-- R248: only a NEXT slot is near an activation. -/
theorem twoSpanRefuses_of {k : KeySlot} (h : k.st ≠ .next) (f : Lts) (s : State) : twoSpanRefuses k f s = false := by
  simp [twoSpanRefuses, h]

/-- R241: a wrapped key that passes fills an empty or loaded slot. -/
theorem exec_keyLoad_fills {h : Hdr} {slot : Byte} {s : State} {p : List Byte} {d : KeyData} (ha : admitted 0x0802 s = .accept)
    (hb : h.buf = true) (hl : h.length = 48) (hk : kwUnwrap s.ident.kek (bufData h s) = some p) (hp : keyPayload p = some d)
    (hu : d.usage ≠ 2) (hst : (slotAt slot s).st = .empty ∨ (slotAt slot s).st = .loaded) :
    exec (.keyLoad h slot) s = .next (reply 0x0802 h [fld 16 1 d.usage, (17, d.kcv), fld 24 6 (usableAt s).sf.toNat]
      (setSlot slot (settled s.time.lts { emptySlot with
        st := .loaded, data := ⟨[], [], d.usage, d.clearCtx, d.kcv⟩, coming := some (d, usableAt s) }) s)) := by
  obtain ⟨hn, hc, hd, hs⟩ : (slotAt slot s).st ≠ .next ∧ (slotAt slot s).st ≠ .current ∧ (slotAt slot s).st ≠ .draining ∧
      (slotAt slot s).st ≠ .spent := by
    rcases hst with hst | hst <;> simp [hst]
  simp only [exec, execKeyLoad, command_accept ha]
  rw [guarded_pass (by simp [hb, hl])]
  simp only [hk, hp]
  rw [guarded_pass (by simp [hn, hc, hd, hs, hu, twoSpanRefuses_of hn])]
  simp only [hn, hu, if_false]

/-- KEY.LOAD over a slot in use is BUSY. -/
theorem exec_keyLoad_busy {h : Hdr} {slot : Byte} {s : State} {p : List Byte} {d : KeyData} (ha : admitted 0x0802 s = .accept)
    (hb : h.buf = true) (hl : h.length = 48) (hk : kwUnwrap s.ident.kek (bufData h s) = some p) (hp : keyPayload p = some d)
    (hst : (slotAt slot s).st = .current ∨ (slotAt slot s).st = .draining ∨ (slotAt slot s).st = .spent) :
    exec (.keyLoad h slot) s = .next (refuse 0x0802 h .busy s) := by
  simp only [exec, execKeyLoad, command_accept ha]
  rw [guarded_pass (by simp [hb, hl])]
  simp only [hk, hp]
  rw [guarded_fail]
  rcases hst with hst | hst | hst <;> simp [hst]

/-! ### KEY.ASSIGN -/

theorem releaseRef_tribs (r : Option Byte) (s : State) : (releaseRef r s).tribs = s.tribs := by
  cases r <;> rfl

theorem releaseRef_slots (r : Option Byte) (s : State) : (releaseRef r s).ciph.slots.length = s.ciph.slots.length := by
  cases r <;> simp [releaseRef, modSlot, setSlot, setAt]

theorem drain_tribs (tid : Byte) (r : Option Byte) (s : State) : (drain tid r s).tribs = s.tribs := by
  cases r <;> rfl

theorem drain_slots (tid : Byte) (r : Option Byte) (s : State) : (drain tid r s).ciph.slots.length = s.ciph.slots.length := by
  cases r <;> simp [drain, modSlot, setSlot, setAt]

theorem exec_keyAssign {h : Hdr} {tid ref slot : Byte} {s : State} (ha : admitted 0x0804 s = .accept)
    (hc : firstFail (keyAssignCheck (zrNow s) tid ref slot s) = none) :
    exec (.keyAssign h tid ref slot) s = .next (done 0x0804 h (keyAssignApply tid ref slot s)) := by
  simp only [exec, execKeyAssign, command_accept ha]
  rw [guarded_pass hc]

/-- A slot that is taken for a tributary, after which the tributary is changed. -/
theorem taken_slot {tid slot : Byte} {st : SlotSt} {f : Trib → Trib} {s : State} (hl : slot.toNat < s.ciph.slots.length) :
    (slotAt slot (modTrib tid f (modSlot slot (fun k => { k with st := st, owner := tid }) s))).st = st ∧
    (slotAt slot (modTrib tid f (modSlot slot (fun k => { k with st := st, owner := tid }) s))).owner = tid := by
  rw [slotAt_modTrib, slotAt_modSlot_same hl]
  exact ⟨rfl, rfl⟩

section

variable {tid : Byte} {t : Trib} {s : State}

theorem keyAssignApply_txNext (slot : Byte) (ht : tribAt tid s = some t) : keyAssignApply tid 0 slot s =
    modTrib tid (fun t => { t with txNext := some slot })
      (modSlot slot (fun k => { k with st := .next, owner := tid }) (releaseRef t.txNext s)) := by
  simp only [keyAssignApply, ht, if_true]

theorem keyAssignApply_rxNext (slot : Byte) (ht : tribAt tid s = some t) : keyAssignApply tid 1 slot s =
    modTrib tid (fun t => { t with rxNext := some slot })
      (modSlot slot (fun k => { k with st := .next, owner := tid }) (releaseRef t.rxNext s)) := by
  simp only [keyAssignApply, ht]
  rfl

theorem keyAssignApply_rxCur (slot : Byte) (ht : tribAt tid s = some t) : keyAssignApply tid 2 slot s =
    refreshTribs (modTrib tid (fun t => { t with
      rxCur := some slot, blockRx := false, confirmed := false, confirmNext := none, adopt := true })
      (modSlot slot (fun k => { k with st := .current, owner := tid }) (drain tid t.rxCur s))) := by
  simp only [keyAssignApply, ht]
  rfl

theorem keyAssignApply_noTx (slot : Byte) (ht : tribAt tid s = some t) : keyAssignApply tid 3 slot s =
    modTrib tid (fun t => { t with txNext := none }) (releaseRef t.txNext s) := by
  simp only [keyAssignApply, ht]
  rfl

theorem keyAssignApply_noRx (slot : Byte) (ht : tribAt tid s = some t) : keyAssignApply tid 4 slot s =
    modTrib tid (fun t => { t with rxNext := none }) (releaseRef t.rxNext s) := by
  simp only [keyAssignApply, ht]
  rfl

end

/-! ### KEY.ACTIVATE -/

/-- R244: the next key becomes current, the counter starts anew, and the phase is inverted. -/
theorem activate_trib {tid n : Byte} {t : Trib} {s : State} (h : tribAt tid s = some t) : ∃ x, tribAt tid (activate t n s) = some x ∧
    x.txCur = some n ∧ x.txNext = none ∧ x.txSpan = 0 ∧ x.txPhase = !t.txPhase ∧ x.blockTx = false := by
  have ht := (tribAt_mem h).2
  have h1 : tribAt tid (modSlot n (fun k => { settled s.time.lts k with st := .current }) (drain t.tid t.txCur s)) = some t :=
    (tribAt_congr ((modSlot_tribs _ _ _).trans (drain_tribs _ _ _)) tid).trans h
  have h2 := tribAt_modTrib (f := fun t => { t with
    txCur := some n, txNext := none, txSpan := 0, txFresh := true, txPhase := !t.txPhase, blockTx := false }) (by intro; rfl) h1
  refine ⟨_, tribAt_refreshAt (t := { t with
    txCur := some n, txNext := none, txSpan := 0, txFresh := true, txPhase := !t.txPhase, blockTx := false }) ?_ _, rfl, rfl, rfl, rfl, rfl⟩
  rw [switchEvent, ht]
  exact (tribAt_congr (notifyAt_frame _ _ _ _ _ _).2.2.2.2.2.2.2.2.2.2.2.2.1 tid).trans (ht ▸ h2)

theorem keyActivateCheck_none {tid : Byte} {t : Trib} {s : State} (h : tribAt tid s = some t) (hc : t.cipher ≠ 0)
    (hz : zrNow s = false) : firstFail (keyActivateCheck (zrNow s) tid s) = none := by
  simp [keyActivateCheck, h, hc, hz]

/-! ### CIPH.SELFTEST -/

@[simp] theorem selftestEvent_ciph (n : Nat) (s : State) : (selftestEvent n s).ciph = s.ciph := by
  simp [selftestEvent]

theorem runSelftests_tests (s : State) : (runSelftests s).ciph.tests = s.ciph.tests + 1 := by
  unfold runSelftests refreshTribs refreshTribsAt lineFails
  dsimp only
  generalize Config.selfTestPass 0 s.ciph.tests = a
  generalize Config.selfTestPass 1 s.ciph.tests = b
  generalize Config.selfTestPass 2 s.ciph.tests = c
  cases a <;> cases b <;> cases c <;> simp

theorem ciphTribMode_tid (b : Byte) (t : Trib) :
    (if t.cipher = b.toNat then t else { t with cipher := b.toNat, buffer := [], relBad := true, replaced := true }).tid = t.tid := by
  split <;> rfl

/-- Settles O38: each command's checks in the order of its card, and what it writes where they all pass. -/
theorem keyCommands : Obligations.KeyCommands := by
  unfold Obligations.KeyCommands
  refine ⟨fun h s ha => ?_, fun h slot s ha hbad => ?_, fun h slot s ha hb hl => ⟨fun hk => ?_, fun p d hk hp hu hst => ?_, fun p d hk hp hst => ?_⟩,
    fun h slot s ha => ⟨fun hst hu => ?_, fun hst => ⟨?_, ?_⟩⟩, fun h tid ref slot st s ha hc => ?_, ?_, ?_, ?_, ?_, ?_, ?_⟩
  · simp only [exec, execKeyKekInfo]
    rw [query_accept ha]
  · simp only [exec, execKeyLoad, command_accept ha]
    rw [guarded_fail]
    simp only [firstFail_cons, Bool.or_eq_true, Bool.not_eq_true', decide_eq_true_eq, hbad, if_true]
  · simp only [exec, execKeyLoad, command_accept ha]
    rw [guarded_pass (by simp [hb, hl])]
    simp only [hk]
  · exact exec_keyLoad_fills ha hb hl hk hp hu hst
  · exact exec_keyLoad_busy ha hb hl hk hp hst
  · simp only [exec, execKeyErase, command_accept ha]
    rw [guarded_pass]
    · simp [hst, hu, slotCode, bitOf]
    · simp [hst, hu, twoSpanRefuses_of, reservedClear]
  · simp only [exec, execKeyErase, command_accept ha]
    rw [guarded_fail]
    rcases hst with hst | hst | hst <;> simp [hst, reservedClear, bitOf]
  · simp only [exec, execKeyErase, command_accept ha]
    rw [guarded_pass]
    · rcases hst with hst | hst | hst <;> simp [hst, bitOf]
    · rcases hst with hst | hst | hst <;> simp [hst, reservedClear, bitOf]
  · simp only [exec, execKeyAssign, command_accept ha]
    rw [guarded_fail hc]
  · intro h tid slot t s ha ht hl
    refine ⟨fun hc => ?_, fun hc => ?_, fun hc => ?_, fun hc => ?_, fun hc => ?_⟩
    · rw [exec_keyAssign ha hc, keyAssignApply_txNext slot ht]
      exact ⟨_, _, rfl, tribAt_modTrib (by intro; rfl) ((tribAt_congr ((modSlot_tribs _ _ _).trans (releaseRef_tribs _ _)) tid).trans ht), rfl,
        taken_slot (by rw [releaseRef_slots]; exact hl)⟩
    · rw [exec_keyAssign ha hc, keyAssignApply_rxNext slot ht]
      exact ⟨_, _, rfl, tribAt_modTrib (by intro; rfl) ((tribAt_congr ((modSlot_tribs _ _ _).trans (releaseRef_tribs _ _)) tid).trans ht), rfl,
        taken_slot (by rw [releaseRef_slots]; exact hl)⟩
    · rw [exec_keyAssign ha hc, keyAssignApply_rxCur slot ht]
      refine ⟨_, _, rfl, tribAt_refreshAt (tribAt_modTrib (by intro; rfl)
        ((tribAt_congr ((modSlot_tribs _ _ _).trans (drain_tribs _ _ _)) tid).trans ht)) _, rfl, rfl, rfl, ?_⟩
      exact (taken_slot (tid := tid) (st := .current) (s := drain tid t.rxCur s) (f := fun t => { t with
        rxCur := some slot, blockRx := false, confirmed := false, confirmNext := none, adopt := true })
        (by rw [drain_slots]; exact hl)).1
    · rw [exec_keyAssign ha hc, keyAssignApply_noTx slot ht]
      exact ⟨_, _, rfl, tribAt_modTrib (by intro; rfl) ((tribAt_congr (releaseRef_tribs _ _) tid).trans ht), rfl, rfl⟩
    · rw [exec_keyAssign ha hc, keyAssignApply_noRx slot ht]
      exact ⟨_, _, rfl, tribAt_modTrib (by intro; rfl) ((tribAt_congr (releaseRef_tribs _ _) tid).trans ht), rfl, rfl⟩
  · intro h tid t s ha ht hc hz
    simp only [exec, execKeyActivate, command_accept ha]
    rw [guarded_pass (keyActivateCheck_none ht hc hz)]
    refine ⟨fun hs n hn => ?_, fun hs hn => ?_, fun hs => ?_⟩
    · obtain ⟨x, hx⟩ := activate_trib (n := n) ht
      exact ⟨_, x, by simp only [hs, if_true, keyActivateAt, ht, hn], hx⟩
    · simp only [hs, if_true, keyActivateAt, ht, hn]
    · exact ⟨_, by simp only [hs, Bool.false_eq_true, if_false]; rfl, rfl⟩
  · intro h slot s ha hu
    simp only [exec, execKeyStatus, command_accept ha]
    rw [guarded_pass (by simp [hu])]
    simp only [hu, decide_false, Bool.false_and, Bool.false_eq_true, if_false]
  · intro h tid t s ha hz ht
    refine ⟨_, by
      simp only [exec, execCiphTribStatus, command_accept ha]
      rw [guarded_pass (by simp [hz, ht]; decide)]
      simp only [ht]
      rfl, ?_, ?_⟩
    · simp only [exec, execCiphTribStatus, command_accept ha]
      rw [guarded_pass (by simp [hz, ht]; decide)]
      simp only [ht]
      rfl
    · simp
  · intro h s ha hb
    refine ⟨if (runSelftests s).ciph.lineOk && (runSelftests s).ciph.mmOk then .ok else .integrity,
      boolBit (runSelftests s).ciph.lineOk 0 + boolBit (runSelftests s).ciph.mmOk 1, ?_, ?_, ?_, runSelftests_tests s⟩
    · simp only [exec, execCiphSelftest, command_accept ha, hb, Bool.false_eq_true, if_false]
    · split <;> simp_all
    · split <;> simp
  · intro h tid b t s ha hz ht
    refine ⟨fun hc h1 h2 => ?_, fun hc h1 h2 => ?_, fun hb => ?_⟩
    · simp only [exec, execCiphTribMode, command_accept ha]
      rw [guarded_pass (by simp [ciphTribModeCheck, hz, ht, hc]; omega)]
      refine ⟨_, _, rfl, tribAt_modTrib (ciphTribMode_tid _) ht, ?_, fun hne => ?_⟩
      · split
        · assumption
        · rfl
      · rw [if_neg hne]
        exact ⟨rfl, rfl⟩
    · simp only [exec, execCiphTribMode, command_accept ha]
      rw [guarded_fail]
      simp [ciphTribModeCheck, hz, ht, hc]
      omega
    · simp only [exec, execCiphTribMode, command_accept ha]
      rw [guarded_fail]
      simp only [ciphTribModeCheck, firstFail_cons, Bool.or_eq_true, decide_eq_true_eq, hb, if_true]

end Sys2Proof.Machine
end


section
/-! O39. Memory mode. -/
namespace Sys2Proof.Machine

open Sys2Proof

/-! ### Contexts -/

theorem ctxAt_setCtx_same {i : Nat} {s : State} (hi : i < s.mm.length) (c : MmCtx) : ctxAt i (setCtx i c s) = c := by
  simp [ctxAt, setCtx, setAt, List.getD_eq_getElem?_getD, hi]

theorem ctxAt_setCtx_ne {i j : Nat} (hij : i ≠ j) (c : MmCtx) (s : State) : ctxAt j (setCtx i c s) = ctxAt j s := by
  simp [ctxAt, setCtx, setAt, List.getD_eq_getElem?_getD, hij]

theorem ctxAt_raiseMmVote (i : Nat) (s : State) : ctxAt i (raiseMmVote s) = ctxAt i s := rfl

/-- A context that is not damaged goes on to the command's own checks. -/
theorem mmSound_ok {ctx : Byte} {s : State} (hd : (ctxAt ctx.toNat s).damaged = false) (op : Nat) (h : Hdr) (body : State → State) :
    mmSound op h ctx body s = body s := by
  simp only [mmSound, hd, Bool.false_eq_true, if_false]

theorem mmGate_pass {p : Bool} {ctx : Byte} {s : State} (ho : s.ciph.mmOk = true) (hc : ctx.toNat ≤ 11)
    (hb : p = true → cipherBarred s = false) : firstFail (mmGate p ctx s) = none := by
  have hn : ¬ 11 < ctx.toNat := by omega
  cases p <;> simp_all [mmGate]

/-! ### MM.RUN -/

/-- The job that MM.RUN queues. -/
def mmJob (h : Hdr) (mode : Byte) (aadLen : Half) (tag : List Byte) (s : State) : MmJob :=
  ⟨h, mode.toNat, (bufData h s).take aadLen.toNat, (bufData h s).drop aadLen.toNat, padTo 16 tag, decide (s.q.acting = some true),
    (bufData h s).length⟩

theorem mode_continues {mode : Byte} (h : 2 ≤ mode.toNat) (h3 : mode.toNat ≤ 3) : (decide (mode = 2) || decide (mode = 3)) = true := by
  have : mode = 2 ∨ mode = 3 := by
    rcases (by omega : mode.toNat = 2 ∨ mode.toNat = 3) with h | h
    · exact .inl (BitVec.eq_of_toNat_eq h)
    · exact .inr (BitVec.eq_of_toNat_eq h)
  simpa using this

theorem mode_starts {mode : Byte} (h : mode.toNat ≤ 1) : (decide (mode = 2) || decide (mode = 3)) = false := by
  have h2 : mode ≠ 2 := by rintro rfl; exact absurd h (by decide)
  have h3 : mode ≠ 3 := by rintro rfl; exact absurd h (by decide)
  simp only [h2, h3, decide_false, Bool.or_self]

theorem mmRunBad_mode {h : Hdr} {alg dir mode prio : Byte} {aadLen : Half} {data : List Byte}
    (hb : mmRunBad h alg dir mode prio aadLen data = false) : mode.toNat ≤ 3 := by
  by_contra hn
  simp [mmRunBad, (by omega : 3 < mode.toNat)] at hb

/-- MM.RUN of a whole job or a start goes to an idle context. -/
theorem exec_mmRun_start {h : Hdr} {alg dir mode ctx slot prio : Byte} {aadLen : Half} {iv tag : List Byte} {s : State}
    (ha : admitted 0x0820 s = .accept) (ho : s.ciph.mmOk = true) (hc : ctx.toNat ≤ 11) (hb : cipherBarred s = false)
    (hd : (ctxAt ctx.toNat s).damaged = false) (hj : (ctxAt ctx.toNat s).job = none)
    (hbad : mmRunBad h alg dir mode prio aadLen (bufData h s) = false) (hu : (slotNow slot s).data.usage = 2)
    (hus : usable (slotNow slot s) = true) (hm : mode.toNat ≤ 1) (hbusy : (ctxAt ctx.toNat s).busy = false)
    (hout : (ctxAt ctx.toNat s).out = []) (hdl : (bufData h s).length ≤ 4096) :
    exec (.mmRun h alg dir mode ctx slot prio aadLen iv tag) s = .next (raiseMmVote (setCtx ctx.toNat
      { idleCtx (ctxAt ctx.toNat s) with
        busy := true, alg := alg.toNat, dir := dir.toNat, prio := prio.toNat, slot := slot,
        ctr := if alg = 0 then incr32 (gcmJ0 iv) else padTo 16 iv, ghash := List.replicate 16 0,
        iv := if alg = 0 then padTo 12 iv else List.replicate 12 0, job := some (mmJob h mode aadLen tag s) } s)) := by
  have hs := mode_starts hm
  simp only [exec, execMmRun, command_accept ha, mmSound_ok hd]
  rw [guarded_pass]
  · simp only [hs, Bool.false_eq_true, if_false]
    rfl
  · rw [firstFail_append (mmGate_pass ho hc fun _ => hb)]
    have hbig : ¬ 16777216 < 0 + (bufData h s).length - aadLen.toNat := by omega
    simp only [firstFail_cons, firstFail_nil, hbad, hu, hus, hj, hs, hbusy, hout, List.isEmpty_nil, List.length_nil, hbig,
      Option.isSome_none, ne_eq, not_true_eq_false, decide_false, Bool.not_true, Bool.not_false, Bool.or_self, Bool.and_false,
      Bool.false_and, Bool.false_eq_true, if_false]

/-- MM.RUN of a continue or a finish goes to the context that has started it. -/
theorem exec_mmRun_continue {h : Hdr} {alg dir mode ctx slot prio : Byte} {aadLen : Half} {iv tag : List Byte} {s : State}
    (ha : admitted 0x0820 s = .accept) (ho : s.ciph.mmOk = true) (hc : ctx.toNat ≤ 11) (hb : cipherBarred s = false)
    (hd : (ctxAt ctx.toNat s).damaged = false) (hj : (ctxAt ctx.toNat s).job = none)
    (hbad : mmRunBad h alg dir mode prio aadLen (bufData h s) = false) (hu : (slotNow slot s).data.usage = 2)
    (hus : usable (slotNow slot s) = true) (hm : 2 ≤ mode.toNat) (hbusy : (ctxAt ctx.toNat s).busy = true)
    (halg : (ctxAt ctx.toNat s).alg = alg.toNat) (hdir : (ctxAt ctx.toNat s).dir = dir.toNat)
    (hslot : (ctxAt ctx.toNat s).slot = slot) (hsz : (ctxAt ctx.toNat s).out.length + (bufData h s).length ≤ 16777216) :
    exec (.mmRun h alg dir mode ctx slot prio aadLen iv tag) s = .next (raiseMmVote (setCtx ctx.toNat
      { ctxAt ctx.toNat s with prio := prio.toNat, job := some (mmJob h mode aadLen tag s) } s)) := by
  have hk := mode_continues hm (mmRunBad_mode hbad)
  simp only [exec, execMmRun, command_accept ha, mmSound_ok hd]
  rw [guarded_pass]
  · simp only [hk, if_true]
    rfl
  · rw [firstFail_append (mmGate_pass ho hc fun _ => hb)]
    have hbig : ¬ 16777216 < (ctxAt ctx.toNat s).out.length + (bufData h s).length - aadLen.toNat := by omega
    simp only [firstFail_cons, firstFail_nil, hbad, hu, hus, hj, hk, hbusy, halg, hdir, hslot, hbig, Option.isSome_none, ne_eq,
      not_true_eq_false, decide_false, Bool.not_true, Bool.or_self, Bool.and_false, Bool.false_and, Bool.false_eq_true, if_false]

/-! ### Completion -/

/-- R264: the job that the rotation ends first is completed. -/
theorem exec_mmJobDone {ctx : BitVec 4} {j : MmJob} {left : List (Nat × Nat)} {s s1 : State} (hj : (ctxAt ctx.toNat s).job = some j)
    (hp : s.pwr.powered.getLsbD 5 = true) (hf : s.dbg.frozen = false)
    (hr : mmRotate 128 s.ciph.mmTurn (mmReady s) = some (ctx.toNat, left))
    (hs1 : s1 = { s with mm := s.mm.mapIdx (mmLeft left), ciph := { s.ciph with mmTurn := ctx.toNat } }) :
    exec (.mmJobDone ctx) s = .next (raiseMmVote (answerLate j.late (fun t =>
      if t.ciph.mmOk = false then refuse 0x0820 j.hdr .integrity (setCtx ctx.toNat (idleCtx (ctxAt ctx.toNat s)) t)
      else if (ctxAt ctx.toNat s).alg = 0 then
        gcmDone ctx.toNat (slotNow (ctxAt ctx.toNat s).slot s).data.key (ctxAt ctx.toNat s) j t
      else if (ctxAt ctx.toNat s).alg = 1 then
        ctrDone ctx.toNat (slotNow (ctxAt ctx.toNat s).slot s).data.key (ctxAt ctx.toNat s) j t
      else if (ctxAt ctx.toNat s).alg = 2 then
        ecbDone ctx.toNat (slotNow (ctxAt ctx.toNat s).slot s).data.key (ctxAt ctx.toNat s) j t
      else kwDone ctx.toNat (slotNow (ctxAt ctx.toNat s).slot s).data.key (ctxAt ctx.toNat s) j t) s1)) := by
  simp only [exec, execMmJobDone, hj, hr]
  rw [if_pos (by simp [hp, hf]), hs1]
  rfl

/-- A late answer depends on the function at the state in which it is given. -/
theorem answerLate_congr {f g : State → State} {late : Bool} {s : State}
    (h : f { s with q := { s.q with acting := some late } } = g { s with q := { s.q with acting := some late } }) :
    answerLate late f s = answerLate late g s := by
  simp only [answerLate, h]

theorem gcmPart_serial (key : List Byte) (c : MmCtx) (j : MmJob) : (gcmPart key c j).1.serial = c.serial := by simp only [gcmPart]

theorem gcmPart_restored (key : List Byte) (c : MmCtx) (j : MmJob) : (gcmPart key c j).1.restored = c.restored := by
  simp only [gcmPart]

theorem middle_of_eq {α β γ : Type} {x : α × β × γ} {a : α} {b : β} {c : γ} (h : x = (a, b, c)) : x.2.1 = b := by
  rw [h]

/-- R262: the text of a GCM job. The kernel must not compare the tags, so the equation of the whole result is taken apart. -/
theorem gcmPart_text (key : List Byte) (c : MmCtx) (j : MmJob) :
    (gcmPart key c j).2.1 = (ctrRun incr32 key (blocks j.data) c.ctr).1 :=
  middle_of_eq (gcmPart.eq_1 key c j)

/-- R262: a whole GCM job: the tag with the text, or a failed check that zeros the buffer. -/
theorem gcmDone_whole {j : MmJob} (hm : j.mode = 0) (n : Nat) (key : List Byte) (c : MmCtx) (s : State) : gcmDone n key c j s =
    if c.dir = 0 then mmReply j.hdr (gcmPart key c j).2.2 (c.dataBytes + j.data.length) 0
      (some (ctrRun incr32 key (blocks j.data) c.ctr).1) (setCtx n (idleCtx c) s)
    else if (gcmPart key c j).2.2 = j.tag then mmReply j.hdr [] (c.dataBytes + j.data.length) 0
      (some (ctrRun incr32 key (blocks j.data) c.ctr).1) (setCtx n (idleCtx c) s)
    else refuse 0x0820 j.hdr .authFail (zeroBuffer j.hdr (setCtx n (idleCtx c) s)) := by
  have hi : idleCtx (gcmPart key c j).1 = idleCtx c := by
    rw [idleCtx, idleCtx, gcmPart_serial, gcmPart_restored]
  have hd : (gcmPart key c j).1.dataBytes = c.dataBytes + j.data.length := by simp only [gcmPart]
  have ho : (gcmPart key c j).2.1 = (ctrRun incr32 key (blocks j.data) c.ctr).1 := gcmPart_text key c j
  simp only [gcmDone, hm, decide_true, Bool.true_or, if_true, hi, hd, ho]

/-! ### Contexts saved, restored and read -/

/-- R265: MM.CTX_SAVE takes the next serial and leaves the context idle. -/
theorem exec_mmCtxSave {h : Hdr} {ctx form : Byte} {s : State} (ha : admitted 0x0821 s = .accept) (ho : s.ciph.mmOk = true)
    (hc : ctx.toNat ≤ 11) (hb : h.buf = true) (hd : (ctxAt ctx.toNat s).damaged = false) (hbusy : (ctxAt ctx.toNat s).busy = true)
    (hj : (ctxAt ctx.toNat s).job = none) (hf1 : form.toNat ≤ 1)
    (hform : (decide (form = 0) && !decide ((ctxAt ctx.toNat s).alg = 1) &&
      !(slotNow (ctxAt ctx.toNat s).slot s).data.clearCtx) = false) :
    ∃ blob, exec (.mmCtxSave h ctx form) s = .next (respond 0x0821 h .ok
        (result [fld 16 4 ((ctxAt ctx.toNat s).serial + 1).toNat, fld 20 2 blob.length]) (some blob)
        (raiseMmVote (setCtx ctx.toNat { idleCtx { ctxAt ctx.toNat s with
          serial := (ctxAt ctx.toNat s).serial + 1, restored := false } with out := (ctxAt ctx.toNat s).out } s))) := by
  have hpass : firstFail (mmGate false ctx s ++ [(decide (1 < form.toNat) || !h.buf, .badArg),
      (!(ctxAt ctx.toNat s).busy || (ctxAt ctx.toNat s).job.isSome, .badState),
      (decide (form = 0) && !decide ((ctxAt ctx.toNat s).alg = 1) && !(slotNow (ctxAt ctx.toNat s).slot s).data.clearCtx,
        .refused)]) = none := by
    rw [firstFail_append (mmGate_pass ho hc fun h => absurd h (by decide))]
    have hn : ¬ 1 < form.toNat := by omega
    simp only [firstFail_cons, firstFail_nil, hn, hb, hbusy, hj, hform, decide_false, Bool.not_true, Option.isSome_none, Bool.or_self,
      Bool.false_eq_true, if_false]
  exact ⟨_, by simp only [exec, execMmCtxSave, command_accept ha, mmSound_ok hd]; rw [guarded_pass hpass]⟩

/-- MM.CTX_RESTORE of a buffer of one of the two lengths goes on to the block that it holds. -/
theorem exec_mmCtxRestore {h : Hdr} {ctx : Byte} {s : State} {b : List Byte} (ha : admitted 0x0822 s = .accept)
    (ho : s.ciph.mmOk = true) (hc : ctx.toNat ≤ 11) (hb : h.buf = true) (hbar : cipherBarred s = false)
    (hd : (ctxAt ctx.toNat s).damaged = false)
    (hl : h.length = 96 ∧ b = bufData h s ∨ h.length = 104 ∧ kwUnwrap s.ident.kek (bufData h s) = some b) :
    exec (.mmCtxRestore h ctx) s = .next (guarded 0x0822 h (restoreCheck ctx (decide (h.length = 104)) b s) (fun s =>
      reply 0x0822 h [fld 16 4 (fieldAt b 8 4)] (raiseMmVote (setCtx ctx.toNat
        { ctxOf b (ctxAt ctx.toNat (setCtx (byteAt b 2).toNat { ctxAt (byteAt b 2).toNat s with restored := true } s)).out with
          serial := (ctxAt ctx.toNat (setCtx (byteAt b 2).toNat { ctxAt (byteAt b 2).toNat s with restored := true } s)).serial,
          restored := (ctxAt ctx.toNat (setCtx (byteAt b 2).toNat { ctxAt (byteAt b 2).toNat s with restored := true } s)).restored }
        (setCtx (byteAt b 2).toNat { ctxAt (byteAt b 2).toNat s with restored := true } s)))) s) := by
  simp only [exec, execMmCtxRestore, command_accept ha, mmSound_ok hd]
  rw [guarded_pass]
  · rcases hl with ⟨hl, rfl⟩ | ⟨hl, hk⟩
    · rw [if_neg (by rw [hl]; decide)]
    · rw [if_pos (by rw [hl]; decide), hk]
  · rw [firstFail_append (mmGate_pass ho hc fun _ => hbar)]
    rcases hl with ⟨hl, -⟩ | ⟨hl, -⟩ <;> rw [hl] <;> simp [hb]

/-- Settles O39: a job's context through start, completion, save and restore, each by its own lemma. -/
theorem memoryMode : Obligations.MemoryMode := by
  unfold Obligations.MemoryMode
  refine ⟨?_, ?_, ?_, ?_, ?_, ?_, ?_⟩
  · intro h alg dir mode ctx slot prio aadLen iv tag j s ha ho hc hl hb hd hj hbad hu hus hjob
    refine ⟨fun hm hbusy hout hdl => ?_, fun hm hbusy halg hdir hslot hsz => ?_⟩
    · refine ⟨_, exec_mmRun_start ha ho hc hb hd hj hbad hu hus hm hbusy hout hdl, ?_⟩
      rw [ctxAt_raiseMmVote, ctxAt_setCtx_same hl]
      exact ⟨rfl, rfl, rfl, rfl, rfl, by rw [hjob]; rfl, rfl, rfl, rfl⟩
    · rw [exec_mmRun_continue ha ho hc hb hd hj hbad hu hus hm hbusy halg hdir hslot hsz, hjob]
      rfl
  · intro ctx j left key s s1 hj hp hf hr hs1 hk
    rw [exec_mmJobDone hj hp hf hr hs1, hk]
    have h1 : s1.ciph.mmOk = s.ciph.mmOk := by rw [hs1]
    refine ⟨fun ho => ?_, fun ho => ⟨fun hal => ?_, fun hal => ?_, fun hal => ?_, fun hal => ?_⟩⟩
    · rw [answerLate_congr]
      exact if_pos (h1.trans ho)
    · rw [answerLate_congr]
      exact (if_neg (by simp [h1, ho])).trans (if_pos hal)
    · rw [answerLate_congr]
      simp [h1, ho, hal]
    · rw [answerLate_congr]
      simp [h1, ho, hal]
    · rw [answerLate_congr]
      simp [h1, ho, hal]
  · intro ctx s hr
    simp only [exec, execMmJobDone]
    cases hj : (ctxAt ctx.toNat s).job with
    | none => rfl
    | some j =>
      have hn : ¬ (mmRotate 128 s.ciph.mmTurn (mmReady s)).map (·.1) = some ctx.toNat := by
        intro hx
        obtain ⟨⟨a, left⟩, hy, rfl⟩ := Option.map_eq_some_iff.mp hx
        exact hr left hy
      simp only [hn, decide_false, Bool.and_false, Bool.false_and, Bool.false_eq_true, if_false]
  · intro n key c j s hm
    rw [gcmDone_whole hm]
    refine ⟨fun hd => by rw [if_pos hd], fun hd ht => by rw [if_neg (by omega), if_pos ht], fun hd ht => by rw [if_neg (by omega), if_neg ht]⟩
  · intro h ctx s ha ho hc hb hl hd hbusy hjob
    refine ⟨fun form hform => ?_, fun hal hcl => ?_⟩
    · have hf1 : form.toNat ≤ 1 := by rcases hform with rfl | ⟨rfl, -⟩ <;> decide
      obtain ⟨blob, he⟩ := exec_mmCtxSave (form := form) ha ho hc hb hd hbusy hjob hf1 (by
        rcases hform with rfl | ⟨rfl, hal | hcl⟩
        · rfl
        · simp [hal]
        · simp [hcl])
      refine ⟨_, blob, he, ?_⟩
      rw [ctxAt_raiseMmVote, ctxAt_setCtx_same hl]
      exact ⟨rfl, rfl, rfl, rfl⟩
    · simp only [exec, execMmCtxSave, command_accept ha, mmSound_ok hd]
      rw [guarded_fail]
      rw [firstFail_append (mmGate_pass ho hc fun h => absurd h (by decide))]
      simp [hb, hbusy, hjob, hal, hcl]
  · intro h ctx s ha ho hc hb hbar hl hd
    refine ⟨fun hlen hk => ?_, fun b hb' => ⟨fun st hst => ?_, fun hnone => ?_⟩⟩
    · simp only [exec, execMmCtxRestore, command_accept ha, mmSound_ok hd]
      rw [guarded_pass]
      · rw [if_pos (decide_eq_true hlen), hk]
      · rw [firstFail_append (mmGate_pass ho hc fun _ => hbar)]
        rw [hlen]
        simp [hb]
    · rw [exec_mmCtxRestore ha ho hc hb hbar hd hb', guarded_fail hst]
    · refine ⟨_, by rw [exec_mmCtxRestore ha ho hc hb hbar hd hb', guarded_pass hnone], ?_⟩
      have hl' : ctx.toNat < (setCtx (byteAt b 2).toNat { ctxAt (byteAt b 2).toNat s with restored := true } s).mm.length := by
        simpa [setCtx, setAt] using hl
      simp only [ctxAt_raiseMmVote]
      rw [ctxAt_setCtx_same hl']
      refine ⟨rfl, rfl, rfl, rfl, fun ho => ?_⟩
      by_cases he : ctx.toNat = (byteAt b 2).toNat
      · have ho' : ctx.toNat < s.mm.length := hl
        rw [← he] at hl' ⊢
        rw [ctxAt_setCtx_same hl']
        exact congrArg MmCtx.restored (ctxAt_setCtx_same ho' _)
      · rw [ctxAt_setCtx_ne he, ctxAt_setCtx_same ho]
  · intro h ctx offset s ha ho hc hb hd hr hoff
    have hn : ¬ (ctxAt ctx.toNat s).out.length < offset.toNat := by omega
    refine ⟨?_, ?_⟩
    · simp only [exec, execMmRead, command_accept ha, mmSound_ok hd]
      rw [guarded_pass]
      · rfl
      · rw [firstFail_append (mmGate_pass ho hc fun h => absurd h (by decide))]
        simp [hb, hr, hn, reservedClear]
    · simp only [exec, execMmRead, command_accept ha, mmSound_ok hd]
      rw [guarded_pass]
      · rfl
      · rw [firstFail_append (mmGate_pass ho hc fun h => absurd h (by decide))]
        simp [hb, hr, hn, reservedClear]

end Sys2Proof.Machine
end


section
/-! O40. The host lanes: the link's moves, lane frames, control messages, and the failures of ports. -/
namespace Sys2Proof.Machine

open Sys2Proof

/-! ### Moves of the link -/

theorem readmit_hl (s : State) : (readmit s).hl = { s.hl with admitted := (readmit s).hl.admitted, ports := (readmit s).hl.ports } := by
  unfold readmit
  split
  · split <;> rfl
  · rfl

theorem notify_hl (e c : Half) (b : Option Bool) (d : List Byte) (s : State) : (notify e c b d s).hl = s.hl := by simp

theorem notify_tribs (e c : Half) (b : Option Bool) (d : List Byte) (s : State) : (notify e c b d s).tribs = s.tribs := by simp

/-- R290: a move of the link writes its state, its time, and what it admits. -/
theorem linkTo_hl (st : LinkSt) (cause : Nat) (s : State) : (linkTo st cause s).hl = { s.hl with
    link := st, since := s.time.lts.sf, admitted := (linkTo st cause s).hl.admitted, ports := (linkTo st cause s).hl.ports } := by
  unfold linkTo
  split
  next h => rw [← h]
  next h =>
    dsimp only
    split
    · rw [notify_hl, readmit_hl]
    · rw [readmit_hl]

theorem sendControl_hl (type : Byte) (lanes : Half) (fields : List Byte) (s : State) :
    (sendControl type lanes fields s).hl = { s.hl with control := (sendControl type lanes fields s).hl.control } := rfl

/-- What a start of phase 1 leaves of the link (R291, R294). -/
theorem bringUp_hl (quick : Bool) (cause silence : Nat) (s : State) :
    (bringUp quick cause silence s).hl.link = .detect ∧
    (bringUp quick cause silence s).hl.fast = (quick && decide (s.hl.lastStep ≠ 0)) ∧
    (bringUp quick cause silence s).hl.fulls = (if (quick && decide (s.hl.lastStep ≠ 0)) then s.hl.fulls else s.hl.fulls + 1) ∧
    (bringUp quick cause silence s).hl.lp = none ∧ (bringUp quick cause silence s).hl.rdi = s.hl.rdi ∧
    (bringUp quick cause silence s).hl.n = s.hl.n := by
  unfold bringUp
  dsimp only
  rw [sendControl_hl]
  dsimp only
  rw [linkTo_hl]
  exact ⟨rfl, rfl, rfl, rfl, rfl, rfl⟩

theorem switchTo_hl (target : Nat) (s : State) : (switchTo target s).hl.link = .switch ∧ (switchTo target s).hl.target = target ∧
    (switchTo target s).hl.failedTop = s.hl.failedTop := by
  unfold switchTo
  dsimp only
  rw [sendControl_hl]
  dsimp only
  rw [linkTo_hl]
  exact ⟨rfl, rfl, rfl⟩

theorem lpAbandon_hl (s : State) : (lpAbandon s).hl = { s.hl with lp := none } := by
  unfold lpAbandon answerLate
  split
  · simp
  · rfl

theorem linkLow_link (st cause : Nat) (s : State) : (linkLow st cause s).hl.link = (if st = 1 then .l1 else .l2) := by
  rw [linkLow, linkTo_hl]

/-! ### Lanes -/

theorem modLane_getD {i : Nat} {f : Lane → Lane} {l : Lane} {s : State} (h : s.hl.lanes[i]? = some l) :
    (modLane i f s).hl.lanes.getD i {} = f l := by
  obtain ⟨hi, rfl⟩ := List.getElem?_eq_some_iff.mp h
  simp [modLane, modAt, List.getD_eq_getElem?_getD, hi]

theorem modLane_getElem {i : Nat} {f : Lane → Lane} {l : Lane} {s : State} (h : s.hl.lanes[i]? = some l) :
    (modLane i f s).hl.lanes[i]? = some (f l) := by
  obtain ⟨hi, rfl⟩ := List.getElem?_eq_some_iff.mp h
  simp [modLane, modAt, hi]

theorem frameSent_hl (i : Nat) (s : State) : (frameSent i s).hl.lanes = s.hl.lanes ∧ (frameSent i s).hl.n = s.hl.n ∧
    (frameSent i s).hl.link = s.hl.link := by
  unfold frameSent
  split <;> exact ⟨rfl, rfl, rfl⟩

/-- R288: one lane that is not locked raises RDI. -/
theorem refreshRdi_raises {i : Nat} {l : Lane} {s : State} (hl : s.hl.lanes[i]? = some l) (hi : i < s.hl.n) (hk : l.locked = false) :
    (refreshRdi s).hl.rdi = true := by
  have hm : l ∈ s.hl.lanes.take s.hl.n := by
    obtain ⟨hlen, rfl⟩ := List.getElem?_eq_some_iff.mp hl
    exact List.mem_take_iff_getElem.mpr ⟨i, by omega, rfl⟩
  have hf : allLanes (fun l => l.locked) s = false := by
    rw [allLanes, List.all_eq_false]
    exact ⟨l, hm, by simp [hk]⟩
  simp [refreshRdi, hf]

/-- R288: a lane's lock in the link-up state, when no marker names another lane. -/
theorem exec_laneFrame_up {f : LaneFrame} {l : Lane} {s : State} (hr : linkRuns s = true) (hn : f.lane.toNat < s.hl.n)
    (hl : s.hl.lanes[f.lane.toNat]? = some l) (hup : s.hl.link = .up) (hk : l.locked = true)
    (hfield : (markGood f && !decide (f.laneField = f.lane)) = false) :
    exec (.laneFrameReceive f) s = .next (
      if (laneTake f l).locked = true then deskew (modLane f.lane.toNat
        (fun l => { l with held := (l.held ++ [laneHeld f]).drop (l.held.length - 11) })
        (refreshRdi (frameSent f.lane.toNat (modLane f.lane.toNat (laneTake f) s))))
      else bringUp true 1 0 (lpAbandon (refreshRdi (laneEvent f.lane.toNat false
        (frameSent f.lane.toNat (modLane f.lane.toNat (laneTake f) s)))))) := by
  obtain ⟨hlanes, hnn, hlink⟩ := frameSent_hl f.lane.toNat (modLane f.lane.toNat (laneTake f) s)
  have hwas : (s.hl.lanes.getD f.lane.toNat {}).locked = true := by
    rw [List.getD_eq_getElem?_getD, hl]
    exact hk
  have hnow : ((frameSent f.lane.toNat (modLane f.lane.toNat (laneTake f) s)).hl.lanes.getD f.lane.toNat {}).locked =
      (laneTake f l).locked := by
    rw [hlanes, modLane_getD hl]
  have hup1 : (frameSent f.lane.toNat (modLane f.lane.toNat (laneTake f) s)).hl.link = .up := by rw [hlink]; exact hup
  simp only [exec, execLaneFrameReceive, hr, hn, decide_true, Bool.and_self, if_true, hfield, hwas, hnow, Bool.false_eq_true, if_false]
  cases hb : (laneTake f l).locked with
  | true => simp only [if_true]; rw [if_pos (by exact hup1)]
  | false =>
    simp only [Bool.true_eq_false, Bool.false_eq_true, if_false]
    rw [if_pos (by simpa [refreshRdi, laneEvent] using hup1)]

/-- R288: a lane that loses its lock in the link-up state starts phase 1 with RDI. -/
theorem exec_laneFrame_lost {f : LaneFrame} {l : Lane} {s : State} (hr : linkRuns s = true) (hn : f.lane.toNat < s.hl.n)
    (hl : s.hl.lanes[f.lane.toNat]? = some l) (hup : s.hl.link = .up) (hk : l.locked = true)
    (hfield : (markGood f && !decide (f.laneField = f.lane)) = false) (hlost : (laneTake f l).locked = false) :
    ∃ u, exec (.laneFrameReceive f) s = .next u ∧ u.hl.link = .detect ∧ u.hl.rdi = true := by
  obtain ⟨hlanes, hnn, -⟩ := frameSent_hl f.lane.toNat (modLane f.lane.toNat (laneTake f) s)
  refine ⟨_, by rw [exec_laneFrame_up hr hn hl hup hk hfield, if_neg (by simp [hlost])], ?_⟩
  obtain ⟨hlink, -, -, -, hrdi, -⟩ := bringUp_hl true 1 0 (lpAbandon (refreshRdi (laneEvent f.lane.toNat false
    (frameSent f.lane.toNat (modLane f.lane.toNat (laneTake f) s)))))
  rw [hlink, hrdi, lpAbandon_hl]
  refine ⟨rfl, refreshRdi_raises (i := f.lane.toNat) (l := laneTake f l) ?_ ?_ hlost⟩
  · rw [laneEvent, notify_hl, hlanes, modLane_getElem hl]
  · rw [laneEvent, notify_hl, hnn]
    exact hn

/-! ### Deskew and ports -/

/-- R289: frames of the same LFC on every lane are taken together. -/
theorem deskew_ports {x : LaneHeld} {xs : List LaneHeld} {s : State}
    (hh : (s.hl.lanes.take s.hl.n).map (fun l => l.held.head?) = (x :: xs).map some) (hx : ∀ y ∈ xs, y.lfc = x.lfc) :
    (deskew s).hl.ports = s.hl.ports.map fun p => if nearLoop p s then p else portTake (x :: xs) p := by
  have hall : ((x :: xs).map some).all (fun y => decide (y.map (·.lfc) = some x.lfc)) = true := by
    rw [List.all_eq_true]
    intro y hy
    obtain ⟨z, hz, rfl⟩ := List.mem_map.mp hy
    rcases List.mem_cons.mp hz with rfl | hz
    · simp
    · simp [hx z hz]
  unfold deskew
  simp only [hh, List.map_cons, List.head?_cons]
  rw [if_pos (by simpa using hall)]
  simp

/-- R289: with every codeword good the positions of a port count, and none is an error. -/
theorem portTake_good {frames : List LaneHeld} {p : Port} (hu : p.unserved = false)
    (hg : ∀ y ∈ frames, y.cw0Bad = false ∧ y.cw1Bad = false) : (portTake frames p).blocksIn =
      p.blocksIn + BitVec.ofNat 32 ((frames.map fun f => (f.tags.filter fun g => decide (g = p.num)).length).sum) ∧
    (portTake frames p).errBlocks = p.errBlocks := by
  have hs : frames.filter (fun f => !f.cw0Bad) = frames := by
    rw [List.filter_eq_self]
    intro y hy
    simp [(hg y hy).1]
  have hlate : (frames.map fun f =>
      if f.cw1Bad then ((f.tags.drop 19).filter fun g => decide (g = p.num)).length else 0).sum = 0 := by
    rw [List.sum_eq_zero]
    intro n hn
    obtain ⟨y, hy, rfl⟩ := List.mem_map.mp hn
    simp [(hg y hy).2]
  simp [portTake, hu, hs, hlate]

/-- R295: the limit of phase 3 at its last step. -/
theorem phaseLimit_top {s : State} (hl : s.hl.link = .train) (hf : s.hl.fast = false) (h3 : s.hl.step = 3) :
    phaseLimit s = some 160 := by
  simp [phaseLimit, hl, hf, h3]

theorem linkRuns_powered {s : State} (h : linkRuns s = true) : s.hl.osier = true ∧ zrNow s = false ∧ hostPowered s = true ∧
    ticking s = true := by
  simp only [linkRuns, Bool.and_eq_true, Bool.not_eq_true'] at h
  obtain ⟨⟨⟨⟨h1, h2⟩, h3⟩, h4⟩, -⟩ := h
  exact ⟨h1, h2, h3, h4⟩

/-- R293: LINK_UP both ways on deskewed lanes is the link-up state. -/
theorem phaseCheck_bond {s : State} (hl : s.hl.link = .bond) : phaseCheck s =
    if s.hl.upSent ∧ s.hl.upSeen ∧ deskewed s then linkTo .up 0
      { mapLanes (fun l => { l with s2 := l.c2, s1 := l.c1, sp := l.cp }) s with
        hl := { (mapLanes (fun l => { l with s2 := l.c2, s1 := l.c1, sp := l.cp }) s).hl with
          lastStep := (mapLanes (fun l => { l with s2 := l.c2, s1 := l.c1, sp := l.cp }) s).hl.step, upAt := s.time.lts.sf,
          fast := false } }
    else s := by
  simp only [phaseCheck, hl]

/-! ### Ports -/

theorem setCsf_all {n : Nat} {b : Bool} {s : State} {t : Trib} (ht : t ∈ (setCsf n b s).tribs) (hp : t.port = n) : t.txCsf = b := by
  obtain ⟨x, -, rfl⟩ := List.mem_map.mp ht
  by_cases hx : x.port = n
  · simp [hx]
  · simp [hx] at hp

theorem setCsf_tids (n : Nat) (b : Bool) (s : State) : (setCsf n b s).tribs.map (fun t => t.tid) = s.tribs.map (fun t => t.tid) := by
  simp only [setCsf, List.map_map]
  refine List.map_congr_left fun t _ => ?_
  simp only [Function.comp_apply]
  split <;> rfl

theorem modPort_all {n : Nat} {f : Port → Port} {s : State} {q : Port} (hq : q ∈ (modPort n f s).hl.ports) (hn : q.num = n) :
    ∃ p, q = f p := by
  obtain ⟨x, -, rfl⟩ := List.mem_map.mp hq
  by_cases hx : x.num = n
  · exact ⟨x, if_pos hx⟩
  · rw [if_neg hx] at hn
    exact absurd hn hx

/-- Settles O40: a frame or a control message by the phase of the link that receives it. -/
theorem hostLaneEvents : Obligations.HostLaneEvents := by
  unfold Obligations.HostLaneEvents
  refine ⟨?_, fun x xs s hh hx => deskew_ports hh hx, fun frames p hu hg => portTake_good hu hg, ?_, ?_, ?_, ?_, ?_, ?_, ?_⟩
  · intro f l s hr hn hl hup hk
    refine ⟨fun hm hf h0 h1 => ?_, fun hm hb => ?_, fun hm hf hcw hb => ?_⟩
    · have hkk : (laneTake f l).locked = true := by simp [laneTake, hm, hf, h0, h1, hk]
      refine ⟨?_, hkk, rfl, ?_⟩
      · rw [exec_laneFrame_up hr hn hl hup hk (by simp [hf]), if_pos hkk]
      · simp [laneTake, hm, hf]
    · refine exec_laneFrame_lost hr hn hl hup hk (by simp [hm]) ?_
      simp [laneTake, hm]
      omega
    · refine exec_laneFrame_lost hr hn hl hup hk (by simp [hf]) ?_
      have hbad : (f.cw0Bad || f.cw1Bad) = true := by rcases hcw with h | h <;> simp [h]
      simp only [laneTake, hbad, if_true]
      rw [if_pos (by simp; omega)]
  · intro lane blk s hr hn
    obtain ⟨hos, hz, hpw, htk⟩ := linkRuns_powered hr
    refine ⟨fun hl hsi => ⟨fun hg => ?_, fun hg hst => ?_⟩, fun hl => ⟨fun hg ht => ?_, fun hg => ?_⟩, fun hl hg => ?_,
      fun hl hg hst hse => ⟨fun hd => ?_, fun hd => ?_⟩, fun hl => ⟨fun hg hlp hst => ?_, fun st lfc late h hg hlp hst => ?_, fun hg => ?_⟩⟩
    · simp only [exec, execOsierAdvertise]
      rw [if_pos (by simp [hos, hz, hpw, htk, hn]), if_neg (by simp [hl]), if_pos ⟨hl, hsi⟩, if_neg (fun h => by rw [hg] at h; cases h.1)]
    · simp only [exec, execOsierAdvertise]
      rw [if_pos (by simp [hos, hz, hpw, htk, hn]), if_neg (by simp [hl]), if_pos ⟨hl, hsi⟩, if_pos ⟨hg, hst⟩]
    · simp only [exec, execOsierStepAck]
      rw [if_pos (by simp only [hr, hn, hl, hg, ht, decide_true, Bool.and_self])]
    · simp only [exec, execOsierStepAck]
      rw [if_neg (by simp only [hg, Bool.and_false, Bool.false_and, Bool.false_eq_true, not_false_eq_true])]
    · exact ⟨_, by simp only [exec, execOsierTrain]; rw [if_pos (by simp only [hr, hn, hl, hg, decide_true, Bool.and_self])]; rfl⟩
    · refine ⟨_, by simp only [exec, execOsierLinkUp]; rw [if_pos (by simp only [hr, hn, hl, hg, hst, decide_true, Bool.and_self])], ?_⟩
      rw [phaseCheck_bond (s := { s with hl := { s.hl with upSeen := true } }) hl, if_pos ⟨hse, rfl, hd⟩, linkTo_hl]
      exact ⟨rfl, rfl, rfl⟩
    · simp only [exec, execOsierLinkUp]
      rw [if_pos (by simp only [hr, hn, hl, hg, hst, decide_true, Bool.and_self])]
      rw [phaseCheck_bond (s := { s with hl := { s.hl with upSeen := true } }) hl,
        if_neg (fun hx => absurd (hd.symm.trans hx.2.2) (by decide))]
    · have hst' : (byteAt blk 6).toNat = 1 ∨ (byteAt blk 6).toNat = 2 := by
        rcases hst with h | h <;> rw [h] <;> decide
      refine ⟨_, by simp only [exec, execOsierLpReq]; rw [if_pos (by
        simp only [hr, hn, hl, hg, hlp, decide_true, Bool.and_self, Option.isNone_none, Bool.and_true, Bool.true_and, Bool.or_eq_true,
          decide_eq_true_eq]
        exact hst')], ?_⟩
      rw [linkLow_link]
      rcases hst with h | h <;> rw [h] <;> rfl
    · refine ⟨linkLow st 0 { s with hl := { s.hl with lp := none } }, ?_, linkLow_link _ _ _, ?_⟩
      · simp only [exec, execOsierLpAck, hlp]
        rw [if_pos (by simp only [hr, hn, hl, hg, hst, decide_true, Bool.and_self])]
      · rw [linkLow, linkTo_hl]
    · refine ⟨_, by simp only [exec, execOsierFault]; rw [if_pos (by simp only [hr, hn, hl, hg, decide_true, Bool.and_self])], ?_⟩
      obtain ⟨hlink, hfast, -, hlp, -⟩ := bringUp_hl true 3 0 (lpAbandon s)
      rw [hlink, hfast, hlp, lpAbandon_hl]
      exact ⟨rfl, rfl, rfl⟩
  · intro lane blk s hos hz hpw htk hn hl hg
    refine ⟨_, by
      simp only [exec, execOsierAdvertise]
      rw [if_pos (by simp [hos, hz, hpw, htk, hn]), if_pos ⟨hl, hg⟩], ?_⟩
    obtain ⟨hlink, hfast, -⟩ := bringUp_hl true 0 0 s
    rw [hlink, hfast]
    exact ⟨rfl, rfl⟩
  · intro s hr
    refine ⟨fun hl hx hs => ?_, fun hl hx hs => ?_, fun hl hx hs => ?_, fun hl hf hd => ?_, fun hl hf h3 hd ht => ?_, fun hl hf h3 hd ht => ?_, fun hl => ⟨fun hd => ?_, fun hd => ?_⟩⟩
    · simp only [exec, execOsierStepSwitch]
      rw [if_pos (by simp [hr, hl, hx])]
      simp [hs]
    · simp only [exec, execOsierStepSwitch]
      rw [if_pos (by simp [hr, hl, hx])]
      simp [hs]
    · simp only [exec, execOsierStepSwitch]
      rw [if_pos (by simp [hr, hl, hx])]
      simp [hs]
    · refine ⟨bringUp false 2 0 s, ?_, ?_⟩
      · simp only [exec, execOsierPhaseLimit, phaseLimit, hl, hf, if_true]
        rw [if_pos (by simp [hr, hd])]
      · obtain ⟨hlink, hfast, hfu, -⟩ := bringUp_hl false 2 0 s
        exact ⟨hlink, hfast, hfu⟩
    · refine ⟨_, by
        simp only [exec, execOsierPhaseLimit, phaseLimit_top hl hf h3]
        rw [if_pos (by simp [hr, hd]), if_pos hl, if_neg (by simp [hf]), if_pos h3, if_neg (by simp [ht])], ?_⟩
      exact ⟨hl, rfl, rfl⟩
    · refine ⟨_, by
        simp only [exec, execOsierPhaseLimit, phaseLimit_top hl hf h3]
        rw [if_pos (by simp [hr, hd]), if_pos hl, if_neg (by simp [hf]), if_pos h3, if_pos ht], ?_⟩
      obtain ⟨hlink, htg, hft⟩ := switchTo_hl 2 (sendControl 0x09 (linkLanes s) [1] { s with hl := { s.hl with failedTop := true } })
      exact ⟨hlink, htg, hft.trans rfl⟩
    · refine ⟨bringUp false 2 0 s, ?_, (bringUp_hl false 2 0 s).1⟩
      simp only [exec, execOsierPhaseLimit, phaseLimit, hl]
      rw [if_pos (by simp [hr, hd]), if_neg (by decide)]
    · simp only [exec, execOsierPhaseLimit, phaseLimit, hl]
      rw [if_neg (by simp; omega)]
  · intro s hos hz hpw htk hl
    refine ⟨_, by simp only [exec, execOsierL1Exit]; rw [if_pos (by simp [hos, hz, hpw, htk, hl])], ?_⟩
    rw [linkTo_hl]
    exact ⟨rfl, rfl⟩
  · intro port cause p s hp hh hnl htk hfl
    have hnum := List.find?_some hp
    simp only [decide_eq_true_eq] at hnum
    refine ⟨_, by
      simp only [exec, execIngressFail, hp]
      rw [if_pos (by simp [hh, hnl, htk]), if_neg (by simp [hfl])], fun t ht hpt => ?_, fun q hq hqn => ?_, ?_⟩
    · rw [notify_tribs] at ht
      exact setCsf_all ht (by rw [hpt, hnum])
    · rw [notify_hl] at hq
      obtain ⟨x, rfl⟩ := modPort_all hq (by rw [hqn, hnum])
      rfl
    · rw [notify_tribs, setCsf_tids]
      rfl
  · intro port cause p s hp hno
    simp only [exec, execIngressFail, hp]
    rw [if_neg (by rcases hno with h | h <;> simp [h])]
  · intro port p s hp htk hc
    have hnum := List.find?_some hp
    simp only [decide_eq_true_eq] at hnum
    have hclear : (nearLoop p s || (decide (16 ≤ sfSince p.condAt s) && (standardsNow s ||
        (decide (s.hl.link = .up) && !p.unserved && decide (16 ≤ sfSince s.hl.upAt s))))) = true := by
      rcases hc with h | ⟨h16, h | ⟨h1, h2, h3⟩⟩
      · simp [h]
      · simp [h16, h]
      · simp [h16, h1, h2, h3]
    obtain ⟨u, hu, htr, hpo⟩ : ∃ u, exec (.ingressRecover port) s = .next u ∧
        u.tribs = (setCsf p.num false (modPort p.num (fun p => { p with failed := none }) s)).tribs ∧
        u.hl = (setCsf p.num false (modPort p.num (fun p => { p with failed := none }) s)).hl := by
      simp only [exec, execIngressRecover, hp, hclear, htk, Bool.and_self, if_true]
      cases p.failed with
      | none => exact ⟨_, rfl, rfl, rfl⟩
      | some c => exact ⟨_, rfl, notify_tribs _ _ _ _ _, notify_hl _ _ _ _ _⟩
    refine ⟨u, hu, fun t ht hpt => ?_, fun q hq hqn => ?_⟩
    · rw [htr] at ht
      exact setCsf_all ht (by rw [hpt, hnum])
    · rw [hpo] at hq
      obtain ⟨x, rfl⟩ := modPort_all hq (by rw [hqn, hnum])
      rfl

end Sys2Proof.Machine
end


section
/-! O41. The host lane commands. -/
namespace Sys2Proof.Machine

open Sys2Proof

theorem zrPorts_slots {s : State} (hz : zrNow s = false) : zrPorts s = s := by
  simp [zrPorts, hz]

/-- HL.CONFIG with values in their form, once the bring-up is over, sets the link. -/
theorem exec_hlConfig {h : Hdr} {mode n step group flags : Byte} {inPol outPol : Half} {s : State} (ha : admitted 0x0901 s = .accept)
    (hm : mode.toNat ≤ 1) (h1 : 1 ≤ n.toNat) (h16 : n.toNat ≤ 16) (hs2 : 2 ≤ step.toNat) (hs3 : step.toNat ≤ 3)
    (hg : group.toNat ≤ 3 ∨ group = 0xFF) (hf : reservedClear flags 1 = true) (hb : bringingUp s = false) (hz : zrNow s = false) :
    exec (.hlConfig h mode n step group flags inPol outPol) s = .next (
      if (decide (decide (mode = 1) ≠ s.hl.osier) || decide (n.toNat ≠ s.hl.n)) && !s.tribs.isEmpty then refuse 0x0901 h .refused s
      else done 0x0901 h (hlConfigApply mode n step group flags inPol outPol s)) := by
  have hgr : (decide (3 < group.toNat) && decide (group ≠ 0xFF)) = false := by
    rcases hg with hg | hg
    · rw [decide_eq_false (by omega : ¬ 3 < group.toNat), Bool.false_and]
    · rw [decide_eq_false (not_not.mpr hg), Bool.and_false]
  simp only [exec, execHlConfig, command_accept ha]
  have hfirst : firstFail (hlConfigCheck (zrNow s) mode n step group flags s) =
      if (decide (decide (mode = 1) ≠ s.hl.osier) || decide (n.toNat ≠ s.hl.n)) && !s.tribs.isEmpty then some .refused else none := by
    simp only [hlConfigCheck, firstFail_cons, firstFail_nil, hgr, hf, hb, hz, decide_eq_false (by omega : ¬ 1 < mode.toNat),
      decide_eq_false (by omega : ¬ n.toNat < 1), decide_eq_false (by omega : ¬ 16 < n.toNat),
      decide_eq_false (by omega : ¬ step.toNat < 2), decide_eq_false (by omega : ¬ 3 < step.toNat), Bool.not_true, Bool.or_self,
      Bool.false_and, Bool.false_eq_true, if_false]
  split
  next hbad => rw [guarded_fail (hfirst.trans (if_pos hbad))]
  next hok => rw [guarded_pass (hfirst.trans (if_neg hok))]

section

variable {mode n step group flags : Byte} {inPol outPol : Half} {s : State}

theorem zrPorts_hl (s : State) : (zrPorts s).hl = { s.hl with ports := (zrPorts s).hl.ports } := by
  unfold zrPorts
  split
  · split
    · split <;> rfl
    · rfl
  · rfl

/-- What HL.CONFIG sets of the link (R286). -/
def hlSet (mode n step group flags : Byte) (inPol outPol : Half) (s : State) : State := { s with hl := { s.hl with
  osier := decide (mode = 1), n := n.toNat, maxStep := step.toNat, group := if group = 0xFF then none else some group.toNat,
  notify := bitOf flags 0, inPol := inPol, outPol := outPol } }

/-- R286: HL.CONFIG without a new N or mode leaves the link as it is. -/
theorem hlConfig_same (hz : zrNow s = false) (hm : decide (mode = 1) = s.hl.osier) (hn : n.toNat = s.hl.n) :
    hlConfigApply mode n step group flags inPol outPol s = hlSet mode n step group flags inPol outPol s := by
  have hfresh : (decide (decide (mode = 1) ≠ s.hl.osier) || (decide (mode = 1) && decide (n.toNat ≠ s.hl.n))) = false := by
    simp only [hm, hn, ne_eq, not_true_eq_false, decide_false, Bool.and_false, Bool.or_self]
  simp only [hlConfigApply, hfresh, Bool.false_eq_true, if_false]
  rw [zrPorts_slots (by exact hz), hlSet]

/-- R286, R291: a new N brings the lanes up anew. -/
theorem hlConfig_lanes (hz : zrNow s = false) (hm : decide (mode = 1) = true) (hn : n.toNat ≠ s.hl.n) (hp : hostPowered s = true) :
    (hlConfigApply mode n step group flags inPol outPol s).hl.n = n.toNat ∧
    (hlConfigApply mode n step group flags inPol outPol s).hl.link = .detect ∧
    (hlConfigApply mode n step group flags inPol outPol s).hl.fast = false ∧
    (hlConfigApply mode n step group flags inPol outPol s).hl.fulls = s.hl.fulls + 1 := by
  have happ : hlConfigApply mode n step group flags inPol outPol s =
      zrPorts (bringUp false 0 0 (hlSet mode n step group flags inPol outPol (lpAbandon s))) := by
    simp only [hlConfigApply, hm, hn, hz, hp, ne_eq, not_false_eq_true, decide_true, Bool.and_self, Bool.or_true, if_true,
      Bool.false_eq_true, if_false]
    simp only [hlSet, hm]
  obtain ⟨hlink, hfast, hfull, -, -, hnn⟩ := bringUp_hl false 0 0 (hlSet mode n step group flags inPol outPol (lpAbandon s))
  rw [happ, zrPorts_hl]
  refine ⟨hnn, hlink, hfast, hfull.trans ?_⟩
  simp [hlSet, lpAbandon_hl]

/-- R286: the lanes of the standards have no link. -/
theorem hlConfig_standards (hm : decide (mode = 1) = false) (ho : s.hl.osier = true) :
    (hlConfigApply mode n step group flags inPol outPol s).hl.osier = false ∧
    (hlConfigApply mode n step group flags inPol outPol s).hl.link = .off := by
  simp only [hlConfigApply, hm, ho, ne_eq, Bool.false_eq_true, not_false_eq_true, decide_true, Bool.true_or, if_true, if_false]
  rw [zrPorts_hl, readmit_hl, linkTo_hl]
  exact ⟨rfl, rfl⟩

end

/-- HL.RETRAIN abandons a power request and starts phase 1. -/
theorem exec_hlRetrain {h : Hdr} {kind : Byte} {s : State} (ha : admitted 0x0907 s = .accept) (hk : kind.toNat ≤ 1)
    (hst : standardsNow s = false) (hp : s.pwr.failed.getLsbD 4 = false) :
    exec (.hlRetrain h kind) s = .next (done 0x0907 h (bringUp (decide (kind = 0)) 0 0 (lpAbandon s))) := by
  simp only [exec, execHlRetrain, command_accept ha]
  rw [guarded_pass]
  simp only [firstFail_cons, firstFail_nil, decide_eq_false (by omega : ¬ 1 < kind.toNat), hst, hp, Bool.or_self, Bool.false_eq_true,
    if_false]

/-- What HL.POWER does once its checks have passed. -/
def hlPowered (h : Hdr) (state : Byte) (s : State) : State :=
  if state = 0 then
    if s.hl.link = .l1 then reply 0x0905 h [fld 16 1 0] (linkTo .up 0 { s with hl := { s.hl with lfc := 0 } })
    else if s.hl.link = .l2 then reply 0x0905 h [fld 16 1 0] (bringUp true 0 0 s)
    else reply 0x0905 h [fld 16 1 0] s
  else if s.hl.link = .up then
    sendControl 0x06 (linkLanes s) [state, s.hl.lfc + 1]
      { s with hl := { s.hl with lp := some (state.toNat, s.hl.lfc + 1, decide (s.q.acting = some true), some h) } }
  else reply 0x0905 h [fld 16 1 state.toNat] s

/-- HL.POWER while nothing of the link is under way. -/
theorem exec_hlPower {h : Hdr} {state : Byte} {s : State} (ha : admitted 0x0905 s = .accept)
    (hst : standardsNow s = false) (hp : s.pwr.failed.getLsbD 4 = false) (hb : bringingUp s = false) (hlp : s.hl.lp = none)
    (hk : state.toNat ≤ 2) (hoff : s.hl.link ≠ .off) (h12 : state = 1 → s.hl.link ≠ .l2) (h21 : state = 2 → s.hl.link ≠ .l1) :
    exec (.hlPower h state) s = .next (
      if (decide (state ≠ 0) && trafficAdmitted s) = true then refuse 0x0905 h .refused s else hlPowered h state s) := by
  have hs1 : (decide (state = 1) && decide (s.hl.link = .l2)) = false := by
    by_cases hx : state = 1
    · rw [decide_eq_false (h12 hx), Bool.and_false]
    · rw [decide_eq_false hx, Bool.false_and]
  have hs2 : (decide (state = 2) && decide (s.hl.link = .l1)) = false := by
    by_cases hx : state = 2
    · rw [decide_eq_false (h21 hx), Bool.and_false]
    · rw [decide_eq_false hx, Bool.false_and]
  simp only [exec, execHlPower, command_accept ha]
  by_cases ht : (decide (state ≠ 0) && trafficAdmitted s) = true
  · rw [guarded_fail (st := .refused), if_pos ht]
    simp only [firstFail_cons, decide_eq_false (by omega : ¬ 2 < state.toNat), hst, hp, hb, hlp, hoff, ht, Option.isSome_none,
      decide_false, Bool.or_self, Bool.false_eq_true, if_false, if_true]
  · rw [guarded_pass, if_neg ht]
    · by_cases h0 : state = 0
      · rw [hlPowered, if_pos h0, if_pos h0]
        split
        next hx => rw [if_pos hx]
        next hx => rw [if_neg (by simp [hx]), if_pos hx]
        next hx hy => rw [if_neg hx, if_neg hy]
      · rw [hlPowered, if_neg h0, if_neg h0]
    · simp only [firstFail_cons, firstFail_nil, decide_eq_false (by omega : ¬ 2 < state.toNat), hst, hp, hb, hlp, hoff, ht, hs1, hs2,
        Option.isSome_none, decide_false, Bool.or_self, Bool.false_eq_true, if_false]

/-- R300: a loopback at the host is asked of a host that has it. -/
theorem exec_hlLoopback_far {h : Hdr} {kind : Byte} {s : State} (ha : admitted 0x0906 s = .accept) (hk : kind = 3)
    (hb : bringingUp s = false) (hst : standardsNow s = false) (hl : s.hl.link = .up) (hc : bitOf s.hl.hostCaps 2 = true) :
    exec (.hlLoopback h kind 0) s = .next (done 0x0906 h (sendControl 0x08 (linkLanes s) [1, s.hl.lfc + 1]
      { s with hl := { s.hl with loopback := kind.toNat, loopLanes := 0 } })) := by
  have h3 : ¬ 3 < kind.toNat := by rw [hk]; decide
  simp only [exec, execHlLoopback, command_accept ha]
  rw [guarded_pass]
  · rw [if_pos (decide_eq_true hk)]
  · simp only [firstFail_cons, firstFail_nil, h3, hb, hst, hl, hc, ne_eq, not_true_eq_false, decide_false, Bool.and_false, Bool.or_self,
      Bool.not_true, Bool.false_eq_true, if_false]

/-- Settles O41: each command's checks in the order of its card, and the link it leaves. -/
theorem hostLaneCommands : Obligations.HostLaneCommands := by
  unfold Obligations.HostLaneCommands
  refine ⟨?_, ?_, ?_, ?_, ?_, ?_, ?_⟩
  · intro h n step group flags inPol outPol s ha hz h1 h16 hs2 hs3 hg hf hb ho
    have hf' := reservedClear_one hf
    refine ⟨fun hn => ?_, fun hn ht => ?_, fun hn ht hp => ?_, fun ht => ?_⟩
    · rw [exec_hlConfig ha (by decide) h1 h16 hs2 hs3 hg hf' hb hz]
      rw [if_neg (by simp [hn, ho]), hlConfig_same hz (by rw [ho]; rfl) hn]
      simp only [hlSet, ho]
      rfl
    · rw [exec_hlConfig ha (by decide) h1 h16 hs2 hs3 hg hf' hb hz, if_pos (by simp [hn, ht])]
    · refine ⟨_, by rw [exec_hlConfig ha (by decide) h1 h16 hs2 hs3 hg hf' hb hz, if_neg (by simp [ht])], ?_⟩
      exact hlConfig_lanes hz rfl hn hp
    · refine ⟨_, by rw [exec_hlConfig ha (by decide) h1 h16 hs2 hs3 hg hf' hb hz, if_neg (by simp [ht])], ?_⟩
      exact hlConfig_standards rfl ho
  · intro h s ha
    exact ⟨_, by simp only [exec, execHlStatus, command_accept ha]; rfl, by simp⟩
  · intro h lane s ha
    refine ⟨fun hl => ⟨_, by simp only [exec, execHlLaneStatus, command_accept ha]; rw [guarded_pass (by simp [hl])], by simp⟩, fun hl => ?_⟩
    simp only [exec, execHlLaneStatus, command_accept ha]
    rw [guarded_fail]
    simp [hl]
  · intro h port p s ha hp
    refine ⟨_, by simp only [exec, execHlPort, command_accept ha, hp]; rw [guarded_pass (by decide)]; rfl, ?_, by simp⟩
    simp only [exec, execHlPort, command_accept ha, hp]
    rw [guarded_pass (by decide)]
    rfl
  · intro h s ha hst hp hb hlp
    refine ⟨fun hl ht => ?_, fun st hs hl ht => ?_, fun hl => ?_, fun hl => ?_⟩
    · refine ⟨?_, ?_⟩
      · rw [exec_hlPower ha hst hp hb hlp (by decide) (by simp [hl]) (by simp [hl]) (by simp [hl]), if_pos (by rw [ht]; decide)]
      · rw [exec_hlPower ha hst hp hb hlp (by decide) (by simp [hl]) (by simp [hl]) (by simp [hl]), if_pos (by rw [ht]; decide)]
    · have h0 : st ≠ 0 := by rcases hs with rfl | rfl <;> decide
      refine ⟨_, by
        rw [exec_hlPower ha hst hp hb hlp (by rcases hs with rfl | rfl <;> decide) (by simp [hl]) (by simp [hl]) (by simp [hl]),
          if_neg (by simp [ht]), hlPowered, if_neg h0, if_pos hl], ?_⟩
      exact ⟨rfl, hl, rfl⟩
    · refine ⟨linkTo .up 0 { s with hl := { s.hl with lfc := 0 } }, ?_, ?_⟩
      · rw [exec_hlPower ha hst hp hb hlp (by decide) (by simp [hl]) (by simp [hl]) (fun h => absurd h (by decide)),
          if_neg (by rw [Bool.and_eq_true, not_and_or]; exact .inl (by decide)), hlPowered, if_pos rfl, if_pos hl]
      · rw [linkTo_hl]
        exact ⟨rfl, rfl⟩
    · rw [exec_hlPower ha hst hp hb hlp (by decide) (by simp [hl]) (fun h => absurd h (by decide)) (by simp [hl]),
        if_neg (by rw [Bool.and_eq_true, not_and_or]; exact .inl (by decide)), hlPowered, if_pos rfl, if_neg (by simp [hl]), if_pos hl]
  · intro h kind lanes s ha hb
    refine ⟨fun hk hos hl3 => ?_, fun hst hl hc => ?_, fun hbad => ?_⟩
    · have hk3 : ¬ kind = 3 := by rintro rfl; exact absurd hk (by decide)
      have hol : (s.hl.osier && decide (lanes ≠ 0)) = false := by
        rcases hos with h | h
        · rw [h, Bool.false_and]
        · rw [decide_eq_false (not_not.mpr h), Bool.and_false]
      simp only [exec, execHlLoopback, command_accept ha]
      rw [guarded_pass]
      · simp only [hk3, decide_false, Bool.false_eq_true, if_false, hl3]
      · simp only [firstFail_cons, firstFail_nil, hol, hk3, hb, decide_eq_false (by omega : ¬ 3 < kind.toNat), decide_false, Bool.or_self,
          Bool.false_and, Bool.false_eq_true, if_false]
    · exact ⟨_, exec_hlLoopback_far ha rfl hb hst hl hc, rfl, hl⟩
    · simp only [exec, execHlLoopback, command_accept ha]
      rw [guarded_fail (st := .badState)]
      rcases hbad with h | h <;> simp [hb, h]
  · intro h s ha hst hp
    refine ⟨⟨_, exec_hlRetrain ha (by decide) hst hp, ?_⟩, ⟨_, exec_hlRetrain ha (by decide) hst hp, ?_⟩⟩
    · obtain ⟨hl, hf, -⟩ := bringUp_hl true 0 0 (lpAbandon s)
      rw [lpAbandon_hl] at hf
      exact ⟨hl, hf⟩
    · obtain ⟨hl, hf, -⟩ := bringUp_hl false 0 0 (lpAbandon s)
      exact ⟨hl, hf⟩

end Sys2Proof.Machine
end

section
/-! PROOFS (clock references). An input by its number, a source that fails and comes back, pulses with the anchors that
wait for them, and the reference commands. -/
namespace Sys2Proof.Machine

open Sys2Proof

theorem refIn_mem {k : Nat} {r : RefIn} {s : State} (h : refIn k s = some r) : r ∈ s.ref.inputs ∧ r.num = k := by
  refine ⟨List.mem_of_find?_eq_some h, ?_⟩
  have hn := List.find?_some h
  simpa using hn

theorem refIn_congr {u s : State} (h : u.ref.inputs = s.ref.inputs) (k : Nat) : refIn k u = refIn k s := by rw [refIn, h, refIn]

theorem refIn_map {g : RefIn → RefIn} (hg : ∀ r, (g r).num = r.num) {u s : State}
    (h : u.ref.inputs = s.ref.inputs.map g) (k : Nat) : refIn k u = (refIn k s).map g := by
  rw [refIn, refIn, h, List.find?_map]
  congr 2
  funext r
  simp [hg]

theorem refIn_modRef {f : RefIn → RefIn} (hf : ∀ r, (f r).num = r.num) {k : Nat} {r : RefIn} {s : State}
    (h : refIn k s = some r) : refIn k (modRef k f s) = some (f r) := by
  rw [refIn_map (g := fun r => if r.num = k then f r else r) (by intro r; split <;> simp [hf]) rfl, h, Option.map_some,
    if_pos (refIn_mem h).2]

/-- What a change gives every input, the inputs of the changed number have. -/
theorem modRef_all {f : RefIn → RefIn} {P : RefIn → Prop} (hP : ∀ r, P (f r)) (k : Nat) (s : State) :
    ∀ x ∈ (modRef k f s).ref.inputs, x.num = k → P x := by
  intro x hx hk
  obtain ⟨r, -, rfl⟩ := List.mem_map.mp hx
  by_cases h : r.num = k
  · rw [if_pos h]
    exact hP r
  · rw [if_neg h] at hk
    exact absurd hk h

theorem switchNote_ref (new old : Option Nat) (now was : ClkSt) (cause : Nat) (slew : Int) (s : State) :
    (switchNote new old now was cause slew s).ref = s.ref := by simp [switchNote]

theorem todReply_ref (h : Hdr) (t : Lts) (s : State) : (todReply h t s).ref = s.ref := by simp [todReply]

/-- An input with its defect dREF set or cleared. -/
def RefIn.withDref (j : Nat) (b : Bool) (r : RefIn) : RefIn :=
  if r.num = (BitVec.ofNat 8 j).toNat then { r with dref := b } else r

theorem withDref_kept (j : Nat) (b : Bool) (r : RefIn) : (r.withDref j b).num = r.num ∧ (r.withDref j b).st = r.st ∧
    (r.withDref j b).cause = r.cause ∧ (r.withDref j b).failures = r.failures := by
  rw [RefIn.withDref]
  split <;> exact ⟨rfl, rfl, rfl, rfl⟩

/-- R234: a moved reference defect writes `dref` of its input and nothing else of it. -/
theorem refIn_drefMove (k j : Nat) (b : Bool) (s : State) : refIn k (drefMove j b s) = (refIn k s).map (RefIn.withDref j b) := by
  refine refIn_map (fun r => (withDref_kept j b r).1) ?_ k
  simp only [drefMove, moveDefect, notifyAt_frame, putDefect]
  rfl

/-- R310, R311: an input that fails keeps its cause and counts its failure. -/
theorem refFail_refIn {k cause : Nat} {r : RefIn} {s : State} (h : refIn k s = some r) :
    ∃ x, refIn k (refFail k cause s) = some x ∧ x.st = .failed ∧ x.cause = cause ∧ x.failures = r.failures + 1 := by
  have h1 := refIn_modRef (f := fun r => { r with
    st := .failed, cause := cause, soakFrom := none, failures := r.failures + 1, first := false }) (by intro; rfl) h
  simp only [refFail]
  split
  · exact ⟨_, h1, rfl, rfl, rfl⟩
  · obtain ⟨-, h2, h3, h4⟩ := withDref_kept k true { r with
      st := .failed, cause := cause, soakFrom := none, failures := r.failures + 1, first := false }
    exact ⟨_, by rw [refIn_drefMove, h1, Option.map_some], h2, h3, h4⟩

/-- R310: an offset beyond TOL is the cause where none before it in the order holds. -/
theorem failCause_offset {r : RefIn} {m : RefMeas} {s : State} (hp : sourcePresent r.num s = true) (ha : r.inactive = false)
    (hb : r.badForm = false) (h1 : m.condition ≠ 1) (h6 : m.condition ≠ 6) (ht : r.tol * 100000 < m.offset.natAbs) :
    failCause r m 10 s = 2 := by
  have ht' : r.tol * 10000 * 10 < m.offset.natAbs := by omega
  simp only [failCause, hp, ha, hb, h1, h6, ht', Bool.not_true, Bool.false_or, decide_false, Bool.false_eq_true, if_false, if_true]

theorem failStep_qualified {ms : List RefMeas} {k : Nat} {r : RefIn} {m : RefMeas} {s : State} (hr : refIn k s = some r)
    (hm : measOf k ms = some m) (hq : r.st = .qualified) (hc : failCause r m 10 s ≠ 0) :
    failStep ms s k = refFail k (failCause r m 10 s) (modRef k (refMeasured m s) s) := by
  simp [failStep, hr, hm, hq, hc]

theorem soakStep_soaking {k : Nat} {r : RefIn} {a : Sf} {s : State} (hr : refIn k s = some r) (hs : r.st = .soaking)
    (ha : r.soakFrom = some a) (hd : r.dref = false) :
    soakStep s k = if 163840 ≤ sfSince a s then modRef k (fun r => { r with st := .qualified }) s else s := by
  simp [soakStep, hr, hs, ha, hd]

/-- R312: what an activity that is lost leaves of the references. -/
theorem exec_refActivityLoss {input : Byte} {r : RefIn} {s : State} (he : inputExists input.toNat = true)
    (hr : refIn input.toNat s = some r) (hd : r.st ≠ .disabled) : ∃ u, exec (.refActivityLoss input) s = .next u ∧
      u.ref.inputs = (modRef input.toNat (fun r => { r with inactive := true }) s).ref.inputs ∧
      u.ref.frozenWord = if s.ref.sel = some input.toNat then true else s.ref.frozenWord := by
  simp only [exec, execRefActivityLoss, he, if_true, hr, hd, if_false]
  refine ⟨_, rfl, ?_, ?_⟩
  · split <;> rfl
  · split
    · rfl
    · rfl

/-- The time stamp that a pulse takes (R322), and in freeze the standing line time. -/
def pulseLts (off : BitVec 16) (s : State) : Lts :=
  if s.dbg.frozen then s.time.lts else Lts.ofNat (s.time.lts.toNat + off.toNat)

theorem pulseLts_eq {off : BitVec 16} {t : Lts} {s : State}
    (h : t = if s.dbg.frozen then s.time.lts else Lts.ofNat (s.time.lts.toNat + off.toNat)) : pulseLts off s = t := by
  rw [h, pulseLts]

/-- R310, R322: the references after a pulse, without the anchors that waited for it. -/
def pulsed (input : Byte) (off : BitVec 16) (width last : Nat) (s : State) : State :=
  let s1 := { s with ref := { s.ref with
      stampA := if input = 2 then pulseLts off s else s.ref.stampA,
      stampB := if input = 3 then pulseLts off s else s.ref.stampB } }
  if decide (width < 100) || decide (500000000 < width) || decide (last < 999000000)
  then modRef input.toNat (fun r => { r with badForm := true }) s1 else s1

theorem pulsed_stamps (input : Byte) (off : BitVec 16) (width last : Nat) (s : State) :
    (pulsed input off width last s).ref.stampA = (if input = 2 then pulseLts off s else s.ref.stampA) ∧
      (pulsed input off width last s).ref.todWait = s.ref.todWait := by
  rw [pulsed]
  split <;> exact ⟨rfl, rfl⟩

theorem setTodWait_self (u : State) (w : List (Hdr × Nat × Sf × Nat × Nat × Bool)) (h : u.ref.todWait = w) :
    { u with ref := { u.ref with todWait := w } } = u := by subst h; rfl

/-- R323: a time of day that waits for an edge on this input, and has not waited too long. -/
def waitsFor (input : Byte) (s : State) (w : Hdr × Nat × Sf × Nat × Nat × Bool) : Bool :=
  decide (w.2.1 = input.toNat) && !anchorLate w s

theorem exec_ppsEdge_eq {input : Byte} {off : BitVec 16} {width last : Nat} {s : State} (hi : input = 2 ∨ input = 3)
    (hrun : s.time.running = true) : exec (.ppsEdge input off width last) s =
      .next ((s.ref.todWait.filter (waitsFor input s)).foldl
        (fun u w => answerLate w.2.2.2.2.2 (todReply w.1 (pulseLts off s)) (newAnchor ⟨w.2.2.1, w.2.2.2.1, pulseLts off s⟩ u))
        { pulsed input off width last s with ref := { (pulsed input off width last s).ref with
            todWait := (pulsed input off width last s).ref.todWait.filter fun w => !waitsFor input s w } }) := by
  have he : exec (.ppsEdge input off width last) s = execPpsEdge input off width last s := rfl
  rw [he, execPpsEdge, if_pos hi, if_pos hrun]
  rfl

theorem exec_ppsEdge {input : Byte} {off : BitVec 16} {width last : Nat} {s : State} (hi : input = 2 ∨ input = 3)
    (hrun : s.time.running = true) (hw : s.ref.todWait = []) :
    exec (.ppsEdge input off width last) s = .next (pulsed input off width last s) := by
  have hp := (pulsed_stamps input off width last s).2.trans hw
  rw [exec_ppsEdge_eq hi hrun, hw, hp, List.filter_nil, List.filter_nil, List.foldl_nil, setTodWait_self _ _ hp]

/-- R323: the one anchor that waits takes effect at the stamp of the edge it waits for. -/
theorem exec_ppsEdge_anchor {off : BitVec 16} {width last : Nat} {h : Hdr} {secs : Sf} {ns from_ : Nat} {late : Bool}
    {s : State} (hrun : s.time.running = true) (hw : s.ref.todWait = [(h, 2, secs, ns, from_, late)])
    (hl : wardenPassed from_ 2 s = false) : exec (.ppsEdge 2 off width last) s =
      .next (answerLate late (todReply h (pulseLts off s)) (newAnchor ⟨secs, ns, pulseLts off s⟩
        { pulsed 2 off width last s with ref := { (pulsed 2 off width last s).ref with todWait := [] } })) := by
  have hp := (pulsed_stamps 2 off width last s).2.trans hw
  have hf : waitsFor 2 s (h, 2, secs, ns, from_, late) = true := by simp only [waitsFor, anchorLate, hl]; rfl
  rw [exec_ppsEdge_eq (.inl rfl) hrun, hw, hp, List.filter_cons_of_pos hf, List.filter_nil,
    List.filter_cons_of_neg (by rw [hf]; decide), List.filter_nil]
  rfl

/-- R310: the pulse of an input that is marked is well-formed or marks its form. -/
theorem pulsed_good {input : Byte} {off : BitVec 16} {width last : Nat} {s : State} (h1 : 100 ≤ width) (h2 : width ≤ 500000000)
    (h3 : 999000000 ≤ last) : pulsed input off width last s = { s with ref := { s.ref with
      stampA := if input = 2 then pulseLts off s else s.ref.stampA,
      stampB := if input = 3 then pulseLts off s else s.ref.stampB } } := by
  rw [pulsed, if_neg]
  simp only [Bool.or_eq_true, decide_eq_true_eq]
  omega

theorem pulsed_bad {off : BitVec 16} {width last : Nat} {s : State} (h : width < 100 ∨ 500000000 < width ∨ last < 999000000) :
    ∀ x ∈ (pulsed 2 off width last s).ref.inputs, x.num = 2 → x.badForm = true := by
  rw [pulsed, if_pos (by simp only [Bool.or_eq_true, decide_eq_true_eq]; omega)]
  exact modRef_all (f := fun r => { r with badForm := true }) (fun _ => rfl) 2 _

/-- R319, R329: a slew that is over at an evaluation. -/
theorem exec_clockSlewComplete {s : State} (hc : s.ref.clk = .locking) : exec .clockSlewComplete s =
    .next (if atEvaluation s = true ∧ offNow s = s.ref.target then
      switchNote s.ref.sel s.ref.sel s.ref.toState .locking 6 0
        { s with ref := { s.ref with clk := s.ref.toState, off := s.ref.target, lockedFrom := s.time.wardenNs, calSum := 0, calTime := 0 } }
    else s) := by
  simp only [exec, execClockSlewComplete, hc, true_and]

/-- R324: what an edge of PPSOUT that is due leaves of its counters. -/
def ppsCounted (s : State) : State := { s with ref := { s.ref with ppsEdges := s.ref.ppsEdges + 1, ppsSec := ppsSecond s } }

theorem exec_ppsoutEdge_idle {e : Int} {s : State} (hd : ppsDue s = false) : exec (.ppsoutEdge e) s = .next s := by
  simp only [exec, execPpsoutEdge, hd, if_true]

theorem exec_ppsoutEdge_time {e : Int} {s : State} (hd : ppsDue s = true) (hm : s.ref.ppsMode = 1) :
    exec (.ppsoutEdge e) s = .next (if s.ref.ppsAnchor then
        ppsStep 2 e { ppsCounted s with ref := { (ppsCounted s).ref with ppsAnchor := false, ppsFirst := false } }
      else { ppsCounted s with ref := { (ppsCounted s).ref with ppsFirst := false } }) := by
  simp only [exec, execPpsoutEdge, hd, Bool.true_eq_false, if_false, if_pos hm]
  rfl

theorem exec_ppsoutEdge_input {e : Int} {s : State} (hd : ppsDue s = true) (hm : s.ref.ppsMode = 2) :
    exec (.ppsoutEdge e) s = .next (if qualified s.ref.ppsInput s then
        if s.ref.ppsFirst then ppsStep 0 e { ppsCounted s with ref := { (ppsCounted s).ref with ppsFirst := false, ppsErrRun := 0 } }
        else if 16 ≤ (if 1000 < e.natAbs then s.ref.ppsErrRun + 1 else 0) then
          ppsStep 1 e { ppsCounted s with ref := { (ppsCounted s).ref with ppsErrRun := 0 } }
        else { ppsCounted s with ref := { (ppsCounted s).ref with
          ppsErrRun := if 1000 < e.natAbs then s.ref.ppsErrRun + 1 else 0 } }
      else ppsCounted s) := by
  have h1 : s.ref.ppsMode ≠ 1 := by omega
  simp only [exec, execPpsoutEdge, hd, Bool.true_eq_false, if_false, if_neg h1]
  rfl

/-- Settles O42: clause by clause, from what each reference event leaves; the failed and the soaked input from the steps of an
evaluation. -/
theorem referenceEvents : Obligations.ReferenceEvents := by
  refine ⟨fun input r s he hr => ⟨fun hd => ?_, fun hd => ?_⟩, fun input s he => ?_, fun s hc => ⟨fun hev hoff => ?_, fun hn => ?_⟩,
    fun off width last t s hrun ht hw => ⟨fun h1 h2 h3 => ⟨?_, ?_⟩, fun hb => ?_⟩, fun input off width last s h2 h3 => ?_,
    fun off width last h secs ns from_ late t s hrun ht hw hl => ?_,
    fun h n secs ns from_ late s hw => ⟨fun hl => ?_, fun hl => ?_⟩,
    fun e s s1 hs1 => ⟨exec_ppsoutEdge_idle, fun hd hm ha => ?_, fun hd hm ha => ?_, fun hd hm hq hf => ?_,
      fun hd hm hq hf => ⟨fun he hr => ?_, fun he => ?_⟩, fun hd hm hq => ?_⟩,
    fun ms k r m s hr hm hk hq hp ha hb h1 h6 ht => ?_, fun k r a s hr hs ha hd => ⟨fun hl => ?_, fun hl => ?_⟩⟩
  · simp only [exec, execRefActivityLoss, he, if_true, hr, hd]
  · obtain ⟨u, hu, hi, hw⟩ := exec_refActivityLoss he hr hd
    refine ⟨u, hu, fun h => by rw [hw, if_pos h], fun h => by rw [hw, if_neg h], ?_⟩
    rw [hi]
    exact modRef_all (f := fun r => { r with inactive := true }) (fun _ => rfl) _ _
  · simp only [exec, execRefActivityLoss, he, Bool.false_eq_true, if_false]
  · refine ⟨_, (exec_clockSlewComplete hc).trans (by rw [if_pos ⟨hev, hoff⟩]), ?_, ?_, ?_⟩
    all_goals rw [switchNote_ref]
  · rw [exec_clockSlewComplete hc, if_neg]
    rintro ⟨hev, hoff⟩
    rcases hn with hn | hn
    · simp [hev] at hn
    · exact hn hoff
  · rw [exec_ppsEdge (.inl rfl) hrun hw, pulsed_good h1 h2 h3, pulseLts_eq ht, if_pos rfl, if_neg (by decide)]
  · rw [exec_ppsEdge (.inr rfl) hrun hw, pulsed_good h1 h2 h3, pulseLts_eq ht, if_pos rfl, if_neg (by decide)]
  · exact ⟨_, exec_ppsEdge (.inl rfl) hrun hw,
      (pulsed_stamps 2 off width last s).1.trans ((if_pos rfl).trans (pulseLts_eq ht)), pulsed_bad hb⟩
  · simp only [exec, execPpsEdge, h2, h3, or_self, if_false]
  · refine ⟨_, exec_ppsEdge_anchor hrun hw hl, ?_, ?_, ?_, ?_⟩
    all_goals simp only [answerLate, todReply_ref, newAnchor, pulseLts_eq ht]
    exact (pulsed_stamps 2 off width last s).1.trans ((if_pos rfl).trans (pulseLts_eq ht))
  · simp [exec, execTodAnchorTimeout, hw, anchorLate, hl]
  · have hs := setTodWait_self s _ hw
    simpa [exec, execTodAnchorTimeout, hw, anchorLate, hl] using hs
  · rw [exec_ppsoutEdge_time hd hm, ha, hs1]
    rfl
  · rw [exec_ppsoutEdge_time hd hm, ha, hs1]
    rfl
  · rw [exec_ppsoutEdge_input hd hm, hq, hf, hs1]
    rfl
  · rw [exec_ppsoutEdge_input hd hm, hq, hf, hs1, if_pos he, hr]
    rfl
  · rw [exec_ppsoutEdge_input hd hm, hq, hf, hs1, if_neg (show ¬ 1000 < e.natAbs by omega)]
    rfl
  · rw [exec_ppsoutEdge_input hd hm, hq, hs1]
    rfl
  · have hc : failCause r m 10 s = 2 := failCause_offset (hk ▸ hp) ha hb h1 h6 ht
    rw [failStep_qualified hr hm hq (by omega), hc]
    exact refFail_refIn (r := refMeasured m s r) (refIn_modRef (f := refMeasured m s) (fun _ => rfl) hr)
  · rw [soakStep_soaking hr hs ha hd, if_pos hl]
    exact ⟨_, refIn_modRef (f := fun r => { r with st := .qualified }) (fun _ => rfl) hr, rfl⟩
  · rw [soakStep_soaking hr hs ha hd, if_neg (by omega)]

/-- What REF.INPUT_CONFIG leaves of its input. -/
def RefIn.configured (k : Nat) (prio freq : Byte) (tol drift off : Half) (r : RefIn) : RefIn :=
  let r1 := { r with
    prio := prio.toNat, freq := if k ≤ 1 then freq.toNat else r.freq,
    tol := if tol = 0 then 46 else tol.toNat, driftLim := if drift = 0 then 100 else drift.toNat,
    offLim := if off = 0 then 50 else off.toNat }
  if prio = 0xFF then { r1 with st := .disabled, dref := false, soakFrom := none, overFrom := none }
  else if r.st = .disabled then
    { r1 with st := .soaking, soakFrom := none, overFrom := none, first := true, failures := 0,
              inactive := false, badForm := false }
  else r1

theorem configured_spec (k : Nat) (prio freq : Byte) (tol drift off : Half) (r : RefIn) :
    (r.configured k prio freq tol drift off).num = r.num ∧ (r.configured k prio freq tol drift off).prio = prio.toNat ∧
    (r.configured k prio freq tol drift off).tol = (if tol = 0 then 46 else tol.toNat) ∧
    (r.configured k prio freq tol drift off).driftLim = (if drift = 0 then 100 else drift.toNat) ∧
    (r.configured k prio freq tol drift off).offLim = (if off = 0 then 50 else off.toNat) := by
  simp only [RefIn.configured]
  split
  · exact ⟨rfl, rfl, rfl, rfl, rfl⟩
  · split <;> exact ⟨rfl, rfl, rfl, rfl, rfl⟩

theorem configured_off (k : Nat) (freq : Byte) (tol drift off : Half) (r : RefIn) :
    (r.configured k 0xFF freq tol drift off).st = .disabled ∧ (r.configured k 0xFF freq tol drift off).dref = false := by
  rw [RefIn.configured, if_pos rfl]
  exact ⟨rfl, rfl⟩

theorem configured_on {prio : Byte} (hp : prio ≠ 0xFF) (k : Nat) (freq : Byte) (tol drift off : Half) (r : RefIn) :
    (r.configured k prio freq tol drift off).st ≠ .disabled := by
  rw [RefIn.configured, if_neg hp]
  split
  · simp
  · assumption

theorem exec_refInputConfig {h : Hdr} {input prio freq : Byte} {tol drift off : Half} {s : State}
    (ha : admitted 0x0A01 s = .accept) (he : inputExists input.toNat = true) (hp : prio.toNat ≤ 7 ∨ prio = 0xFF)
    (hf : freq.toNat ≤ 4) (ht : tol.toNat ≤ 200) (hd : drift = 0 ∨ (5 ≤ drift.toNat ∧ drift.toNat ≤ 5000))
    (ho : off.toNat ≤ 460) : ∃ fs, exec (.refInputConfig h input prio freq tol drift off) s =
      .next (reply 0x0A01 h fs (modRef input.toNat (RefIn.configured input.toNat prio freq tol drift off) s)) := by
  have h1 : (decide (7 < prio.toNat) && decide (prio ≠ 0xFF)) = false := by
    rcases hp with hp | rfl
    · simp [show ¬ 7 < prio.toNat by omega]
    · rfl
  have h2 : (decide (drift ≠ 0) && (decide (drift.toNat < 5) || decide (5000 < drift.toNat))) = false := by
    rcases hd with rfl | ⟨h5, h6⟩
    · rfl
    · simp [show ¬ drift.toNat < 5 by omega, show ¬ 5000 < drift.toNat by omega]
  simp only [exec, execRefInputConfig, command_accept ha]
  rw [guarded_pass (by simp only [firstFail_cons, firstFail_nil, h1, h2, he, show ¬ 4 < freq.toNat by omega,
    show ¬ 200 < tol.toNat by omega, show ¬ 460 < off.toNat by omega, decide_false, Bool.and_false, Bool.not_true,
    Bool.false_eq_true, if_false])]
  exact ⟨_, rfl⟩

/-- An input that is enabled, as REF.SELECT asks for it. -/
theorem exec_refSelect {h : Hdr} {mode input flags : Byte} {s : State} (ha : admitted 0x0A02 s = .accept)
    (hm : mode.toNat ≤ 3) (hf : flags &&& 0xFE = 0) (h2 : mode = 2 → memOk s = true)
    (h1 : mode = 1 → ∃ r, refIn input.toNat s = some r ∧ r.st ≠ .disabled) :
    exec (.refSelect h mode input flags) s = .next (reply 0x0A02 h [fld 16 1 (clkCode s.ref.clk), fld 17 1 (selByte s)]
      { s with ref := { s.ref with mode := mode.toNat, manual := if mode = 1 then input.toNat else s.ref.manual,
                                   revertive := bitOf flags 0, hostSel := true } }) := by
  have hr : reservedClear flags 1 = true := reservedClear_one hf
  have hmem : (decide (mode = 2) && !memOk s) = false := by
    by_cases hc : mode = 2
    · simp [h2 hc]
    · rw [decide_eq_false hc, Bool.false_and]
  simp only [exec, execRefSelect, command_accept ha]
  rw [guarded_pass]
  · rfl
  · by_cases hc : mode = 1
    · obtain ⟨r, hrin, hst⟩ := h1 hc
      simp only [firstFail_cons, firstFail_nil, hrin, hmem, hr, hst, show ¬ 3 < mode.toNat by omega, ne_eq, not_false_eq_true,
        decide_true, decide_false, Bool.not_true, Bool.and_false, Bool.or_self, Bool.false_eq_true, if_false]
    · simp only [firstFail_cons, firstFail_nil, hc, hmem, hr, show ¬ 3 < mode.toNat by omega, decide_false, Bool.not_true,
        Bool.false_and, Bool.or_self, Bool.false_eq_true, if_false]

theorem exec_refInputStatus {h : Hdr} {input : Byte} {r : RefIn} {s : State} (ha : admitted 0x0A04 s = .accept)
    (he : inputExists input.toNat = true) (hr : refIn input.toNat s = some r) : ∃ soak, exec (.refInputStatus h input) s =
      .next (reply 0x0A04 h [fld 16 1 (refCode r.st), fld 17 1 r.prio, fld 18 1 r.cause, fldI 20 4 r.offset,
         fldI 24 4 (r.offset - s.ref.mem), fldI 28 4 r.drift, fld 32 4 soak, fld 36 4 r.failures.toNat] s) := by
  simp only [exec, execRefInputStatus, command_accept ha, he, if_true, hr]
  exact ⟨_, rfl⟩

theorem exec_refInputStatus_none {h : Hdr} {input : Byte} {s : State} (ha : admitted 0x0A04 s = .accept)
    (he : inputExists input.toNat = false) : exec (.refInputStatus h input) s = .next (refuse 0x0A04 h .badArg s) := by
  simp only [exec, execRefInputStatus, command_accept ha, he, Bool.false_eq_true, if_false]

theorem exec_refOutputConfig {h : Hdr} {output source lane freq flags : Byte} {s : State} (ha : admitted 0x0A05 s = .accept)
    (h1 : output.toNat ≤ 1) (h2 : source.toNat ≤ 3) (h3 : freq.toNat ≤ 4) (h4 : source = 3 → lane.toNat ≤ 15)
    (hf : flags &&& 0xFE = 0) : exec (.refOutputConfig h output source lane freq flags) s = .next (done 0x0A05 h { s with ref :=
      if output = 0 then { s.ref with out0 := ⟨source.toNat, lane.toNat, freq.toNat, bitOf flags 0, s.time.resNs + 1000⟩ }
      else { s.ref with out1 := ⟨source.toNat, lane.toNat, freq.toNat, bitOf flags 0, s.time.resNs + 1000⟩ } }) := by
  have hr : reservedClear flags 1 = true := reservedClear_one hf
  have hl : (decide (source = 3) && decide (15 < lane.toNat)) = false := by
    by_cases hc : source = 3
    · have := h4 hc
      simp [show ¬ 15 < lane.toNat by omega]
    · rw [decide_eq_false hc, Bool.false_and]
  simp only [exec, execRefOutputConfig, command_accept ha]
  rw [guarded_pass (by simp only [firstFail_cons, firstFail_nil, hr, hl, show ¬ 1 < output.toNat by omega,
    show ¬ 3 < source.toNat by omega, show ¬ 4 < freq.toNat by omega, decide_false, Bool.or_self, Bool.not_true,
    Bool.false_eq_true, if_false])]

theorem exec_refPpsConfig {h : Hdr} {mode input : Byte} {offset width : Word} {s : State} (ha : admitted 0x0A06 s = .accept)
    (hm : mode.toNat ≤ 2) (hi : mode = 2 → input = 2 ∨ input = 3) (ho : (s32 offset).natAbs ≤ 500000000)
    (h1 : 1 ≤ width.toNat) (h2 : width.toNat ≤ 500000) :
    exec (.refPpsConfig h mode input offset width) s = .next (done 0x0A06 h { s with ref := { s.ref with
      ppsMode := mode.toNat, ppsInput := input.toNat, ppsOffset := s32 offset, ppsWidthUs := width.toNat, ppsFirst := true,
      ppsErrRun := 0, ppsAnchor := false, ppsSec := (todAt s.time.lts s - s32 offset) / 1000000000 } }) := by
  have hl : (decide (mode = 2) && decide (input ≠ 2 ∧ input ≠ 3)) = false := by
    by_cases hc : mode = 2
    · rcases hi hc with rfl | rfl <;> simp
    · rw [decide_eq_false hc, Bool.false_and]
  simp only [exec, execRefPpsConfig, command_accept ha]
  rw [guarded_pass (by simp only [firstFail_cons, firstFail_nil, hl, show ¬ 2 < mode.toNat by omega,
    show ¬ 500000000 < (s32 offset).natAbs by omega, show ¬ width.toNat < 1 by omega, show ¬ 500000 < width.toNat by omega,
    decide_false, Bool.or_self, Bool.false_eq_true, if_false])]

theorem exec_refTodSet {h : Hdr} {secs : Sf} {ns : Word} {anchor : Byte} {sf : Sf} {sym : Sym} {s : State}
    (ha : admitted 0x0A07 s = .accept) (hn : ns.toNat < 1000000000) (hk : anchor = 0 ∨ anchor = 2 ∨ anchor = 3) :
    exec (.refTodSet h secs ns anchor sf sym) s = .next (if anchor = 0 then
      todReply h ⟨sf, sym⟩ (newAnchor ⟨secs, ns.toNat, ⟨sf, sym⟩⟩ s)
    else { s with ref := { s.ref with
      todWait := s.ref.todWait ++ [(h, anchor.toNat, secs, ns.toNat, s.time.wardenNs, decide (s.q.acting = some true))] } }) := by
  have hl : ¬ (anchor ≠ 0 ∧ anchor ≠ 2 ∧ anchor ≠ 3) := by
    rcases hk with h0 | h0 | h0 <;> simp [h0]
  simp only [exec, execRefTodSet, command_accept ha]
  rw [guarded_pass (by simp only [firstFail_cons, firstFail_nil, hl, show ¬ 1000000000 ≤ ns.toNat by omega, decide_false,
    Bool.false_eq_true, if_false])]

theorem exec_refTodSet_bad {h : Hdr} {secs : Sf} {ns : Word} {anchor : Byte} {sf : Sf} {sym : Sym} {s : State}
    (ha : admitted 0x0A07 s = .accept) (hn : ns.toNat < 1000000000) (h0 : anchor ≠ 0) (h2 : anchor ≠ 2) (h3 : anchor ≠ 3) :
    exec (.refTodSet h secs ns anchor sf sym) s = .next (refuse 0x0A07 h .badArg s) := by
  have hl : anchor ≠ 0 ∧ anchor ≠ 2 ∧ anchor ≠ 3 := ⟨h0, h2, h3⟩
  simp only [exec, execRefTodSet, command_accept ha]
  rw [guarded_fail (st := .badArg) (by simp only [firstFail_cons, firstFail_nil, decide_eq_true hl,
    show ¬ 1000000000 ≤ ns.toNat by omega, decide_false, Bool.false_eq_true, if_false, if_true])]

theorem newAnchor_ref (a : Anchor) (s : State) : (newAnchor a s).ref.anchor = some a ∧ (newAnchor a s).ref.proj = some a ∧
    (newAnchor a s).hs.senseNew = true := ⟨rfl, rfl, rfl⟩

/-- Settles O43: each command from what it leaves where its checks pass. -/
theorem referenceCommands : Obligations.ReferenceCommands := by
  refine ⟨fun h input prio freq tol drift off s ha he hp hf ht hd ho => ?_,
    fun h mode input flags s ha hm hf h2 h1 => exec_refSelect ha hm hf h2 h1, fun h s ha => ?_,
    fun h input s ha => ⟨fun r he hr => ?_, exec_refInputStatus_none ha⟩,
    fun h output source lane freq flags s ha h1 h2 h3 h4 hf => exec_refOutputConfig ha h1 h2 h3 h4 hf, fun o s hl => ?_,
    fun h mode input offset width s ha hm hi ho h1 h2 => exec_refPpsConfig ha hm hi ho h1 h2,
    fun h secs ns anchor sf sym s ha hn => ⟨fun h0 => ?_, fun hk => ?_, fun h0 h2 h3 => exec_refTodSet_bad ha hn h0 h2 h3⟩,
    fun h s ha => ?_⟩
  · obtain ⟨fs, hex⟩ := exec_refInputConfig (h := h) ha he hp hf ht hd ho
    refine ⟨_, fs, hex, modRef_all (fun r => ?_) _ _, rfl⟩
    obtain ⟨-, h1, h2, h3, h4⟩ := configured_spec input.toNat prio freq tol drift off r
    exact ⟨h1, h2, h3, h4, fun h5 => h5 ▸ configured_off _ _ _ _ _ r, fun h5 => configured_on h5 _ _ _ _ _ r⟩
  · refine ⟨_, by simp only [exec, execRefStatus, query_accept ha]; rfl, ?_⟩
    simp
  · obtain ⟨soak, hex⟩ := exec_refInputStatus (h := h) ha he hr
    exact ⟨_, hex, by simp⟩
  · rw [clkOutLow, if_pos (.inr (.inr hl))]
  · refine ⟨_, exec_refTodSet ha hn (.inl h0) |>.trans (by rw [if_pos h0, todReply]), ?_⟩
    exact newAnchor_ref _ s
  · rw [exec_refTodSet ha hn (.inr hk), if_neg]
    rcases hk with rfl | rfl <;> decide
  · refine ⟨_, by simp only [exec, execRefTodGet, query_accept ha]; rfl, ?_⟩
    simp +contextual


end Sys2Proof.Machine
end

section
/-! PROOFS (history). What a store write leaves of the history's state, a trigger that fires, the record's bytes, and the
events of sensing, recording and capture. -/
namespace Sys2Proof.Machine

open Sys2Proof

theorem intBytes_length (n : Nat) (v : Int) : (intBytes n v).length = n := by rw [intBytes, leBytes_length]

/-- A word written is in the store; of the history's state it writes only what the store is made of. -/
theorem wordWrite_hs (w : Nat) (bs : List Byte) (s : State) : (wordWrite w bs s).hs = { s.hs with
    mem := (wordWrite w bs s).hs.mem, valid := (wordWrite w bs s).hs.valid, poison := (wordWrite w bs s).hs.poison,
    merge := (wordWrite w bs s).hs.merge } := by
  rw [wordWrite]
  split <;> rfl

theorem wordsWrite_hs (n : Nat) (bs : List Byte) (w : Nat) (s : State) : (wordsWrite n bs w s).hs = { s.hs with
    mem := (wordsWrite n bs w s).hs.mem, valid := (wordsWrite n bs w s).hs.valid, poison := (wordsWrite n bs w s).hs.poison,
    merge := (wordsWrite n bs w s).hs.merge } := by
  induction n generalizing bs w s with
  | zero => rfl
  | succ n ih =>
    rw [wordsWrite, ih]
    rw [wordWrite_hs]

theorem storeWrite_hs (a : Nat) (bs : List Byte) (s : State) : (storeWrite a bs s).hs = { s.hs with
    mem := (storeWrite a bs s).hs.mem, valid := (storeWrite a bs s).hs.valid, poison := (storeWrite a bs s).hs.poison,
    merge := (storeWrite a bs s).hs.merge } := wordsWrite_hs _ _ _ _

theorem freezeTrip_hs (t : FreezeTrig) (s : State) : (freezeTrip t s).hs = s.hs := by
  rw [freezeTrip]
  split <;> rfl

theorem trigNote_fired (exc : Bool) (t : Lts) (s : State) : (trigNote exc t s).hs.rateFired = s.hs.rateFired ∧
    (trigNote exc t s).hs.senseTrig = s.hs.senseTrig := by
  simp only [trigNote]
  generalize (if exc = true then s.hs.excNoted else s.hs.rateNoted) = last
  cases last with
  | none => cases exc <;> simp
  | some a =>
    dsimp only
    split
    · cases exc <;> simp
    · cases exc <;> exact ⟨rfl, rfl⟩

theorem capTrigger_fired (cause : Nat) (t : Lts) (s : State) : (capTrigger cause t s).hs.rateFired = s.hs.rateFired ∧
    (capTrigger cause t s).hs.senseTrig = s.hs.senseTrig := by
  simp only [capTrigger]
  split
  · exact ⟨rfl, rfl⟩
  · split
    · exact ⟨rfl, rfl⟩
    · split
      · exact ⟨rfl, rfl⟩
      · split <;> exact ⟨rfl, rfl⟩

/-- A trigger that fires marks the sample; whether it has fired it leaves. -/
theorem trigFire_fired (exc : Bool) (t : Lts) (s : State) : (trigFire exc t s).hs.rateFired = s.hs.rateFired ∧
    (trigFire exc t s).hs.senseTrig = true := by
  obtain ⟨h1, h2⟩ := capTrigger_fired (if exc then 2 else 1) t (trigNote exc t (freezeTrip .polTrigger { s with hs := { s.hs with
      senseTrig := true, acc := { s.hs.acc with triggers := s.hs.acc.triggers + 1 } } }))
  obtain ⟨h3, h4⟩ := trigNote_fired exc t (freezeTrip .polTrigger { s with hs := { s.hs with
      senseTrig := true, acc := { s.hs.acc with triggers := s.hs.acc.triggers + 1 } } })
  rw [freezeTrip_hs] at h3 h4
  exact ⟨h1.trans h3, h2.trans h4⟩

/-- The rate trigger while it has not fired: one more input beyond the threshold. -/
theorem trigStep_beyond {t : Lts} {s : State} (hf : s.hs.rateFired = false) :
    (s.hs.trigM ≤ s.hs.rateRun + 1 → (trigStep false true true t s).hs.rateFired = true ∧
      (trigStep false true true t s).hs.senseTrig = true) ∧
    (s.hs.rateRun + 1 < s.hs.trigM → (trigStep false true true t s).hs.rateFired = false ∧
      (trigStep false true true t s).hs.rateRun = s.hs.rateRun + 1) := by
  refine ⟨fun hm => ?_, fun hm => ?_⟩
  · have hs : ∃ s1 first, trigStep false true true t s = trigFire false first s1 ∧ s1.hs.rateFired = true := by
      simp only [trigStep, hf, Bool.true_and, Bool.false_eq_true, if_false, ne_eq, Bool.true_eq_false, not_false_eq_true,
        decide_true, if_true, hm, Bool.not_false]
      exact ⟨_, _, rfl, rfl⟩
    obtain ⟨s1, first, he, h1⟩ := hs
    obtain ⟨h2, h3⟩ := trigFire_fired false first s1
    rw [he]
    exact ⟨h2.trans h1, h3⟩
  · have hm' : ¬ s.hs.trigM ≤ s.hs.rateRun + 1 := by omega
    simp [trigStep, hf, hm']

/-- An input not counted ends the run and fires nothing. -/
theorem trigStep_uncounted {valid present : Bool} {t : Lts} {s : State} (hc : (valid && decide (present ≠ s.hs.rateFired)) = false)
    (hm : 0 < s.hs.trigM) : (trigStep false valid present t s).hs.rateFired = s.hs.rateFired ∧
      (trigStep false valid present t s).hs.rateRun = 0 := by
  have hm' : ¬ s.hs.trigM ≤ 0 := by omega
  refine ⟨?_, ?_⟩ <;>
    simp only [trigStep, Bool.false_eq_true, if_false, hc, hm', decide_false, Bool.false_and]

/-- The record of 128 bytes: a body, and its check value. -/
theorem recordBytes_eq (s : State) : ∃ body, recordBytes s = body ++ leBytes 4 (check0 body) ∧ body.length = 124 ∧
    body.take 8 = leBytes 8 s.hs.seq := by
  refine ⟨_, rfl, ?_, ?_⟩
  · simp only [List.length_append, leBytes_length, intBytes_length, List.length_replicate, List.length_cons, List.length_nil]
  · simp only [List.append_assoc]
    rw [List.take_left' (leBytes_length 8 _)]

theorem recordBytes_spec (s : State) : (recordBytes s).length = 128 ∧ (recordBytes s).take 8 = leBytes 8 s.hs.seq ∧
    (recordBytes s).drop 124 = leBytes 4 (check0 ((recordBytes s).take 124)) := by
  obtain ⟨body, he, hl, ht⟩ := recordBytes_eq s
  rw [he, List.take_left' hl, List.drop_left' hl, List.length_append, leBytes_length, hl, List.take_append_of_le_length (by omega), ht]
  exact ⟨rfl, rfl, rfl⟩

theorem ticking_of_storeActive {s : State} (h : storeActive s = true) : ticking s = true := by
  simp only [storeActive, Bool.and_eq_true] at h
  exact h.1.2

/-- The senses of one input: what the input adds where no trigger is enabled. -/
theorem senseTake_quiet {i : SenseIn} {valid : Bool} {t : Lts} {s : State} (h1 : s.hs.trigRate = false)
    (h2 : s.hs.trigExc = false) : ∃ peak, senseTake i valid t s = { s with hs := { s.hs with
      acc := accInput i valid (krad (turned (if valid then (i.s1, i.s2, i.s3) else s.hs.sops.headD (i.s1, i.s2, i.s3)) s.hs)
        s.time.rate) t s.hs.acc, lastGood := if valid then s.hs.lastGood + 1 else 0,
      sops := ((if valid then (i.s1, i.s2, i.s3) else s.hs.sops.headD (i.s1, i.s2, i.s3)) :: s.hs.sops).take 16,
      rotPeak := peak } } := by
  have h1' : ¬ s.hs.trigRate = true := by rw [h1]; decide
  have h2' : ¬ s.hs.trigExc = true := by rw [h2]; decide
  simp only [senseTake, if_neg h1', if_neg h2']
  exact ⟨_, rfl⟩

/-- R340: what the record of `s` leaves when `n` milliseconds have passed and the written store gave `x`. -/
def recordClosed (n : Nat) (x s : State) : State :=
  let s1 := drawMany 2 x
  { s1 with hs := { s1.hs with
      seq := s.hs.seq + n, gap := decide (1 < n), acc := freshAcc s,
      lastMean := if s.hs.acc.nvalid = 0 then none else some (accMean s.hs.acc) } }

theorem recordClosed_hs (n : Nat) (x s : State) : (recordClosed n x s).hs.seq = s.hs.seq + n ∧
    (recordClosed n x s).hs.gap = decide (1 < n) ∧ (recordClosed n x s).hs.mem = x.hs.mem ∧
    (recordClosed n x s).hs.acc = freshAcc s := ⟨rfl, rfl, rfl, rfl⟩

theorem exec_historyRecordClose {s : State} (hr : recording s = true) (hm : msPassed s ≠ 0) : exec .historyRecordClose s =
    .next (recordClosed (msPassed s) (storeWrite (recordAddr s.hs.seq) (recordBytes s) s) s) := by
  have ht : ticking s = true := ticking_of_storeActive (Bool.and_eq_true_iff.mp hr).2
  have hn : ¬ (msPassed s = 0 ∨ ticking s = false) := by simp [hm, ht]
  simp only [exec, execHistoryRecordClose, if_neg hn, if_pos hr, recordClosed]

theorem capNote_hs (slot state cause : Nat) (t : Lts) (s : State) : (capNote slot state cause t s).hs = s.hs := by simp [capNote]

theorem exec_captureCopyDone {s : State} (ht : ticking s = true) (hc : s.hs.capSt = 2) :
    ∃ u, exec .captureCopyDone s = .next u ∧ u.hs = { (storeWrite (4096 * slotPage s.hs.capSlot) s.hs.capBuf s).hs with
      capOrder := (storeWrite (4096 * slotPage s.hs.capSlot) s.hs.capBuf s).hs.capOrder ++ [s.hs.capSlot], headers := u.hs.headers,
      capSt := 0, capBuf := [], slots := (storeWrite (4096 * slotPage s.hs.capSlot) s.hs.capBuf s).hs.slots.set
        (storeWrite (4096 * slotPage s.hs.capSlot) s.hs.capBuf s).hs.capSlot 3 } := by
  have hx : exec .captureCopyDone s = execCaptureCopyDone s := rfl
  rw [hx, execCaptureCopyDone, if_pos ⟨hc, ht⟩]
  refine ⟨_, rfl, ?_⟩
  rw [capNote_hs]
  rfl

/-- Settles O44: each event of the history from what it leaves. -/
theorem historyEvents : Obligations.HistoryEvents := by
  refine ⟨fun i rx s s1 hs1 => ⟨fun hn => ?_, fun ht hw ha hl => ?_, fun ht hw ha => ?_⟩, fun i valid t p s h1 h2 hp => ?_,
    fun t s hf => ⟨(trigStep_beyond hf).1, (trigStep_beyond hf).2, fun hm => ?_, fun hm => ?_⟩,
    fun s1 s2 s3 pr dgd s => ⟨fun hs hi => ?_, fun hs hi => ?_, fun hs ht => ?_⟩,
    fun s => ⟨fun hr hm => ?_, fun hr ht hm => ?_, fun hm => ?_, recordBytes_spec s⟩,
    fun codes s ht hc => ⟨fun hf => ?_, fun hf => ?_⟩, fun s ht hc => ?_⟩
  · rcases hn with hn | hn <;> simp [exec, execSenseInput, hn]
  · subst hs1
    simp only [exec, execSenseInput, ht, hw, ha, hl, ne_eq, not_false_eq_true, decide_true, Bool.and_true, Bool.not_false, if_true]
  · subst hs1
    rcases ha with ha | ha <;> simp [exec, execSenseInput, ht, hw, ha]
  · subst hp
    exact senseTake_quiet h1 h2
  · obtain ⟨h1, -⟩ := trigStep_uncounted (valid := true) (present := false) (t := t) (by rw [hf]; rfl) (show 0 < s.hs.trigM by omega)
    exact h1.trans hf
  · exact (trigStep_uncounted (valid := false) (present := true) (t := t) rfl hm).2
  · simp only [exec, execSenseSampleWrite, hs, if_true, if_neg hi]
    exact ⟨_, _, rfl, rfl, rfl, rfl, rfl, rfl, rfl⟩
  · simp only [exec, execSenseSampleWrite, hs, if_true, if_pos hi]
  · simp only [exec, execSenseSampleWrite, hs, Bool.false_eq_true, if_false, ht, if_true]
  · exact ⟨_, exec_historyRecordClose hr hm, recordClosed_hs _ _ s⟩
  · simp only [exec, execHistoryRecordClose, hm, ht, hr, Bool.true_eq_false, or_self, if_false, Bool.false_eq_true]
  · simp only [exec, execHistoryRecordClose, hm, true_or, if_true]
  · simp only [exec, execCaptureFillDone, hc, ht, hf, and_self, if_true]
    rfl
  · simp only [exec, execCaptureFillDone, hc, ht, hf, Bool.false_eq_true, and_false, if_false]
  · obtain ⟨u, hu, he⟩ := exec_captureCopyDone ht hc
    rw [storeWrite_hs] at he
    refine ⟨u, hu, ?_⟩
    rw [he]
    exact ⟨rfl, rfl, rfl, rfl, rfl⟩


end Sys2Proof.Machine
end

section
/-! PROOFS (the store). The merge buffer's end, a read, the cruiser's page, and regions initialised. -/
namespace Sys2Proof.Machine

open Sys2Proof

theorem self_mem_insertNat (l : List Nat) (a : Nat) : a ∈ insertNat l a := by
  induction l with
  | nil => exact List.mem_singleton.mpr rfl
  | cons c t ih =>
    rw [insertNat]
    split
    · next h => exact h ▸ List.mem_cons_self
    · split
      · exact List.mem_cons_self
      · exact List.mem_cons_of_mem _ ih

theorem wordValid_wordWrite (w : Nat) (bs : List Byte) (s : State) : wordValid w (wordWrite w bs s) = true := by
  simp only [wordValid, wordWrite, List.contains_iff_mem]
  exact self_mem_insertNat _ w

theorem merge_wordWrite (w : Nat) (bs : List Byte) (s : State) :
    (wordWrite w bs s).hs.merge = s.hs.merge.filter fun m => decide (m.word ≠ w) := by
  simp only [wordWrite]
  split <;> rfl

theorem poisonOwner_merge (p : Nat) (s : State) : (poisonOwner p s).hs.merge = s.hs.merge := by
  unfold poisonOwner
  split
  · split
    · simp only
      split <;> rfl
    · rfl
  · rfl
  · rfl
  · simp only
    split
    · simp
    · rfl
  · rfl

/-- R334: an entry that has left the merge buffer is in it no longer. -/
theorem mergeFlush_merge (m : Merge) (s : State) : ∀ x ∈ (mergeFlush m s).hs.merge, x.word ≠ m.word := by
  intro x hx
  have hf : x ∈ s.hs.merge.filter fun x => decide (x.word ≠ m.word) := by
    simp only [mergeFlush] at hx
    split at hx
    · rwa [poisonOwner_merge] at hx
    · rw [merge_wordWrite] at hx
      exact (List.mem_filter.mp hx).1
  simpa using (List.mem_filter.mp hf).2

theorem mergeFlush_valid {m : Merge} {s : State} (hp : pagePoisoned (pageOf m.word) s = false) :
    wordValid m.word (mergeFlush m s) = true := by
  rw [mergeFlush, if_neg (by simp [hp])]
  exact wordValid_wordWrite _ _ _

/-- An entry found by its word has that word. -/
theorem merge_word {l : List Merge} {w : Nat} {m : Merge} (h : l.find? (fun m => decide (m.word = w)) = some m) : m.word = w := by
  simpa using List.find?_some h

theorem exec_mergeBufferTimeout {w : Nat} {m : Merge} {d : WordDecode} {p : Bool} {s : State} (hw : w < 2147483648)
    (hm : s.hs.merge.find? (fun m => decide (m.word = w)) = some m) (hf : s.dbg.frozen = false) :
    exec (.mergeBufferTimeout w d p) s = .next (mergeFlushRead m d p s) := by
  have hw' : ¬ storeWords ≤ w := Nat.not_le.mpr hw
  simp only [exec, execMergeBufferTimeout, if_neg hw', hm, hf, Bool.false_eq_true, if_false]

theorem mergeFlushRead_clean (m : Merge) (p : Bool) (s : State) : mergeFlushRead m .clean p s = mergeFlush m s := by
  simp only [mergeFlushRead, wordRead, reduceCtorEq, false_and, if_false, ite_self]

theorem mergeFlushRead_whole {m : Merge} {s : State} (h : (m.bytes.all fun b => b.isSome) = true) (d : WordDecode) (p : Bool) :
    mergeFlushRead m d p s = mergeFlush m s := by
  have hn : (m.bytes.any fun b => b.isNone) = false := by
    rw [List.any_eq_false]
    intro b hb
    simpa [Option.isSome_iff_ne_none] using List.all_eq_true.mp h b hb
  simp only [mergeFlushRead, hn, Bool.false_and, Bool.false_eq_true, if_false]

theorem exec_storeRead {w : Nat} {d : WordDecode} {p : Bool} {s : State} (hw : w < 2147483648)
    (hm : s.hs.merge.find? (fun m => decide (m.word = w)) = none) (hp : s.pwr.powered.getLsbD 6 = true) :
    exec (.storeRead w d p) s =
      .next (if !wordValid w s || pagePoisoned (pageOf w) s then s else wordRead w d p 1 s) := by
  have hw' : ¬ storeWords ≤ w := Nat.not_le.mpr hw
  simp only [exec, execStoreRead, if_neg hw', hm, hp, Bool.true_eq_false, if_false]

theorem rollWindow_self {s : State} (h : sfSince s.hs.winFrom s < 1024) : rollWindow s = s := by
  simp only [rollWindow, Nat.div_eq_of_lt h, if_true]

/-- A page of the cruiser's lap that is not the last, its window not over. -/
theorem exec_cruiserPageCheck {c : Nat} {z d : Bool} {s u : State} (hp : cruiserPaused s = false)
    (hw : sfSince s.hs.winFrom s < 1024) (hl : s.hs.cruisePage + 1 < 4194304)
    (hu : u = if pageHeld s.hs.cruisePage s then
        let s' := { s with hs := { s.hs with
          lap := { s.hs.lap with checked := s.hs.lap.checked + 1, corrections := s.hs.lap.corrections + c,
                                 repairs := if !z && d then s.hs.lap.repairs + 1 else s.hs.lap.repairs },
          winChecked := s.hs.winChecked + 1 } }
        if !z && !d then poisonPage s.hs.cruisePage 0 s' else s'
      else { s with hs := { s.hs with lap := { s.hs.lap with skipped := s.hs.lap.skipped + 1 } } }) :
    exec (.cruiserPageCheck c z d) s = .next { u with hs := { u.hs with cruisePage := s.hs.cruisePage + 1 } } := by
  have hl' : ¬ storePages ≤ s.hs.cruisePage + 1 := Nat.not_le.mpr hl
  subst hu
  simp only [exec, execCruiserPageCheck, hp, Bool.false_eq_true, if_false, rollWindow_self hw, if_neg hl']

theorem exec_cruiserBoost {s : State} (hp : cruiserPaused s = false) (hw : sfSince s.hs.winFrom s < 1024) :
    exec .cruiserBoost s = .next (if s.hs.boosted = false ∧ 896 ≤ sfSince s.hs.winFrom s ∧ s.hs.winChecked < s.hs.minRate then
      { s with hs := { s.hs with boosted := true, lap := { s.hs.lap with boosts := s.hs.lap.boosts + 1 } } } else s) := by
  simp only [exec, execCruiserBoost, hp, Bool.false_eq_true, if_false, rollWindow_self hw]

/-- A page within a region. -/
def pageIn (r p : Nat) : Prop := regionFirst r ≤ p ∧ p < regionFirst (r + 1)

/-- An emptied region holds no valid word, and no word becomes valid. -/
theorem regionEmpty_valid (r : Nat) (s : State) : ∀ w ∈ (regionEmpty r s).hs.valid, w ∈ s.hs.valid ∧ ¬ pageIn r (pageOf w) := by
  have hv : (regionEmpty r s).hs.valid = (regionClear r s).hs.valid := by
    simp only [regionEmpty]
    split
    · rfl
    · split <;> rfl
  intro w hw
  rw [hv] at hw
  obtain ⟨h1, h2⟩ := List.mem_filter.mp hw
  exact ⟨h1, by simpa [pageIn, Decidable.or_iff_not_imp_left] using h2⟩

theorem regionEmpty_initing (r : Nat) (s : State) : (regionEmpty r s).hs.initing = s.hs.initing := by
  simp only [regionEmpty]
  split
  · rfl
  · split <;> rfl

/-- Emptying regions one after another: none of them holds a valid word. -/
theorem regionsEmpty_valid {α : Type} (l : List (Nat × α)) (s : State) :
    ∀ w ∈ (l.foldl (fun s r => regionEmpty r.1 s) s).hs.valid, w ∈ s.hs.valid ∧ ∀ r ∈ l, ¬ pageIn r.1 (pageOf w) := by
  induction l generalizing s with
  | nil => exact fun w hw => ⟨hw, fun r hr => absurd hr List.not_mem_nil⟩
  | cons a l ih =>
    intro w hw
    obtain ⟨h1, h2⟩ := ih _ w hw
    obtain ⟨h3, h4⟩ := regionEmpty_valid a.1 s w h1
    refine ⟨h3, fun r hr => ?_⟩
    rcases List.mem_cons.mp hr with rfl | hr
    · exact h4
    · exact h2 r hr

theorem regionsEmpty_initing {α : Type} (l : List (Nat × α)) (s : State) :
    (l.foldl (fun s r => regionEmpty r.1 s) s).hs.initing = s.hs.initing := by
  induction l generalizing s with
  | nil => rfl
  | cons a l ih => rw [List.foldl_cons, ih, regionEmpty_initing]

/-- An answer leaves the history's state. -/
theorem foldl_hs {α : Type} {f : State → α → State} (hf : ∀ s a, (f s a).hs = s.hs) (l : List α) (s : State) :
    (l.foldl f s).hs = s.hs := by
  induction l generalizing s with
  | nil => rfl
  | cons a l ih => rw [List.foldl_cons, ih, hf]

theorem answerLate_hs {late : Bool} {f : State → State} (hf : ∀ s, (f s).hs = s.hs) (s : State) : (answerLate late f s).hs = s.hs :=
  hf _

theorem exec_regionInitDone {s : State} (hp : s.pwr.powered.getLsbD 6 = true) : ∃ u, exec .regionInitDone s = .next u ∧
    u.hs = (s.hs.initing.foldl (fun s r => regionEmpty r.1 s) { s with hs := { s.hs with initing := [] } }).hs := by
  have hx : exec .regionInitDone s = execRegionInitDone s := rfl
  rw [hx, execRegionInitDone, if_pos hp]
  refine ⟨_, rfl, foldl_hs (fun s r => ?_) _ _⟩
  split
  · exact answerLate_hs (fun s => by simp) s
  · rfl

/-- Settles O45: each event of the store from what it leaves. -/
theorem storeEvents : Obligations.StoreEvents := by
  refine ⟨fun w d p s hw => ⟨?_, ?_⟩, fun w m s hw hm hf => ?_, fun w d p s hw hm => ?_,
    fun w s hw hm hp => ⟨?_, fun hv hq => ⟨?_, ?_, ?_⟩, fun hv => ?_⟩,
    fun c s hp hw hl => ⟨fun hh => ?_, fun hh => ?_, fun hh t ht => ?_, fun hh => ?_⟩,
    fun s hp hw hb => ⟨fun h1 h2 => ?_, fun h1 => ?_⟩, fun s hp => ?_⟩
  · simp only [exec, execMergeBufferTimeout, show storeWords ≤ w from hw, if_true]
  · simp only [exec, execStoreRead, show storeWords ≤ w from hw, if_true]
  · obtain rfl := merge_word hm
    refine ⟨fun p => ?_, fun ha d p => ?_, fun ha hv hq => ?_, mergeFlush_merge m s, mergeFlush_valid⟩
    · rw [exec_mergeBufferTimeout hw hm hf, mergeFlushRead_clean]
    · rw [exec_mergeBufferTimeout hw hm hf, mergeFlushRead_whole ha]
    · rw [exec_mergeBufferTimeout hw hm hf, mergeFlushRead, ha, hv, hq]
      rfl
  · have hw' : ¬ storeWords ≤ w := Nat.not_le.mpr hw
    simp only [exec, execMergeBufferTimeout, if_neg hw', hm]
  · rw [exec_storeRead hw hm hp]
    exact congrArg _ (ite_self _)
  · rw [exec_storeRead hw hm hp, hv, hq]
    rfl
  · rw [exec_storeRead hw hm hp, hv, hq]
    rfl
  · rw [exec_storeRead hw hm hp, hv, hq]
    rfl
  · rw [exec_storeRead hw hm hp, hv]
    rfl
  · rw [exec_cruiserPageCheck hp hw hl rfl, hh]
    rfl
  · rw [exec_cruiserPageCheck hp hw hl rfl, hh]
    rfl
  · rw [exec_cruiserPageCheck hp hw hl rfl, hh, ht]
    rfl
  · rw [exec_cruiserPageCheck hp hw hl rfl, hh]
    rfl
  · rw [exec_cruiserBoost hp hw, if_pos ⟨hb, h1, h2⟩]
  · rw [exec_cruiserBoost hp hw, if_neg (by omega)]
  · obtain ⟨u, hu, he⟩ := exec_regionInitDone hp
    refine ⟨u, hu, ?_, fun r hr w hw => ?_⟩
    · rw [he, regionsEmpty_initing]
    · rw [he] at hw
      exact (regionsEmpty_valid _ _ w hw).2 r hr

end Sys2Proof.Machine
end

section
/-! PROOFS (the history's commands). -/
namespace Sys2Proof.Machine

open Sys2Proof

theorem exec_hsHistory {h : Hdr} {start : Byte} {s : State} (ha : admitted 0x0B01 s = .accept) (hs : start.toNat ≤ 1)
    (hc : s.aon.coppice = 0) : exec (.hsHistory h start) s = .next (reply 0x0B01 h [fld 16 8 s.hs.seq]
      { s with hs := { s.hs with wanted := decide (start = 1) } }) := by
  have hc' : ¬ 0 < s.aon.coppice := by omega
  simp only [exec, execHsHistory, command_accept ha]
  rw [guarded_pass (by simp only [firstFail_cons, firstFail_nil, hc', show ¬ 1 < start.toNat by omega, decide_false,
    Bool.false_eq_true, if_false])]

theorem exec_hsHistory_coppiced {h : Hdr} {start : Byte} {s : State} (ha : admitted 0x0B01 s = .accept) (hs : start.toNat ≤ 1)
    (hc : 0 < s.aon.coppice) : exec (.hsHistory h start) s = .next (refuse 0x0B01 h .badState s) := by
  simp only [exec, execHsHistory, command_accept ha]
  rw [guarded_fail (st := .badState) (by simp only [firstFail_cons, firstFail_nil, hc, show ¬ 1 < start.toNat by omega,
    decide_false, decide_true, Bool.false_eq_true, if_false, if_true])]

theorem exec_hsHistoryRead {h : Hdr} {first : Dword} {count : Byte} {s : State} (ha : admitted 0x0B02 s = .accept)
    (h1 : 1 ≤ count.toNat) (h2 : count.toNat ≤ 32) (hb : h.buf = true) (hf : first.toNat < s.hs.seq) : ∃ missing,
    exec (.hsHistoryRead h first count) s = .next (respond 0x0B02 h .ok
      (result [fld 16 8 (max first.toNat (oldestSeq s)), fld 24 1 (min count.toNat (s.hs.seq - max first.toNat (oldestSeq s))),
        fld 25 1 (decide (first.toNat < oldestSeq s)).toNat, fld 28 4 missing])
      (some ((List.range (min count.toNat (s.hs.seq - max first.toNat (oldestSeq s)))).flatMap fun i =>
        recordAt (max first.toNat (oldestSeq s) + i) s)) s) := by
  simp only [exec, execHsHistoryRead, command_accept ha]
  rw [guarded_pass (by simp only [firstFail_cons, firstFail_nil, hb, show ¬ count.toNat < 1 by omega,
    show ¬ 32 < count.toNat by omega, show ¬ s.hs.seq ≤ first.toNat by omega, decide_false, Bool.not_true, Bool.or_self,
    Bool.false_eq_true, if_false])]
  exact ⟨_, rfl⟩

theorem exec_hsSenseConfig {h : Hdr} {rate : Byte} {s : State} (ha : admitted 0x0B03 s = .accept) (hr : rate.toNat ≤ 5)
    (hc : s.aon.coppice = 0) : ∃ k fs, exec (.hsSenseConfig h rate) s = .next (reply 0x0B03 h fs
      (if rate.toNat = s.hs.rate then s
        else senseReset { s with hs := { s.hs with rate := rate.toNat, stages := k, senseGap := true } })) := by
  have hc' : ¬ 0 < s.aon.coppice := by omega
  simp only [exec, execHsSenseConfig, command_accept ha]
  rw [guarded_pass (by simp only [firstFail_cons, firstFail_nil, hc', show ¬ 5 < rate.toNat by omega, decide_false,
    Bool.false_eq_true, if_false])]
  exact ⟨_, _, by simp only [decide_eq_true_eq]; rfl⟩

theorem exec_hsSenseRead {h : Hdr} {first : Dword} {count : Half} {s : State} (ha : admitted 0x0B04 s = .accept)
    (hb : h.buf = true) (h1 : 1 ≤ count.toNat) (h2 : count.toNat ≤ 256) (hf : first.toNat < s.hs.sampleN) : ∃ fs a n,
      exec (.hsSenseRead h first count) s = .next (respond 0x0B04 h .ok (result fs) (some ((List.range n).flatMap fun i =>
        wordBytes (sampleAddr (a + i) / 8) s ++ wordBytes (sampleAddr (a + i) / 8 + 1) s)) s) ∧
      a = max first.toNat (max s.hs.firstSample (s.hs.sampleN - 67108864)) ∧ n = min count.toNat (s.hs.sampleN - a) ∧
      fld 16 8 a ∈ fs ∧ fld 24 2 n ∈ fs := by
  simp only [exec, execHsSenseRead, command_accept ha]
  rw [guarded_pass (by simp only [firstFail_cons, firstFail_nil, hb, show ¬ count.toNat < 1 by omega,
    show ¬ 256 < count.toNat by omega, show ¬ s.hs.sampleN ≤ first.toNat by omega, decide_false, Bool.not_true, Bool.or_self,
    Bool.false_eq_true, if_false])]
  exact ⟨_, _, _, rfl, rfl, rfl, List.mem_cons_self, List.mem_cons_of_mem _ List.mem_cons_self⟩

theorem exec_hsSenseRead_late {h : Hdr} {first : Dword} {count : Half} {s : State} (ha : admitted 0x0B04 s = .accept)
    (hf : s.hs.sampleN ≤ first.toNat) : exec (.hsSenseRead h first count) s = .next (refuse 0x0B04 h .badArg s) := by
  simp only [exec, execHsSenseRead, command_accept ha]
  rw [guarded_fail (st := .badArg) (by simp only [firstFail_cons, hf, decide_true, if_true, ite_self])]

theorem exec_hsTriggerConfig {h : Hdr} {enables m action : Byte} {rateThr : Word} {excThr : Half} {s : State}
    (ha : admitted 0x0B05 s = .accept) (he : enables &&& 0xFC = 0) (h2 : action.toNat ≤ 2)
    (hr : rateThr = 0 ∨ (50 ≤ rateThr.toNat ∧ rateThr.toNat ≤ 20000))
    (hx : excThr = 0 ∨ (50 ≤ excThr.toNat ∧ excThr.toNat ≤ 3141)) :
    exec (.hsTriggerConfig h enables m action rateThr excThr) s = .next (done 0x0B05 h { s with hs := { s.hs with
      trigRate := enables.getLsbD 0, trigExc := enables.getLsbD 1, trigM := if m = 0 then 8 else m.toNat,
      trigAction := action.toNat, rateThr := if rateThr = 0 then 500 else rateThr.toNat,
      excThr := if excThr = 0 then 500 else excThr.toNat, rateRun := 0, excRun := 0, rateFired := false,
      excFired := false, capArmed := decide (action ≠ 0) } }) := by
  have he' : reservedClear enables 3 = true := (reservedClear_iff enables 3).mpr he
  have hr' : (decide (rateThr ≠ 0) && (decide (rateThr.toNat < 50) || decide (20000 < rateThr.toNat))) = false := by
    rcases hr with rfl | ⟨h5, h6⟩
    · rfl
    · simp [show ¬ rateThr.toNat < 50 by omega, show ¬ 20000 < rateThr.toNat by omega]
  have hx' : (decide (excThr ≠ 0) && (decide (excThr.toNat < 50) || decide (3141 < excThr.toNat))) = false := by
    rcases hx with rfl | ⟨h5, h6⟩
    · rfl
    · simp [show ¬ excThr.toNat < 50 by omega, show ¬ 3141 < excThr.toNat by omega]
  simp only [exec, execHsTriggerConfig, command_accept ha]
  rw [guarded_pass (by simp only [firstFail_cons, firstFail_nil, he', hr', hx', show ¬ 2 < action.toNat by omega, decide_false,
    Bool.not_true, Bool.or_self, Bool.false_eq_true, if_false])]
  rfl

/-- The checks of a capture asked for, in the state that its flags leave. -/
def captureChecks (s : State) : List (Bool × St) :=
  [(s.line.cur.isNone, .badState), (decide (s.hs.capSt ≠ 0), .busy),
   ((capChoice { s with hs := { s.hs with overwrite := false } }).isNone || decide (0 < s.aon.coppice), .noResource)]

theorem exec_hsCaptureCmd {h : Hdr} {action : Byte} {s : State} (ha : admitted 0x0B06 s = .accept) (h1 : action.toNat ≤ 1) :
    exec (.hsCaptureCmd h action 0) s = .next (if action = 1 then
        reply 0x0B06 h [fld 16 1 0xFF, fld 17 1 0] { s with hs := { s.hs with capArmed := false, overwrite := false } }
      else guarded 0x0B06 h (captureChecks s)
        (fun _ => reply 0x0B06 h [fld 16 1 ((capChoice { s with hs := { s.hs with overwrite := false } }).getD 0), fld 17 1 1]
          (capStart ((capChoice { s with hs := { s.hs with overwrite := false } }).getD 0) 0 Lts.zero
            { s with hs := { s.hs with overwrite := false } }))
        (if s.hs.capSt ≠ 0 then { s with hs := { s.hs with missed := s.hs.missed + 1 } } else s)) := by
  simp only [exec, execHsCaptureCmd, command_accept ha]
  rw [guarded_pass (by simp only [firstFail_cons, firstFail_nil, show ¬ 1 < action.toNat by omega, decide_false,
    reservedClear_one (show (0 : Byte) &&& 0xFE = 0 from rfl), Bool.not_true, Bool.or_self, Bool.false_eq_true, if_false])]
  rfl

/-- The lowest slot that is EMPTY is the one a capture takes. -/
theorem capChoice_lowest {k : Nat} {s : State} (hk : k < 256) (h0 : s.hs.slots.getD k 0 = 0)
    (hl : ∀ j, j < k → s.hs.slots.getD j 0 ≠ 0) : capChoice s = some k := by
  have hf : (List.range 256).find? (fun k => decide (s.hs.slots.getD k 0 = 0)) = some k := by
    rw [List.find?_range_eq_some]
    refine ⟨by simpa using h0, List.mem_range.mpr hk, fun j hj => ?_⟩
    simpa using hl j hj
  rw [capChoice, hf]

theorem capChoice_none {s : State} (ho : s.hs.overwrite = false) (hl : ∀ k, k < 256 → s.hs.slots.getD k 0 ≠ 0) :
    capChoice s = none := by
  have hf : (List.range 256).find? (fun k => decide (s.hs.slots.getD k 0 = 0)) = none := by
    rw [List.find?_range_eq_none]
    intro j hj
    simpa using hl j hj
  simp only [capChoice, hf, ho, Bool.false_eq_true, if_false]

theorem exec_hsCaptureRead {h : Hdr} {slot : Byte} {s : State} (ha : admitted 0x0B07 s = .accept) (hb : h.buf = true) :
    exec (.hsCaptureRead h slot 0 0) s = .next (if s.hs.slots.getD slot.toNat 0 ≤ 2 then refuse 0x0B07 h .badState s
      else respond 0x0B07 h .ok (result [fld 16 1 (s.hs.slots.getD slot.toNat 0),
          fld 17 1 (pagePoisoned (slotPage slot.toNat) s).toNat, fld 18 2 4096])
        (some ((List.range 512).flatMap fun k => wordBytes (512 * slotPage slot.toNat + k) s)) s) := by
  have h0 : bitOf 0 0 = false := rfl
  have hz : (0 : Dword).toNat = 0 := rfl
  simp only [exec, execHsCaptureRead, command_accept ha, h0, hz, Bool.not_false, Bool.true_and, Bool.false_eq_true, if_false,
    Nat.zero_div, Nat.add_zero]
  split
  · next hc =>
    rw [guarded_fail (st := .badState)]
    simp only [firstFail_cons, hb, hc, reservedClear_one (show (0 : Byte) &&& 0xFE = 0 from rfl), Nat.zero_mod, ne_eq,
      not_true_eq_false, decide_false, nonpos_iff_eq_zero, OfNat.ofNat_ne_zero, Bool.not_true, Bool.or_self,
      Bool.false_eq_true, if_false, decide_true, if_true]
  · next hc =>
    rw [guarded_pass]
    simp only [firstFail_cons, firstFail_nil, hb, hc, reservedClear_one (show (0 : Byte) &&& 0xFE = 0 from rfl), Nat.zero_mod, ne_eq,
      not_true_eq_false, decide_false, nonpos_iff_eq_zero, OfNat.ofNat_ne_zero, Bool.not_true, Bool.or_self,
      Bool.false_eq_true, if_false]

theorem exec_hsCruiser {h : Hdr} {rate : Half} {flags : Byte} {s : State} (ha : admitted 0x0B08 s = .accept)
    (hr : rate = 0 ∨ (16 ≤ rate.toNat ∧ rate.toNat ≤ 4096)) (hf : flags &&& 0xFE = 0) :
    exec (.hsCruiser h rate flags) s = .next (done 0x0B08 h { s with hs := { s.hs with
      minRate := if rate = 0 then 128 else rate.toNat, notifyLap := flags.getLsbD 0 } }) := by
  have hr' : (decide (rate ≠ 0) && (decide (rate.toNat < 16) || decide (4096 < rate.toNat))) = false := by
    rcases hr with rfl | ⟨h5, h6⟩
    · rfl
    · simp [show ¬ rate.toNat < 16 by omega, show ¬ 4096 < rate.toNat by omega]
  simp only [exec, execHsCruiser, command_accept ha]
  rw [guarded_pass (by simp only [firstFail_cons, firstFail_nil, hr', reservedClear_one hf, Bool.not_true, Bool.false_eq_true,
    if_false])]
  rfl

theorem exec_hsRegionInit {h : Hdr} {region : Byte} {s : State} (ha : admitted 0x0B0A s = .accept) (h1 : region.toNat ≤ 1) :
    exec (.hsRegionInit h region) s = .next (if s.hs.capSt ≠ 0 then refuse 0x0B0A h .busy s else { s with hs := { s.hs with
      initing := s.hs.initing ++ [(region.toNat, some (h, decide (s.q.acting = some true)))] } }) := by
  have h1' : ¬ 1 < region.toNat := by omega
  simp only [exec, execHsRegionInit, command_accept ha]
  split
  · next hc => rw [guarded_fail (st := .busy) (by simp only [firstFail_cons, h1', hc, decide_false, decide_true,
      Bool.false_eq_true, if_false, if_true, ne_eq, not_false_eq_true])]
  · next hc => rw [guarded_pass (by simp only [firstFail_cons, firstFail_nil, h1', hc, decide_false, Bool.false_eq_true, if_false])]

/-- Settles O46: each command from its checks and what it leaves. -/
theorem historyCommands : Obligations.HistoryCommands := by
  refine ⟨fun h start s ha hs => ⟨exec_hsHistory ha hs, exec_hsHistory_coppiced ha hs⟩, fun h first count s ha h1 h2 hb hf => ?_,
    fun h rate s ha hr hc => ?_, fun h first count s ha hb => ⟨exec_hsSenseRead ha hb, exec_hsSenseRead_late ha⟩,
    fun h enables m action rateThr excThr s ha he h2 hr hx => exec_hsTriggerConfig ha he h2 hr hx,
    fun h s ha => ⟨?_, fun hl hc => ?_, fun hl hc hp k hk h0 hj => ?_, fun hl hc hn => ?_⟩,
    fun h slot s ha hb => ⟨fun h3 => ?_, fun h2 => ?_⟩, fun h rate flags s ha hr hf => exec_hsCruiser ha hr hf, fun h s ha => ?_,
    fun h region s ha h1 => ⟨fun hc => ?_, fun hc => ?_⟩⟩
  · obtain ⟨missing, hex⟩ := exec_hsHistoryRead ha h1 h2 hb hf
    exact ⟨_, _, missing, hex, rfl, rfl⟩
  · obtain ⟨k, fs, hex⟩ := exec_hsSenseConfig (h := h) ha hr hc
    refine ⟨_, fs, hex, ?_, fun he => if_pos he, fun hn => by rw [if_neg hn]; rfl⟩
    split
    · next he => exact he.symm
    · rfl
  · rw [exec_hsCaptureCmd ha (by decide), if_pos rfl]
  · rw [exec_hsCaptureCmd ha (by decide), if_neg (by decide), guarded_fail (st := .busy), if_pos hc]
    simp only [captureChecks, firstFail_cons, Option.isNone_eq_false_iff.mpr hl, hc, Bool.false_eq_true, if_false, ne_eq,
      not_false_eq_true, decide_true, if_true]
  · have hk' : capChoice { s with hs := { s.hs with overwrite := false } } = some k := capChoice_lowest hk h0 hj
    refine ⟨capStart k 0 Lts.zero { s with hs := { s.hs with overwrite := false } }, ?_, rfl, rfl, rfl, rfl⟩
    rw [exec_hsCaptureCmd ha (by decide), if_neg (by decide), guarded_pass, hk', Option.getD_some]
    rw [captureChecks, hk']
    simp only [firstFail_cons, firstFail_nil, Option.isNone_eq_false_iff.mpr hl, hc, hp, Option.isNone_some,
      Nat.lt_irrefl, ne_eq, not_true_eq_false, decide_false, Bool.or_self, Bool.false_eq_true, if_false]
  · have hk' : capChoice { s with hs := { s.hs with overwrite := false } } = none := capChoice_none rfl hn
    have hc' : ¬ s.hs.capSt ≠ 0 := not_not.mpr hc
    rw [exec_hsCaptureCmd ha (by decide), if_neg (by decide), guarded_fail (st := .noResource), if_neg hc']
    rw [captureChecks, hk']
    simp only [firstFail_cons, Option.isNone_eq_false_iff.mpr hl, hc, Option.isNone_none,
      ne_eq, not_true_eq_false, decide_false, Bool.true_or, Bool.false_eq_true, if_false, if_true]
  · rw [exec_hsCaptureRead ha hb, if_neg (by omega)]
    exact ⟨_, rfl⟩
  · rw [exec_hsCaptureRead ha hb, if_pos h2]
  · refine ⟨_, by simp only [exec, execHsStoreStatus, query_accept ha]; rfl, ?_⟩
    simp
  · rw [exec_hsRegionInit ha h1, if_neg (not_not.mpr hc)]
  · rw [exec_hsRegionInit ha h1, if_pos hc]


end Sys2Proof.Machine
end

section
/-! PROOFS (calibration). The converters' parts of the state, a swap that takes place, a slice that has been calibrated, and the
items that grow stale. -/
namespace Sys2Proof.Machine

open Sys2Proof

theorem four_get_set_same {α : Type} (f : Four α) (i : BitVec 2) (x : α) : (f.set i x).get i = x := by
  unfold Four.get Four.set
  split_ifs <;> rfl

theorem chanOf_setChan_same (conv : Conv) (ch : BitVec 2) (c : Chan) (s : State) : chanOf conv ch (setChan conv ch c s) = c := by
  cases conv <;> exact four_get_set_same _ ch c

theorem modAt_getElem? {α : Type} {l : List α} {i : Nat} {x : α} (f : α → α) (h : l[i]? = some x) :
    (modAt l i f)[i]? = some (f x) := by
  simp only [modAt, h]
  rw [List.getElem?_set_self (List.getElem?_eq_some_iff.mp h).1]

theorem inCal_congr {conv : Conv} {u s : State} (h : u.cal = s.cal) : inCal conv u = inCal conv s := by
  cases conv <;> simp only [inCal, h]

theorem chanOf_congr {conv : Conv} {ch : BitVec 2} {u s : State} (h1 : u.fe = s.fe) (h2 : u.tx = s.tx) :
    chanOf conv ch u = chanOf conv ch s := by
  cases conv <;> simp only [chanOf, h1, h2]

/-- A calibration's notes leave the converters and the calibration's state. -/
theorem staleNote_kept (dom item : Nat) (b : Bool) (s : State) : (staleNote dom item b s).cal = s.cal ∧
    (staleNote dom item b s).fe = s.fe ∧ (staleNote dom item b s).tx = s.tx ∧ (staleNote dom item b s).ref = s.ref := by
  rw [staleNote]
  split <;> simp

theorem sliceEvent_kept (conv : Conv) (ch : BitVec 2) (i n : Nat) (b : Bool) (s : State) :
    (sliceEvent conv ch i n b s).cal = s.cal ∧ (sliceEvent conv ch i n b s).fe = s.fe ∧
      (sliceEvent conv ch i n b s).tx = s.tx := by
  cases conv <;> simp [sliceEvent]

theorem exec_sliceSwap {conv : Conv} {w : Swap} {s : State} (hw : swapOf conv s = some w) (ht : ticking s = true)
    (hs : s.pwr.shed < 2) (h0 : s.time.lts.sym = 0) (h1 : sfSince w.slot s ≤ 511) (hd : swapDeferred conv s = false) :
    ∃ u, exec (.sliceSwap conv) s = .next u ∧
      swapOf conv u = none ∧ inCal conv u = some (w.ch, w.target, s.time.lts.sf) ∧
      chanOf conv w.ch u = swapSlices w s.time.lts.sf (chanOf conv w.ch s) ∧ rotOf conv u = rotOf conv s + 1 := by
  simp only [exec, execSliceSwap, hw, ht, hs, h0, h1, hd, decide_true, Bool.not_false, Bool.and_self, if_true]
  refine ⟨_, rfl, ?_⟩
  cases conv with
  | adc => exact ⟨rfl, rfl, four_get_set_same _ _ _, rfl⟩
  | dac => exact ⟨rfl, rfl, four_get_set_same _ _ _, rfl⟩

theorem exec_sliceSwap_deferred {conv : Conv} {s : State} (hd : swapDeferred conv s = true) :
    exec (.sliceSwap conv) s = .next s := by
  simp only [exec, execSliceSwap, hd, Bool.not_true, Bool.and_false, Bool.false_and, Bool.false_eq_true, if_false]
  split <;> rfl

theorem exec_swapSlotSkip {conv : Conv} {w : Swap} {s : State} (hw : swapOf conv s = some w) (ht : ticking s = true) :
    exec (.swapSlotSkip conv) s = .next (if 511 < sfSince w.slot s then skipSlot conv s else s) := by
  simp only [exec, execSwapSlotSkip, hw, ht, Bool.true_and, decide_eq_true_eq]

theorem exec_sliceCalDone_early {conv : Conv} {ch : BitVec 2} {i : Nat} {from_ : Sf} {o g k n : Int} {s : State}
    (hc : inCal conv s = some (ch, i, from_)) (h : sfSince from_ s < 256) :
    exec (.sliceCalDone conv o g k n) s = .next s := by
  simp only [exec, execSliceCalDone, hc, show ¬ 256 ≤ sfSince from_ s by omega, decide_false, Bool.and_false, Bool.false_eq_true,
    if_false]

/-- A channel with the corrections of slice `i` stored. -/
def calibratedChan (i : Nat) (v : SliceFound) (sf : Sf) (c : Chan) : Chan :=
  { c with slices := modAt c.slices i (sliceCalibrated v (medianNoise c) sf) }

/-- The state once a slice's corrections have been stored, before what is told of it. -/
def sliceStored (conv : Conv) (ch : BitVec 2) (i : Nat) (v : SliceFound) (s : State) : State :=
  putCal conv none (setChan conv ch (calibratedChan i v s.time.lts.sf (chanOf conv ch s)) s)

theorem sliceStored_spec (conv : Conv) (ch : BitVec 2) (i : Nat) (v : SliceFound) (s : State) :
    inCal conv (sliceStored conv ch i v s) = none ∧
      chanOf conv ch (sliceStored conv ch i v s) = calibratedChan i v s.time.lts.sf (chanOf conv ch s) := by
  cases conv with
  | adc => exact ⟨rfl, four_get_set_same _ _ _⟩
  | dac => exact ⟨rfl, four_get_set_same _ _ _⟩

/-- The converters' part of two states is the same. -/
def SameConv (u s : State) : Prop := u.cal = s.cal ∧ u.fe = s.fe ∧ u.tx = s.tx

theorem staleNote_sameConv (b : Bool) (dom item : Nat) (set : Bool) (s : State) :
    SameConv (if b then staleNote dom item set s else s) s := by
  split
  · obtain ⟨h1, h2, h3, -⟩ := staleNote_kept dom item set s
    exact ⟨h1, h2, h3⟩
  · exact ⟨rfl, rfl, rfl⟩

theorem sliceEvent_sameConv {u s : State} (h : SameConv u s) (conv : Conv) (ch : BitVec 2) (i n t : Nat) (b : Bool) (c : Half)
    (e : Option Half) (d : List Byte) : SameConv (sliceEvent conv ch i n b (logEntry t c e d u)) s := by
  obtain ⟨h1, h2, h3⟩ := h
  obtain ⟨h4, h5, h6⟩ := sliceEvent_kept conv ch i n b (logEntry t c e d u)
  exact ⟨by rw [h4, ← h1]; simp, by rw [h5, ← h2]; simp, by rw [h6, ← h3]; simp⟩

theorem exec_sliceCalDone_same {conv : Conv} {ch : BitVec 2} {i : Nat} {from_ : Sf} {o g k n : Int} {s : State}
    (hc : inCal conv s = some (ch, i, from_)) (ht : ticking s = true) (hh : taskHeld .calibration s = false)
    (hr : redoOf conv s = false) (hs : s.pwr.shed < 2) (h : 256 ≤ sfSince from_ s) :
    ∃ u, exec (.sliceCalDone conv o g k n) s = .next u ∧ SameConv u (sliceStored conv ch i ⟨o, g, k, n⟩ s) := by
  simp only [exec, execSliceCalDone, hc, ht, hh, hr, hs, h, decide_true, Bool.not_false, Bool.and_self, if_true]
  refine ⟨_, rfl, ?_⟩
  split
  · split
    · exact sliceEvent_sameConv (staleNote_sameConv _ _ _ _ _) _ _ _ _ _ _ _ _ _
    · exact staleNote_sameConv _ _ _ _ _
  · exact staleNote_sameConv _ _ _ _ _

theorem exec_sliceCalDone {conv : Conv} {ch : BitVec 2} {i : Nat} {from_ : Sf} {o g k n : Int} {x : Slice} {s : State}
    (hc : inCal conv s = some (ch, i, from_)) (ht : ticking s = true) (hh : taskHeld .calibration s = false)
    (hr : redoOf conv s = false) (hs : s.pwr.shed < 2) (hx : (chanOf conv ch s).slices[i]? = some x)
    (h : 256 ≤ sfSince from_ s) : ∃ u, exec (.sliceCalDone conv o g k n) s = .next u ∧ inCal conv u = none ∧
      (chanOf conv ch u).slices[i]? = some (sliceCalibrated ⟨o, g, k, n⟩ (medianNoise (chanOf conv ch s)) s.time.lts.sf x) := by
  obtain ⟨u, hu, e1, e2, e3⟩ := exec_sliceCalDone_same hc ht hh hr hs h
  obtain ⟨h1, h2⟩ := sliceStored_spec conv ch i ⟨o, g, k, n⟩ s
  refine ⟨u, hu, (inCal_congr e1).trans h1, ?_⟩
  rw [chanOf_congr e2 e3, h2]
  exact modAt_getElem? _ hx

theorem clampInt_of_natAbs_le {n : Nat} {x : Int} (h : x.natAbs ≤ n) : clampInt (-n) n x = x := by
  simp only [clampInt]
  omega

/-- R135, R380: a good result, one out of range, and a third bad one in a row. -/
theorem sliceCalibrated_good {v : SliceFound} {median : Int} {sf : Sf} {x : Slice} (hr : inRange v = true)
    (hn : v.noise ≤ median + 300) : (sliceCalibrated v median sf x).st = .spare ∧
      (sliceCalibrated v median sf x).last = sf ∧ (sliceCalibrated v median sf x).offset = v.offset ∧
      (sliceCalibrated v median sf x).gain = v.gain ∧ (sliceCalibrated v median sf x).skew = v.skew := by
  have hn' : ¬ median + 300 < v.noise := by omega
  have hr' := hr
  simp only [inRange, Bool.and_eq_true, decide_eq_true_eq] at hr'
  obtain ⟨⟨ho, hg⟩, hk⟩ := hr'
  refine ⟨?_, rfl, clampInt_of_natAbs_le ho, clampInt_of_natAbs_le hg, clampInt_of_natAbs_le hk⟩
  simp [sliceCalibrated, hr, hn']

theorem sliceCalibrated_st (v : SliceFound) (median : Int) (sf : Sf) (x : Slice) : (sliceCalibrated v median sf x).st =
    if 3 ≤ (if inRange v then 0 else x.rangeRun + 1) ∨ 3 ≤ (if median + 300 < v.noise then x.noiseRun + 1 else 0)
    then .retired else .spare := rfl

theorem sliceCalibrated_spare {v : SliceFound} {median : Int} {sf : Sf} {x : Slice} (h1 : x.rangeRun < 2) (h2 : x.noiseRun < 2) :
    (sliceCalibrated v median sf x).st = .spare := by
  rw [sliceCalibrated_st, if_neg]
  split <;> split <;> omega

theorem exec_calSlotOpen {s : State} (ht : ticking s = true) (hh : taskHeld .calibration s = false) (hr : inRun s = true)
    (hs : s.pwr.shed < 2) (hm : s.time.lts.sf.toNat % 1024 = 0) : exec .calSlotOpen s =
      .next (if s.cal.lastSlot ≠ s.time.lts.sf then
        nextSlot .dac (nextSlot .adc { s with cal := { s.cal with lastSlot := s.time.lts.sf } }) else s) := by
  simp only [exec, execCalSlotOpen, ht, hh, hr, hs, hm, decide_true, Bool.not_false, Bool.and_self, Bool.true_and, decide_eq_true_eq]

theorem openSlot_idle {conv : Conv} {s : State} (hc : inCal conv s = none) : openSlot conv s =
    (chooseSwap conv (rotOf conv s) s).elim (advanceRot conv s) fun w => putSwap conv (some w) s := by
  simp only [openSlot, hc]
  split <;> next h => rw [h]; rfl

theorem exec_calibrationStale {dom : Byte} {item : Half} {s : State} (hi : item.toNat < domItems dom.toNat)
    (ht : ticking s = true) (hn : s.cal.stale.getD dom.toNat 0 ≠ 0) (hs : (itemOf dom.toNat item.toNat s).stale = false) :
    exec (.calibrationStale dom item) s = .next (if itemOlder dom.toNat item.toNat (s.cal.stale.getD dom.toNat 0) s then
      staleNote dom.toNat item.toNat true (modItem dom.toNat item.toNat (fun x => { x with stale := true }) s) else s) := by
  simp only [exec, execCalibrationStale, Nat.not_le.mpr hi, if_false, ht, hn, hs, ne_eq, not_false_eq_true, decide_true,
    Bool.not_false, Bool.and_self, Bool.true_and]

theorem modItem_notify (dom item : Nat) (f : CalItem → CalItem) (s : State) : (modItem dom item f s).cal.notify = s.cal.notify := by
  simp only [modItem]
  split
  · split <;> rfl
  · rfl

theorem modItem_ref (dom item : Nat) (f : CalItem → CalItem) (s : State) : (modItem dom item f s).ref = s.ref := by
  simp only [modItem]
  split
  · split <;> rfl
  · rfl

/-- The resonator's calibration is an item of its own: its completion leaves the correction. -/
theorem itemDone_calFreq (dom item : Nat) (s : State) : (itemDone dom item s).ref.calFreq = s.ref.calFreq := by
  simp only [itemDone]
  split
  · rw [(staleNote_kept _ _ _ _).2.2.2, modItem_ref]
    split <;> rfl
  · rw [modItem_ref]
    split <;> rfl

theorem exec_resonatorCalUpdate {input : Byte} {s : State} (hi : input.toNat < 2) (ht : ticking s = true)
    (hs : s.ref.sel = some input.toNat) (hc : s.ref.clk = .locked) (hl : wardenPassed s.ref.lockedFrom 86400 s = true)
    (hp : wardenPassed s.ref.calAt 86400 s = true) (hh : taskHeld .calibration s = false) :
    exec (.resonatorCalUpdate input) s = .next (itemDone 5 0 { s with ref := { s.ref with
      calFreq := s.ref.calFreq + clampInt (-100000) 100000 (calMean s) } }) := by
  have hi' : ¬ 2 ≤ input.toNat := by omega
  have hg : (ticking s && decide (s.ref.sel = some input.toNat) && decide (s.ref.clk = .locked) &&
      wardenPassed s.ref.lockedFrom 86400 s && wardenPassed s.ref.calAt 86400 s && !taskHeld .calibration s) = true := by
    simp [ht, hs, hc, hl, hp, hh]
  simp only [exec, execResonatorCalUpdate, if_neg hi', if_pos hg]

theorem chooseSwap_failed {conv : Conv} {ch : BitVec 2} {sp i : Nat} {s : State} (hp : oldestIn .spare (chanOf conv ch s) = some sp)
    (hf : failedIn (chanOf conv ch s) = some i) : chooseSwap conv ch s = some ⟨ch, i, some sp, s.time.lts.sf⟩ := by
  simp only [chooseSwap, hp, hf]

theorem chooseSwap_oldest {conv : Conv} {ch : BitVec 2} {sp i : Nat} {s : State} (hp : oldestIn .spare (chanOf conv ch s) = some sp)
    (hf : failedIn (chanOf conv ch s) = none) (ha : askedFor conv ch s = none)
    (ho : oldestIn .active (chanOf conv ch s) = some i) : chooseSwap conv ch s = some ⟨ch, i, some sp, s.time.lts.sf⟩ := by
  simp only [chooseSwap, hp, hf, ha, ho, Option.map_some]

/-- Settles O47: the slots and swaps of both converters, a slice calibrated, stale items and the resonator. -/
theorem calibrationEvents : Obligations.CalibrationEvents := by
  refine ⟨fun s ht hh hr hs hm => ⟨fun hl => ?_, fun hl => ?_⟩, fun s hn => ?_,
    fun conv s => ⟨fun hw => ?_, fun hw => ?_, fun w hc hw => ?_, fun hc hw => ?_⟩,
    fun conv ch sp i s hp => ⟨chooseSwap_failed hp, fun hf ha ho => chooseSwap_oldest hp hf ha ho⟩,
    fun conv s => ⟨fun hc => ?_, fun h1 h7 => ?_, fun hm => ?_, fun hl => ?_⟩,
    fun conv w s hw ht hs => ⟨fun h0 h1 hd => exec_sliceSwap hw ht hs h0 h1 hd, exec_sliceSwap_deferred, fun hl => ?_, fun hl => ?_⟩,
    fun s => ⟨rfl, rfl⟩,
    fun conv ch i from_ o g k n x s hc ht hh hr hs hx =>
      ⟨exec_sliceCalDone hc ht hh hr hs hx, exec_sliceCalDone_early hc⟩,
    fun v median sf x => ⟨sliceCalibrated_good, fun hr hx => ?_, fun hn hx => ?_, sliceCalibrated_spare⟩,
    fun dom item s => ⟨fun hi => ?_, fun hi ht hn hs => ⟨fun ho hq => ?_, fun ho => ?_⟩⟩,
    fun d i n s => ⟨fun hd => ?_, ?_⟩, fun input s => ⟨fun hi => ?_, fun hi ht hs hc hl hp hh => ?_⟩⟩
  · rw [exec_calSlotOpen ht hh hr hs hm, if_pos hl]
  · rw [exec_calSlotOpen ht hh hr hs hm, if_neg (not_not.mpr hl)]
  · simp only [exec, execCalSlotOpen]
    rw [if_neg]
    simp only [Bool.and_eq_true, decide_eq_true_eq, Bool.not_eq_true']
    rintro ⟨⟨⟨⟨⟨-, hh⟩, -⟩, hs⟩, hm⟩, -⟩
    rcases hn with hn | hn | hn
    · omega
    · exact hn hm
    · simp [hn] at hh
  · simp only [nextSlot, hw, Option.isSome_none, Bool.false_eq_true, if_false]
  · simp only [nextSlot, hw, if_true]
  · rw [openSlot_idle hc, hw, Option.elim_some]
  · rw [openSlot_idle hc, hw, Option.elim_none]
  · simp [swapDeferred, hc]
  · simp [swapDeferred, h1, h7]
  · simp [swapDeferred, hm]
  · simp [swapDeferred, hl]
  · rw [exec_swapSlotSkip hw ht, if_pos hl]
  · rw [exec_swapSlotSkip hw ht, if_neg (by omega)]
  · rw [sliceCalibrated_st, if_pos (.inl (by simp [hr, hx]))]
  · rw [sliceCalibrated_st, if_pos (.inr (by simp [hn, hx]))]
  · simp only [exec, execCalibrationStale, hi, if_true]
  · rw [exec_calibrationStale hi ht hn hs, if_pos ho, staleNote, modItem_notify, if_neg (by rw [hq]; decide)]
  · rw [exec_calibrationStale hi ht hn hs, ho]
    rfl
  · simp [itemOlder, hd]
  · simp [itemOlder]
  · simp only [exec, execResonatorCalUpdate, hi, if_true]
  · exact ⟨_, exec_resonatorCalUpdate hi ht hs hc hl hp hh, itemDone_calFreq 5 0 _⟩

end Sys2Proof.Machine
end

section
/-! PROOFS (health). The monitor's conversions, the intervals' boundaries, blazes, and the ageing monitor's day. -/
namespace Sys2Proof.Machine

open Sys2Proof

theorem monCode_over (c : MonCh) (raw : Nat) : monCode c raw true = 0xFFF := rfl

theorem monCode_le (c : MonCh) (raw : Nat) : monCode c raw false ≤ 0xFFF := by
  simp only [monCode, Bool.false_eq_true, if_false]
  omega

theorem monCode_neutral {c : MonCh} {raw : Nat} (ho : c.offset = 0) (hg : c.gain = 32768) (hr : raw ≤ 0xFFF) :
    monCode c raw false = raw := by
  simp only [monCode, ho, hg, Bool.false_eq_true, if_false]
  omega

theorem nextMasked_zero (pos : Nat) : nextMasked 0 pos = none := by
  rw [nextMasked, List.find?_eq_none]
  intro k _
  simp

theorem exec_monConversion_system {raw : Nat} {ov : Bool} {s : State} (hf : s.dbg.frozen = false)
    (hp : s.pwr.powered.getLsbD 1 = true) (ht : s.mon.hostTurn = false) : exec (.monConversion raw ov) s =
      .next (monConvert s.mon.sysPos raw ov false
        { s with mon := { s.mon with hostTurn := true, sysPos := (s.mon.sysPos + 1) % 32 } }) := by
  have hg : ¬ (s.dbg.frozen || !s.pwr.powered.getLsbD 1) = true := by rw [hf, hp]; decide
  simp only [exec, execMonConversion, if_neg hg, ht, Bool.not_false, Bool.false_eq_true, if_false]

theorem exec_monConversion_host {raw : Nat} {ov : Bool} {s : State} (hf : s.dbg.frozen = false)
    (hp : s.pwr.powered.getLsbD 1 = true) (ht : s.mon.hostTurn = true) (hl : s.mon.legacy = false) :
    exec (.monConversion raw ov) s = .next ((nextMasked s.mon.mask s.mon.hostPos).elim
      { s with mon := { s.mon with hostTurn := false } }
      fun k => monConvert k raw ov true { s with mon := { s.mon with hostTurn := false, hostPos := k } }) := by
  have hg : ¬ (s.dbg.frozen || !s.pwr.powered.getLsbD 1) = true := by rw [hf, hp]; decide
  have hl' : ¬ s.mon.legacy = true := by rw [hl]; decide
  simp only [exec, execMonConversion, if_neg hg, hostNext, if_neg hl', ht, Bool.not_true]
  cases nextMasked s.mon.mask s.mon.hostPos <;> rfl

theorem monConvert_mon (ch raw : Nat) (ov host : Bool) (s : State) : ∃ r, (monConvert ch raw ov host s).mon.latest = s.mon.latest.set ch r ∧
    (monConvert ch raw ov host s).mon.fifo = (if host && !decide (1024 ≤ s.mon.fifo.length) then s.mon.fifo ++ [r] else s.mon.fifo) ∧
    (monConvert ch raw ov host s).mon.overflow = (s.mon.overflow || (host && decide (1024 ≤ s.mon.fifo.length))) :=
  ⟨_, rfl, rfl, rfl⟩

theorem intervalNote_health (day a : Bool) (n : Nat) (sf : Sf) (s : State) : (intervalNote day a n sf s).health = s.health := by simp [intervalNote]

/-- Gathering writes the tallies and the superframe they were gathered at. -/
theorem gatherTallies_health (s : State) : (gatherTallies s).health = { s.health with
    tallies := (gatherTallies s).health.tallies, gathered := (gatherTallies s).health.gathered } := by
  rw [gatherTallies]
  split <;> rfl

theorem exec_intervalBoundary_quarter (s : State) : exec (.intervalBoundary false) s =
    .next (if intervalOver 900 s.health.start15 s then closeQuarter s.time.lts.sf (gatherTallies s) else s) := rfl

theorem exec_intervalBoundary_day (s : State) : exec (.intervalBoundary true) s =
    .next (if intervalOver 86400 s.health.start24 s then closeDay s.time.lts.sf (gatherTallies s) else s) := rfl

theorem exec_blazeSample {bs : List Byte} {s : State} (ht : ticking s = true) (hp : s.health.blazePeriod ≠ 0)
    (hs : s.pwr.shed < 3) (hr : inRun s = true) (hk : s.health.blazeKinds.testBit 0 = true) :
    exec (.blazeSample (some (bs, false)) none) s = .next (if s.fec.st = 2 ∧ s.health.blazeCw ≠ blazePeriodNow s then
      blazePut bs { s with health := { s.health with blazeCw := blazePeriodNow s } } else s) := by
  simp only [exec, execBlazeSample, ht, hp, hs, hr, blazeCodeword, hk, ne_eq, not_false_eq_true, decide_true, Bool.and_self,
    if_true, true_and, Bool.false_eq_true, if_false]

theorem exec_ageAccrue {temp : Int} {s : State} (hr : ageRuns s = true) : exec (.ageAccrue temp) s =
    .next (if s.health.agePaused then { s with
      health := { s.health with
        age := s.health.age + ageOver (ageTicks s) (if s.health.ageScan then temp else s.aon.ageTemp),
        agePaused := false, ageScan := false },
      aon := { s.aon with ageTimer := extTimer s } }
    else { s with
      health := { s.health with age := s.health.age + ageTicks s / 32768 * Config.ageFactor temp },
      aon := { s.aon with ageTimer := (s.aon.ageTimer + ageTicks s / 32768 * 32768) % 2 ^ 48 } }) := by
  have hx : exec (.ageAccrue temp) s = execAgeAccrue temp s := rfl
  rw [hx, execAgeAccrue, if_pos hr]

theorem exec_coreSlackEmergency {x : Int} {s : State} (hr : ageRuns s = true) (hb : atBoundary s = true)
    (hs : s.health.slackNow = some x) (hx : x < 20) (hc : s.health.coreOffset < 12) : ∃ u,
    exec .coreSlackEmergency s = .next u ∧ u.health = { (coreStep (s.health.coreOffset + 1) s).health with
      slackNow := none, emergency := true } := by
  simp only [exec, execCoreSlackEmergency, hs, hr, hb, hx, hc, decide_true, Bool.and_self, if_true]
  exact ⟨_, rfl, by simp⟩

/-! ### The day of the ageing monitor -/

theorem ageWarn_health (metric days : Nat) (s : State) : (ageWarn metric days s).health = s.health := by
  rw [ageWarn]
  split <;> simp

theorem warnStep_health (s : State) (k : Nat) : (warnStep s k).health = { s.health with warned := (warnStep s k).health.warned } := by
  simp only [warnStep]
  cases daysAhead k s with
  | none => rfl
  | some d =>
    cases s.health.warned.getD k none with
    | none | some w =>
      dsimp only
      split
      · rw [ageWarn_health]
      · rfl

theorem warnSteps_health (l : List Nat) (s : State) :
    (l.foldl warnStep s).health = { s.health with warned := (l.foldl warnStep s).health.warned } := by
  induction l generalizing s with
  | nil => rfl
  | cons k l ih => rw [List.foldl_cons, ih, warnStep_health]

/-- R394: what the day leaves of the monitor, besides its warnings. -/
theorem exec_ageingDaily {s : State} (hr : ageRuns s = true) (ht : ticking s = true) (hd : s.health.dayDue = true) : ∃ u,
    exec .ageingDaily s = .next u ∧ u.health = { (guardband (agePoints s)).health with
      slack := none, emergency := false, dayDue := false, warned := u.health.warned, warned36 := u.health.warned36 } := by
  simp only [exec, execAgeingDaily, hr, ht, hd, Bool.and_self, if_true]
  refine ⟨_, rfl, ?_⟩
  split
  · rw [ageWarn_health, warnSteps_health]
  · rw [warnSteps_health]

theorem agePoints_health (s : State) : (agePoints s).health = { s.health with
    points := (agePoints s).health.points, dayAf := (agePoints s).health.dayAf } := rfl

theorem agePoints_length {s : State} (h : 16 ≤ s.flash.spare) :
    (agePoints s).health.points.length = s.health.points.length + 1 := by
  simp only [agePoints, if_neg (Nat.not_lt.mpr h), List.length_cons]

theorem guardband_kept (s : State) : (guardband s).health = { s.health with
    coreOffset := (guardband s).health.coreOffset, coreMv := (guardband s).health.coreMv,
    coreAt := (guardband s).health.coreAt, clockMhz := (guardband s).health.clockMhz } := by
  rw [guardband]
  split
  · rfl
  · split
    · split <;> rfl
    · split <;> rfl

/-- R395: what the day's least slack makes of the core's offset and of the clock. -/
theorem guardband_step {s : State} {x : Int} (hs : s.health.slack = some x) :
    (80 ≤ x → x ≤ 160 → (guardband s).health.coreOffset = s.health.coreOffset ∧ (guardband s).health.clockMhz = s.health.clockMhz) ∧
    (x < 80 → s.health.coreOffset < 12 → (guardband s).health.coreOffset = s.health.coreOffset + 1) ∧
    (x < 80 → 12 ≤ s.health.coreOffset → (guardband s).health.coreOffset = s.health.coreOffset ∧
      (guardband s).health.clockMhz = max 800 (s.health.clockMhz - 50)) ∧
    (160 < x → (guardband s).health.coreOffset = s.health.coreOffset - 1) := by
  have h80 : ∀ h : ¬ x < 80, guardband s = if 160 < x ∧ 0 < s.health.coreOffset then coreStep (s.health.coreOffset - 1) s else s := by
    intro h
    simp only [guardband, hs, if_neg h]
  refine ⟨fun h1 h2 => ?_, fun h1 h2 => ?_, fun h1 h2 => ?_, fun h1 => ?_⟩
  · rw [h80 (by omega), if_neg (by omega)]
    exact ⟨rfl, rfl⟩
  · simp only [guardband, hs, if_pos h1, if_pos h2]
    rfl
  · have hg : guardband s = { s with health := { s.health with clockMhz := max 800 (s.health.clockMhz - 50) } } := by
      simp only [guardband, hs, if_pos h1, if_neg (Nat.not_lt.mpr h2)]
    rw [hg]
    exact ⟨rfl, rfl⟩
  · rw [h80 (by omega)]
    split
    · rfl
    · omega

theorem guardband_none {s : State} (hs : s.health.slack = none) : guardband s = s := by
  simp only [guardband, hs]

/-- Settles O48: clause by clause, from what each of the health events leaves. -/
theorem healthEvents : Obligations.HealthEvents := by
  refine ⟨fun raw ov s hf hp => ⟨exec_monConversion_system hf hp, fun ht hl k hk => ?_, fun ht hl hm => ?_⟩,
    fun ch raw ov host s => ?_, fun c raw => ⟨monCode_over c raw, monCode_le c raw, monCode_neutral⟩,
    fun s => ⟨fun ho => ?_, fun ho => ?_, fun ho => ?_, fun ho => ?_⟩,
    fun bs s ht hp hs hr hk => ⟨fun hf hc => ?_, rfl, fun hn => ?_⟩,
    fun temp s hr => ⟨fun hp => ?_, fun hp => ?_⟩, fun x s hr hb hs => ⟨fun hx hc => ?_, fun hx => ?_⟩, fun s hs => ?_,
    fun s hd => ?_, fun s hr ht hd => ?_⟩
  · rw [exec_monConversion_host hf hp ht hl, hk, Option.elim_some]
  · rw [exec_monConversion_host hf hp ht hl, hm, nextMasked_zero, Option.elim_none]
  · obtain ⟨r, h1, h2, h3⟩ := monConvert_mon ch raw ov host s
    refine ⟨r, h1, fun hh hl => ?_, fun hh hl => ⟨?_, ?_⟩, fun hh => ?_⟩
    · rw [h2, hh, decide_eq_false (Nat.not_le.mpr hl)]
      rfl
    · rw [h2, hh, decide_eq_true hl]
      rfl
    · rw [h3, hh, decide_eq_true hl]
      exact Bool.or_true _
    · rw [h2, hh]
      rfl
  · rw [exec_intervalBoundary_quarter, if_pos ho]
    refine ⟨_, rfl, ?_⟩
    rw [closeQuarter, intervalNote_health, gatherTallies_health]
    exact ⟨rfl, rfl, rfl⟩
  · rw [exec_intervalBoundary_quarter, ho]
    rfl
  · rw [exec_intervalBoundary_day, if_pos ho]
    refine ⟨_, rfl, ?_⟩
    rw [closeDay, intervalNote_health, gatherTallies_health]
    exact ⟨rfl, rfl, rfl, rfl, rfl⟩
  · rw [exec_intervalBoundary_day, ho]
    rfl
  · rw [exec_blazeSample ht hp hs hr hk, if_pos ⟨hf, hc⟩]
  · rw [exec_blazeSample ht hp hs hr hk, if_neg (fun h => hn.elim (fun hf => hf h.1) (fun hc => h.2 hc))]
  · rw [exec_ageAccrue hr, hp]
    rfl
  · rw [exec_ageAccrue hr, hp]
    rfl
  · obtain ⟨u, hu, he⟩ := exec_coreSlackEmergency hr hb hs hx hc
    refine ⟨u, hu, ?_⟩
    rw [he]
    exact ⟨rfl, rfl, rfl⟩
  · simp only [exec, execCoreSlackEmergency, hs, show ¬ x < 20 by omega, decide_false, Bool.and_false, Bool.false_and,
      Bool.false_eq_true, if_false]
  · simp only [exec, execCoreSlackEmergency, hs]
  · simp only [exec, execAgeingDaily, hd, Bool.and_false, Bool.false_eq_true, if_false]
  · obtain ⟨u, hu, he⟩ := exec_ageingDaily hr ht hd
    have hp := agePoints_health s
    have hs0 : (agePoints s).health.slack = s.health.slack := by rw [hp]
    have hc0 : (agePoints s).health.coreOffset = s.health.coreOffset := by rw [hp]
    have hm0 : (agePoints s).health.clockMhz = s.health.clockMhz := by rw [hp]
    have hpt : u.health.points = (agePoints s).health.points := by rw [he, guardband_kept]
    have hco : u.health.coreOffset = (guardband (agePoints s)).health.coreOffset := by rw [he]
    have hcm : u.health.clockMhz = (guardband (agePoints s)).health.clockMhz := by rw [he]
    refine ⟨u, hu, fun hf => by rw [hpt, agePoints_length hf], by rw [he], by rw [he], by rw [he], fun hn => ?_, fun x hx => ?_⟩
    · rw [hco, hcm, guardband_none (hs0.trans hn), hc0, hm0]
      exact ⟨rfl, rfl⟩
    · rw [hco, hcm, ← hc0, ← hm0]
      exact guardband_step (hs0.trans hx)

end Sys2Proof.Machine
end

section
/-! PROOFS (health's commands). -/
namespace Sys2Proof.Machine

open Sys2Proof

theorem exec_calStatus {h : Hdr} {dom : Byte} {item : Half} {s : State} (ha : admitted 0x0C01 s = .accept)
    (hi : item.toNat < domItems dom.toNat) : ∃ fs, exec (.calStatus h dom item) s = .next (reply 0x0C01 h fs s) ∧
      fld 20 4 (itemOf dom.toNat item.toNat s).count.toNat ∈ fs ∧ fld 24 6 (itemOf dom.toNat item.toNat s).last.toNat ∈ fs ∧
      fld 30 1 (s.cal.stale.getD dom.toNat 0) ∈ fs := by
  simp only [exec, execCalStatus, command_accept ha]
  rw [guarded_pass (by simp only [firstFail_cons, firstFail_nil, Nat.not_le.mpr hi, decide_false, Bool.false_eq_true, if_false])]
  exact ⟨_, rfl, by simp⟩

theorem exec_calConfig {h : Hdr} {dom flags stale : Byte} {s : State} (ha : admitted 0x0C02 s = .accept) (hd : dom.toNat ≤ 5)
    (hf : flags &&& 0xFE = 0) (hs : stale ≠ 0) : exec (.calConfig h dom flags stale) s =
      .next (done 0x0C02 h { s with cal := { s.cal with
        stale := s.cal.stale.set dom.toNat stale.toNat, notify := s.cal.notify.set dom.toNat (flags.getLsbD 0) } }) := by
  simp only [exec, execCalConfig, command_accept ha, if_neg hs]
  rw [guarded_pass (by simp only [firstFail_cons, firstFail_nil, reservedClear_one hf, show ¬ 5 < dom.toNat by omega, decide_false,
    Bool.not_true, Bool.or_self, Bool.false_eq_true, if_false])]
  rfl

theorem exec_calRun {h : Hdr} {slice_ : Half} {x : Slice} {s : State} (ha : admitted 0x0C03 s = .accept)
    (hn : slice_.toNat < 272) (hc : s.aon.coppice < 2)
    (hx : (chanOf .adc (BitVec.ofNat 2 (slice_.toNat / 68)) s).slices[slice_.toNat % 68]? = some x) (hr : x.st ≠ .retired)
    (hs : sparesOf (chanOf .adc (BitVec.ofNat 2 (slice_.toNat / 68)) s) ≠ 0) : exec (.calRun h 0 slice_) s =
      .next (reply 0x0C03 h [fld 16 6 (nextSlotOf .adc (BitVec.ofNat 2 (slice_.toNat / 68)) s)] { s with cal := { s.cal with
        asked := s.cal.asked ++ [(.adc, BitVec.ofNat 2 (slice_.toNat / 68), slice_.toNat % 68)] } }) := by
  have hz : (0 : Byte).toNat = 0 := rfl
  simp only [exec, execCalRun, command_accept ha, if_true, convSlices]
  rw [guarded_pass]
  simp only [firstFail_cons, firstFail_nil, hx, hr, hs, hz, show ¬ 2 ≤ s.aon.coppice by omega,
    show ¬ 4 * 68 ≤ slice_.toNat by omega, Nat.not_lt_zero, decide_false, Bool.or_self, Bool.false_eq_true, if_false]

theorem exec_monConfig {h : Hdr} {mode : Byte} {mask : Word} {s : State} (ha : admitted 0x0C10 s = .accept)
    (hm : mode.toNat ≤ 1) : exec (.monConfig h mode mask) s = .next (done 0x0C10 h { s with mon := { s.mon with
      legacy := decide (mode = 1), mask := mask, hostPos := 31, tablePos := 0, tableRep := 0, tableWait := 0 } }) := by
  simp only [exec, execMonConfig, command_accept ha]
  rw [guarded_pass (by simp only [firstFail_cons, firstFail_nil, show ¬ 1 < mode.toNat by omega, decide_false, Bool.false_eq_true,
    if_false])]

theorem exec_monChannel {h : Hdr} {ch ref : Byte} {offset gain : Half} {s : State} (ha : admitted 0x0C11 s = .accept)
    (hc : ch.toNat ≤ 31) (hr : ref.toNat ≤ 2) : exec (.monChannel h ch ref 0 0 offset gain) s =
      .next (done 0x0C11 h { s with mon := { s.mon with chans := modAt s.mon.chans ch.toNat fun c =>
        { c with ref := ref.toNat, range := 0, override := false, settle := if 0 = c.range then c.settle else 2 } } }) := by
  have h0 : bitOf 0 0 = false := rfl
  have hz : (0 : Byte).toNat = 0 := rfl
  simp only [exec, execMonChannel, command_accept ha, h0, hz]
  rw [guarded_pass (by simp only [firstFail_cons, firstFail_nil, reservedClear_one (show (0 : Byte) &&& 0xFE = 0 from rfl),
    show ¬ 31 < ch.toNat by omega, show ¬ 2 < ref.toNat by omega, ne_eq, not_true_eq_false, Nat.not_lt_zero, decide_false,
    Bool.false_and, Bool.not_true, Bool.or_self, Bool.false_eq_true, if_false])]
  rfl

theorem exec_monTable {h : Hdr} {entries : Byte} {s : State} (ha : admitted 0x0C12 s = .accept) (h1 : 1 ≤ entries.toNat)
    (h2 : entries.toNat ≤ 16) (hb : h.buf = true) (hl : h.length.toNat = 4 * entries.toNat)
    (he : ∀ e ∈ monEntries entries.toNat (bufData h s), e.1 ≤ 31) : exec (.monTable h entries) s =
      .next (done 0x0C12 h { s with mon := { s.mon with
        table := monEntries entries.toNat (bufData h s), tablePos := 0, tableRep := 0, tableWait := 0 } }) := by
  have he' : ((monEntries entries.toNat (bufData h s)).any fun e => decide (31 < e.1)) = false := by
    rw [List.any_eq_false]
    intro e hm
    simpa using he e hm
  simp only [exec, execMonTable, command_accept ha]
  rw [guarded_pass (by simp only [firstFail_cons, firstFail_nil, he', hb, hl, show ¬ entries.toNat < 1 by omega,
    show ¬ 16 < entries.toNat by omega, ne_eq, not_true_eq_false, decide_false, Bool.not_true, Bool.or_self, Bool.false_eq_true,
    if_false])]

theorem exec_monRead {h : Hdr} {src count : Byte} {s : State} (ha : admitted 0x0C13 s = .accept) (hb : h.buf = true)
    (hs : src.toNat ≤ 1) : exec (.monRead h src count) s = .next (if src = 0 then
        respond 0x0C13 h .ok (result [fld 16 1 32, fld 17 1 s.mon.overflow.toNat]) (some (s.mon.latest.flatMap id)) s
      else respond 0x0C13 h .ok (result [fld 16 1 (s.mon.fifo.take (if count = 0 then 256 else count.toNat)).length,
          fld 17 1 s.mon.overflow.toNat]) (some ((s.mon.fifo.take (if count = 0 then 256 else count.toNat)).flatMap id))
        { s with mon := { s.mon with
          fifo := s.mon.fifo.drop (if count = 0 then 256 else count.toNat), overflow := false } }) := by
  simp only [exec, execMonRead, command_accept ha]
  rw [guarded_pass (by simp only [firstFail_cons, firstFail_nil, hb, show ¬ 1 < src.toNat by omega, decide_false, Bool.not_true,
    Bool.or_self, Bool.false_eq_true, if_false])]

theorem slackReport_some {s : State} {x : Int} (hx : s.health.slack = some x) : slackReport s = x / 2 := by
  simp only [slackReport, hx]

theorem exec_ageReport {h : Hdr} {metric : Byte} {s : State} (ha : admitted 0x0C20 s = .accept)
    (hm : metric.toNat ≤ 7 ∨ metric = 0xFF) : ∃ fs,
    exec (.ageReport h metric) s = .next (reply 0x0C20 h fs (if s.health.slack.isNone then nextDraw s else s)) ∧
    fld 16 4 (ageSeconds s / 86400) ∈ fs ∧ fld 20 4 ((ratedSeconds - ageSeconds s) / 86400) ∈ fs ∧
    fld 33 1 s.health.coreOffset ∈ fs ∧ fld 34 2 s.health.clockMhz ∈ fs ∧ fldI 36 2 (slackReport s) ∈ fs := by
  have hg : (decide (7 < metric.toNat) && decide (metric ≠ 0xFF)) = false := by
    rcases hm with hm | rfl
    · rw [decide_eq_false (by omega), Bool.false_and]
    · rfl
  simp only [exec, execAgeReport, command_accept ha]
  rw [guarded_pass (by simp only [firstFail_cons, firstFail_nil, hg, Bool.false_eq_true, if_false])]
  exact ⟨_, rfl, by simp⟩

theorem exec_ageConfig {h : Hdr} {margin : Half} {flags : Byte} {s : State} (ha : admitted 0x0C21 s = .accept)
    (hm : margin.toNat ≤ 500) (hf : flags &&& 0xFE = 0) : exec (.ageConfig h margin flags) s =
      .next (done 0x0C21 h { s with health := { s.health with
        eolMargin := margin.toNat, ageNotify := flags.getLsbD 0 } }) := by
  simp only [exec, execAgeConfig, command_accept ha]
  rw [guarded_pass (by simp only [firstFail_cons, firstFail_nil, reservedClear_one hf, show ¬ 500 < margin.toNat by omega,
    decide_false, Bool.not_true, Bool.or_self, Bool.false_eq_true, if_false])]
  rfl

theorem exec_tallyRead_cum {h : Hdr} {id : Half} {t : Tally} {s : State} (ha : admitted 0x0C30 s = .accept)
    (ht : tallyOf id.toNat s = some t) (hk : tallyKind t.id = .count) : exec (.tallyRead h id 0xFF) s =
      .next (reply 0x0C30 h [fld 16 8 t.cum, fld 32 1 t.cumInvalid.toNat] s) := by
  simp only [exec, execTallyRead, command_accept ha, ht, hk, if_true]

theorem exec_tallyRead_running {h : Hdr} {id : Half} {t : Tally} {s : State} (ha : admitted 0x0C30 s = .accept)
    (ht : tallyOf id.toNat s = some t) : ∃ fs, exec (.tallyRead h id 0) s = .next (reply 0x0C30 h fs s) ∧
      fld 28 4 t.cur15.samples ∈ fs ∧ fld 34 6 t.cur15.start.toNat ∈ fs ∧
      (if tallyKind t.id = .gauge then fldI 16 8 t.cur15.sum else fld 16 8 t.cur15.value) ∈ fs := by
  have h0 : ¬ (0 : Byte) = 0xFF := by decide
  have hz : (0 : Byte).toNat = 0 := rfl
  have hb : binOf t 0 = some t.cur15 := rfl
  simp only [exec, execTallyRead, command_accept ha, ht, if_neg h0, hz, Nat.zero_le, if_true, hb]
  exact ⟨_, rfl, by simp⟩

theorem exec_tallyClear {h : Hdr} {id : Half} {s : State} (ha : admitted 0x0C31 s = .accept)
    (ht : id = 0xFFFF ∨ (tallyOf id.toNat s).isSome = true) : exec (.tallyClear h id) s = .next (done 0x0C31 h { s with
    health := { s.health with tallies := s.health.tallies.map fun t =>
      if id = 0xFFFF ∨ t.id = id.toNat then { t with cum := 0, cumInvalid := false } else t } }) := by
  have hg : (decide (id ≠ 0xFFFF) && (tallyOf id.toNat s).isNone) = false := by
    rcases ht with rfl | ht
    · rfl
    · rw [Option.isNone_eq_false_iff.mpr ht, Bool.and_false]
  simp only [exec, execTallyClear, command_accept ha]
  rw [guarded_pass (by simp only [firstFail_cons, firstFail_nil, hg, Bool.false_eq_true, if_false])]

theorem exec_tallyClear_none {h : Hdr} {id : Half} {s : State} (ha : admitted 0x0C31 s = .accept) (hi : id ≠ 0xFFFF)
    (ht : tallyOf id.toNat s = none) : exec (.tallyClear h id) s = .next (refuse 0x0C31 h .badArg s) := by
  have hg : (decide (id ≠ 0xFFFF) && (tallyOf id.toNat s).isNone) = true := by
    rw [ht, decide_eq_true hi]
    rfl
  simp only [exec, execTallyClear, command_accept ha]
  rw [guarded_fail (st := .badArg) (by simp only [firstFail_cons, hg, if_true])]

theorem exec_blazeConfig {h : Hdr} {period : Half} {flags : Byte} {s : State} (ha : admitted 0x0C40 s = .accept)
    (hf : flags &&& 0xFC = 0) : exec (.blazeConfig h period flags) s = .next (done 0x0C40 h { s with health := { s.health with
      blazePeriod := period.toNat, blazeKinds := flags.toNat, blazeCw := 0, blazeIns := 0 } }) := by
  have hf' : reservedClear flags 3 = true := (reservedClear_iff flags 3).mpr hf
  simp only [exec, execBlazeConfig, command_accept ha]
  rw [guarded_pass (by simp only [firstFail_cons, firstFail_nil, hf', Bool.not_true, Bool.false_eq_true, if_false])]

/-- The checks of BLAZE.READ, up to the place of the first record. -/
theorem exec_blazeRead {h : Hdr} {first : Word} {count : Byte} {s : State} (ha : admitted 0x0C41 s = .accept)
    (hb : h.buf = true) (h1 : 1 ≤ count.toNat) (h2 : count.toNat ≤ 64) (hf : first.toNat < s.health.blazeNext) : ∃ out,
    exec (.blazeRead h first count) s = .next (if s.health.blazeDamaged then
        refuse 0x0C41 h .integrity { s with health := { s.health with blazeDamaged := false } }
      else respond 0x0C41 h .ok (result [fld 16 4 (max first.toNat (s.health.blazeNext - 4096)),
          fld 20 1 (min count.toNat (s.health.blazeNext - max first.toNat (s.health.blazeNext - 4096))),
          fld 21 1 (decide (first.toNat < s.health.blazeNext - 4096)).toNat]) (some out) s) := by
  simp only [exec, execBlazeRead, command_accept ha]
  rw [guarded_pass (by simp only [firstFail_cons, firstFail_nil, hb, show ¬ count.toNat < 1 by omega,
    show ¬ 64 < count.toNat by omega, Nat.not_le.mpr hf, decide_false, Bool.not_true, Bool.or_self, Bool.false_eq_true, if_false])]
  exact ⟨_, rfl⟩

theorem exec_blazeRead_beyond {h : Hdr} {first : Word} {count : Byte} {s : State} (ha : admitted 0x0C41 s = .accept)
    (hf : s.health.blazeNext ≤ first.toNat) : exec (.blazeRead h first count) s = .next (refuse 0x0C41 h .badArg s) := by
  simp only [exec, execBlazeRead, command_accept ha]
  rw [guarded_fail (st := .badArg) (by simp only [firstFail_cons, hf, decide_true, if_true, ite_self])]

/-- Settles O49: each command from its checks and what it leaves. -/
theorem healthCommands : Obligations.HealthCommands := by
  refine ⟨fun h dom item s ha hi => exec_calStatus ha hi, fun h dom flags stale s ha hd hf hs => exec_calConfig ha hd hf hs,
    fun h slice_ x s ha hn hc hx hr hs => exec_calRun ha hn hc hx hr hs, fun h mode mask s ha hm => exec_monConfig ha hm,
    fun h ch ref offset gain s ha hc hr => exec_monChannel ha hc hr,
    fun h entries s ha h1 h2 hb hl he => exec_monTable ha h1 h2 hb hl he, fun h count s ha hb => ⟨?_, fun hc => ?_⟩,
    fun h metric s ha hm => ?_, fun h margin flags s ha hm hf => exec_ageConfig ha hm hf,
    fun h id t s ha ht => ⟨exec_tallyRead_cum ha ht, ?_⟩, fun h s ha => ?_,
    fun h id s ha hi => ⟨fun ht => ?_, exec_tallyClear_none ha hi⟩, fun h period flags s ha hf => exec_blazeConfig ha hf,
    fun h first count s ha hb h1 h2 => ⟨fun hf hd => ?_, fun hf hd => ?_, exec_blazeRead_beyond ha⟩⟩
  · rw [exec_monRead ha hb (by decide), if_pos rfl]
  · rw [exec_monRead ha hb (by decide), if_neg (by decide), if_neg hc]
  · obtain ⟨fs, hex, h1, h2, h3, h4, h5⟩ := exec_ageReport (h := h) ha hm
    exact ⟨fs, hex, h1, h2, h3, h4, fun x hx => slackReport_some hx ▸ h5⟩
  · obtain ⟨fs, hex, h1, h2, h3⟩ := exec_tallyRead_running (h := h) ha ht
    exact ⟨fs, hex, h1, h2, fun hk => by rwa [if_neg hk] at h3, fun hk => by rwa [if_pos hk] at h3⟩
  · rw [exec_tallyClear ha (.inl rfl)]
    simp only [true_or, if_true]
  · rw [exec_tallyClear ha (.inr ht)]
    simp only [hi, false_or]
  · obtain ⟨out, hex⟩ := exec_blazeRead ha hb h1 h2 hf
    rw [hd] at hex
    exact ⟨out, _, _, hex, rfl, rfl⟩
  · obtain ⟨out, hex⟩ := exec_blazeRead ha hb h1 h2 hf
    rw [hex, hd]
    rfl

end Sys2Proof.Machine
end

section
/-! PROOFS (line modes). What a change of mode leaves of the line, and the commands of chapter 4. -/
namespace Sys2Proof.Machine

open Sys2Proof

/-! ### The line's state through a change -/

theorem reached_line (old : Nat) (st : PState) (s : State) : (reached old st s).line = s.line := by
  simp [reached, stateEvent]

theorem capNote_line (slot state cause : Nat) (t : Lts) (s : State) : (capNote slot state cause t s).line = s.line := by
  simp [capNote]

theorem capModeChange_line (s : State) : (capModeChange s).line = s.line := by
  simp only [capModeChange, capAbort]
  split
  · split
    · rfl
    · split
      · rfl
      · rw [capNote_line]
        rfl
  · rfl

theorem txStream_line (s : State) : (txStream s).line = s.line := by
  unfold txStream
  split
  · rfl
  · split <;> rfl

theorem txDark_line (reason : Nat) (s : State) : (txDark reason s).line = s.line := by
  unfold txDark
  split <;> simp

theorem txBlank_line (reason : Nat) (quiet : Bool) (s : State) : (txBlank reason quiet s).line = s.line := by
  unfold txBlank
  split <;> simp

theorem txNull_line (reason : Nat) (s : State) : (txNull reason s).line = s.line := by
  unfold txNull
  split <;> simp

theorem stopRx_line (cause : Nat) (s : State) : (stopRx cause s).line = { s.line with rxChain := false } := by
  by_cases hc : s.line.rxChain = true
  · exact (stopRx_kept hc cause).1
  · have hf : s.line.rxChain = false := by simpa using hc
    rw [stopRx, if_neg hc, ← hf]

theorem stopTx_line (s : State) : (stopTx s).line = { s.line with txChain := false } := rfl

theorem changeStop_line (ch : Change) (s : State) :
    (changeStop ch s).line = { s.line with rxChain := false, txChain := false } := by
  have h : (stopTx (stopRx 3 s)).line = { s.line with rxChain := false, txChain := false } := by rw [stopTx_line, stopRx_line]
  simp only [changeStop]
  split
  · rw [txDark_line, h]
  · split
    · rw [txBlank_line, h]
    · rw [txNull_line, h]

theorem changeSame_line (ch : Change) (s : State) : (changeSame ch s).line = s.line := by simp [changeSame, framesFrom, replaceAll]

/-- The line once the change has stopped what it stops. -/
def begunLine (ch : Change) (l : Line) : Line :=
  { l with lastC := ch.c, change := some { ch with phase := 1 }, cur := ch.new,
           recorded := if ch.watch then l.cur else none,
           rxChain := ch.sameB && l.rxChain, txChain := ch.sameB && l.txChain }

theorem changeBegin_line (ch : Change) (s : State) : (changeBegin ch s).line = begunLine ch s.line := by
  have h0 : (if (inWatch s && !ch.watch) = true then reached 5 .run s else s).line = s.line := by
    split
    · rw [reached_line]
    · rfl
  have h1 : ∀ t : State, (if ch.sameB = true then changeSame ch t else changeStop ch t).line =
      { t.line with rxChain := ch.sameB && t.line.rxChain, txChain := ch.sameB && t.line.txChain } := by
    intro t
    cases hb : ch.sameB
    · rw [if_neg (by decide), changeStop_line]
      rfl
    · rw [if_pos rfl, changeSame_line]
      rfl
  simp only [changeBegin, begunLine]
  split <;> simp only [setPhase_frame, txStream_line, h1, incomplete, histPartial, capModeChange_line, h0]

theorem modeReply_line (h : Hdr) (ch : Change) (s : State) : (modeReply h ch s).line = s.line := by simp [modeReply]

theorem changeAnswer_change (ch : Change) (s : State) : (changeAnswer ch s).line.change = none := by
  simp only [changeAnswer]
  split
  · simp only [answerLate, modeReply_line]
  · rfl

/-! ### The restart -/

theorem txStream_kept (s : State) : (txStream s).time = s.time ∧ (txStream s).fec.st = s.fec.st ∧ (txStream s).fec.l = s.fec.l := by
  unfold txStream
  split
  · exact ⟨rfl, rfl, rfl⟩
  · split <;> exact ⟨rfl, rfl, rfl⟩

theorem txAdvance_time_line (reason : Nat) (s : State) : (txAdvance reason s).time = s.time ∧ (txAdvance reason s).line = s.line := by
  unfold txAdvance
  split
  · split <;> simp
  · split <;> simp
  · exact ⟨rfl, rfl⟩

theorem coefEvent_time (set : Nat) (was now : Bool) (stages : Nat) (s : State) : (coefEvent set was now stages s).time = s.time := by
  unfold coefEvent
  split <;> simp

theorem startRx_time (rate cause : Nat) (s : State) : (startRx rate cause s).time = s.time := by
  simp [startRx, refreshRaws, refreshRawsAt, exclude, coefEvent_time]

theorem rateTo_rate (rate : Nat) (s : State) : (rateTo rate s).time.rate = rate := by
  unfold rateTo
  split
  · assumption
  · rfl

theorem changeLoad_same {ch : Change} {s : State} (hb : ch.sameB = true) :
    (changeLoad ch s).fec.st = 1 ∧ (changeLoad ch s).fec.l = s.fec.lSet := by
  simp only [changeLoad, if_pos hb]
  exact ⟨(txStream_kept _).2.1, (txStream_kept _).2.2⟩

theorem changeLoad_new {ch : Change} {m : LMode} {s : State} (hm : ch.new = some m) (hb : ch.sameB = false) :
    (changeLoad ch s).time.rate = m.rate ∧ (changeLoad ch s).line.rxChain = true ∧ (changeLoad ch s).line.txChain = true := by
  have hb' : ¬ ch.sameB = true := by rw [hb]; decide
  simp only [changeLoad, if_neg hb', hm, txAdvance_time_line, txStream_kept, txStream_line, startTx, framesFrom, startRx_time,
    rateTo_rate, startRx_kept]
  exact ⟨trivial, trivial, trivial⟩

/-! ### The events -/

theorem exec_modeChangeStart {ch : Change} {s : State} (hc : s.line.change = some ch) (ht : ticking s = true) (hp : ch.phase = 0) :
    exec .modeChangeStart s = .next (if ch.c.toNat ≤ s.time.lts.sf.toNat then
      changeLanes (zrNow s) (bundleApply ch.bundle (changeBegin ch (finishRestarts s))) else s) := by
  simp only [exec, execModeChangeStart, hc, ht, hp, decide_true, Bool.and_self, Bool.true_and, decide_eq_true_eq]

theorem exec_modeChangeLoad {ch : Change} {s : State} (hc : s.line.change = some ch) (ht : ticking s = true) (hp : ch.phase = 1) :
    exec .modeChangeLoad s =
      .next (finishRestarts (if ch.c.toNat + 1 ≤ s.time.lts.sf.toNat then changeLoad ch s else s)) := by
  simp only [exec, execModeChangeLoad, hc, ht, hp, true_and, if_true]

theorem exec_modeChangeComplete {ch : Change} {s : State} (hc : s.line.change = some ch) (ht : ticking s = true)
    (hp : ch.phase = 2) : exec .modeChangeComplete s =
      .next (if ch.c.toNat + (if ch.sameB then 2 else 1) ≤ s.time.lts.sf.toNat then
        serveHeld (changeAnswer ch { s with eq := { s.eq with base := ch.new.elim s.eq.base fun m => m.base } }) else s) := by
  simp only [exec, execModeChangeComplete, hc, ht, hp, decide_true, Bool.and_self, Bool.true_and, decide_eq_true_eq]
  cases ch.new <;> rfl

/-! ### The commands -/

theorem setArgs_none {code : Byte} {p : FlexReq} (hm : modeOf code p = none) (h : Hdr) (flags : Byte) :
    setArgs h code flags p = true := by
  simp only [setArgs, hm, Option.isNone_none, Bool.true_or]

theorem setArgs_plain {h : Hdr} {code : Byte} {p : FlexReq} {new : Option LMode} (hm : modeOf code p = some new)
    (hb : h.buf = false) : setArgs h code 0 p = false := by
  have h0 : bitOf 0 0 = false := rfl
  simp only [setArgs, hm, hb, h0, reservedClear_one (show (0 : Byte) &&& 0xFE = 0 from rfl), Option.isNone_some, ne_eq,
    not_true_eq_false, decide_false, Bool.not_true, Bool.or_self, Bool.false_and]

theorem wakeBlocked_of_setBlocked {s : State} (h : setBlocked s = false) : wakeBlocked s = false := by
  unfold wakeBlocked
  split
  · next hp =>
    simp [setBlocked, inTransition, steadyState, hp] at h
  · exact h

/-- A mode without bundled commands is judged in the state that its boundary would leave. -/
theorem bundleVerdict_plain {h : Hdr} (hl : h.length = 0) (ch : Change) (s : State) :
    bundleVerdict h ch s = .ok ([], changeBegin ch s) := by
  rw [bundleVerdict, hl]
  rfl

theorem exec_lineModeSet_args {h : Hdr} {code : Byte} {p : FlexReq} {s : State} (ha : admitted 0x0301 s = .accept)
    (hm : modeOf code p = none) : exec (.lineModeSet h code 0 p) s = .next (refuse 0x0301 h .badArg s) := by
  simp only [exec, execLineModeSet, command_accept ha]
  rw [guarded_fail (st := .badArg) (by simp only [firstFail_cons, setArgs_none hm, if_true])]

theorem exec_lineModeSet_busy {h : Hdr} {code : Byte} {p : FlexReq} {new : Option LMode} {s : State}
    (ha : admitted 0x0301 s = .accept) (hm : modeOf code p = some new) (hb : h.buf = false) (hs : setBlocked s = true)
    (hd : h.sched = false) : exec (.lineModeSet h code 0 p) s = .next (refuse 0x0301 h .busy s) := by
  simp only [exec, execLineModeSet, command_accept ha]
  rw [guarded_fail (st := .busy) (by simp only [firstFail_cons, setArgs_plain hm hb, hs, hd, Bool.not_false, Bool.and_self,
    Bool.false_eq_true, if_false, if_true])]

theorem exec_lineModeSet {h : Hdr} {code : Byte} {p : FlexReq} {new : Option LMode} {s : State}
    (ha : admitted 0x0301 s = .accept) (hm : modeOf code p = some new) (hb : h.buf = false) (hl : h.length = 0)
    (hs : setBlocked s = false) (hc : s.aon.coppice < 4) (hf : s.pwr.failed = 0) (hw : code = 8 → inWatch s = false) :
    exec (.lineModeSet h code 0 p) s = .next (
      if modeRefused (zrNow s) new (changeBegin (setChange h code p s) s) then refuse 0x0301 h .refused s
      else { s with line := { s.line with change := some (setChange h code p s) } }) := by
  have hnew : (setChange h code p s).new = new := by simp only [setChange, hm, Option.getD_some]
  have hdef : ¬ (if s.q.acting = some true ∧ code ≠ 0x08 then wakeBlocked s else setBlocked s) = true := by
    rw [hs, wakeBlocked_of_setBlocked hs, ite_self]
    decide
  have hcop : ¬ (decide (4 ≤ s.aon.coppice) ||
      ((modeOf code p).getD none).isSome && (s.pwr.failed.getLsbD 2 || s.pwr.failed.getLsbD 3)) = true := by
    rw [hf, decide_eq_false (by omega)]
    simp
  have hwatch : ¬ ((setChange h code p s).watch && inWatch s) = true := by
    simp only [setChange, Bool.and_eq_true, decide_eq_true_eq]
    rintro ⟨h8, hin⟩
    rw [hw h8] at hin
    exact absurd hin (by decide)
  simp only [exec, execLineModeSet, command_accept ha]
  rw [guarded_pass (by simp only [firstFail_cons, firstFail_nil, setArgs_plain hm hb, hs, Bool.false_and, Bool.false_eq_true,
    if_false]), if_neg hdef, if_neg hcop, bundleVerdict_plain hl]
  dsimp only
  rw [← hnew, if_neg hwatch]
  rfl

theorem setChange_spec {h : Hdr} {code : Byte} {p : FlexReq} {new : Option LMode} {s : State} (hm : modeOf code p = some new) :
    (setChange h code p s).c = boundaryNow s ∧ (setChange h code p s).new = new ∧ (setChange h code p s).phase = 0 ∧
    (setChange h code p s).watch = decide (code = 8) ∧
    (∀ a b, s.line.cur = some a → new = some b → (setChange h code p s).sameB = decide (a.rate = b.rate)) ∧
    ((s.line.cur = none ∨ new = none) → (setChange h code p s).sameB = false) := by
  refine ⟨rfl, by simp only [setChange, hm, Option.getD_some], rfl, rfl, fun a b ha hb => ?_, fun hn => ?_⟩
  · simp only [setChange, hm, ha, hb, Option.getD_some]
  · simp only [setChange, hm, Option.getD_some]
    rcases hn with hn | hn
    · rw [hn]
    · rw [hn]
      cases s.line.cur <;> rfl

theorem exec_lineFlexCheck {h : Hdr} {p : FlexReq} {s : State} (ha : admitted 0x0303 s = .accept) :
    exec (.lineFlexCheck h p) s = .next ((flexMode p).elim (refuse 0x0303 h .badArg s) fun m => reply 0x0303 h
      [fld 16 1 m.slots, fld 17 1 (stagesOf m.rate), fld 20 4 (netMbps m), fld 24 4 (transMbps m), fld 28 4 (spareMbps m),
       fld 32 4 (cdCapacity m.rate), fld 36 4 (nearest (2 ^ 24 * 1000000) m.rate)] s) := by
  simp only [exec, execLineFlexCheck, command_accept ha]
  cases flexMode p <;> rfl

/-- Settles O50: LINE.MODE_SET from its checks, the change from what each of its steps leaves of the line. -/
theorem lineModes : Obligations.LineModes := by
  refine ⟨fun h code p s ha hm => exec_lineModeSet_args ha hm,
    fun h code p new ch s ha hm hb hl => ⟨exec_lineModeSet_busy ha hm hb, fun hs hc hf hw hch => ⟨fun hr => ?_, fun hr => ?_⟩⟩,
    fun h code p new s hm => setChange_spec hm,
    fun ch s hc ht => ⟨fun hp hd => ?_, fun hp hd => ?_, fun hp hd => ?_, fun hp hd => ?_, fun hp hd => ?_, fun hp hd => ?_⟩,
    fun ch s => ?_, fun ch m s hm => ⟨changeLoad_same, changeLoad_new hm⟩, fun h s ha => ?_,
    fun h p s ha => ⟨fun hp => ?_, fun m hp => ?_⟩⟩
  · subst hch
    rw [exec_lineModeSet ha hm hb hl hs hc hf hw, hr]
    rfl
  · subst hch
    rw [exec_lineModeSet ha hm hb hl hs hc hf hw, if_pos hr]
  · rw [exec_modeChangeStart hc ht hp, if_pos hd]
  · rw [exec_modeChangeStart hc ht hp, if_neg (by omega)]
  · rw [exec_modeChangeLoad hc ht hp, if_pos hd]
  · rw [exec_modeChangeComplete hc ht hp, if_pos hd]
    cases ch.new <;> rfl
  · rw [exec_modeChangeLoad hc ht hp, if_neg (by omega)]
  · rw [exec_modeChangeComplete hc ht hp, if_neg (by omega)]
  · rw [changeBegin_line]
    refine ⟨rfl, rfl, rfl, fun hb => ?_, changeAnswer_change ch s⟩
    simp only [begunLine, hb, Bool.false_and, and_self]
  · refine ⟨_, by simp only [exec, execLineModeGet, query_accept ha]; rfl, ?_⟩
    simp
  · rw [exec_lineFlexCheck ha, hp, Option.elim_none]
  · rw [exec_lineFlexCheck ha, hp, Option.elim_some]

end Sys2Proof.Machine
end

section
/-! PROOFS (freeze and the test access). What a move of the host link leaves alone, what freeze keeps, and the shifted bits. -/
namespace Sys2Proof.Machine

open Sys2Proof

/-! ### READY and the recovery state through an answer and a notification -/

@[simp] theorem raiseNew_recovery (old h : Hif) : (raiseNew old h).recovery = h.recovery := by
  simp only [raiseNew, sendMsix, apply_ite Hif.recovery, ite_self]

/-- READY and the recovery state of `u` are those of `s`. -/
def SameReady (u s : State) : Prop := u.hif.ready = s.hif.ready ∧ u.hif.recovery = s.hif.recovery

theorem setCause_ready (c : BitVec 6) (s : State) : SameReady (setCause c s) s := ⟨raiseNew_ready _ _, raiseNew_recovery _ _⟩

theorem logEntry_ready (t : Nat) (c : Half) (e : Option Half) (d : List Byte) (s : State) : SameReady (logEntry t c e d s) s := by
  simp [SameReady]

theorem nqPut_ready (bs : List Byte) (s : State) : SameReady (nqPut bs s) s := ⟨raiseNew_ready _ _, raiseNew_recovery _ _⟩

theorem deliver_ready (n : Note) (l u : Bool) (s : State) : SameReady (deliver n l u s) s := by
  unfold deliver
  dsimp only
  split
  · exact nqPut_ready _ _
  · split
    · exact ⟨rfl, rfl⟩
    · obtain ⟨h1, h2⟩ := logEntry_ready 0 0x0100 none (leBytes 2 n.event.toNat)
        (setCause causeNqOvf { s with hif := { s.hif with nqSeq := s.hif.nqSeq + 1 } })
      obtain ⟨h3, h4⟩ := setCause_ready causeNqOvf { s with hif := { s.hif with nqSeq := s.hif.nqSeq + 1 } }
      exact ⟨h1.trans h3, h2.trans h4⟩

theorem notifyAt_ready (e c : Half) (b : Option Bool) (d : List Byte) (t : Lts) (s : State) : SameReady (notifyAt e c b d t s) s := by
  unfold notifyAt
  dsimp only
  split
  · exact ⟨rfl, rfl⟩
  · split
    · exact deliver_ready _ _ _ _
    · split
      · exact deliver_ready _ _ _ _
      · exact ⟨rfl, rfl⟩

theorem rqPut_ready (tag : Half) (bs : List Byte) (s : State) : SameReady (rqPut tag bs s) s :=
  ⟨raiseNew_ready _ _, raiseNew_recovery _ _⟩

theorem rspWrite_ready (tag : Half) (bs : List Byte) (s : State) : SameReady (rspWrite tag bs s) s := by
  unfold rspWrite
  split
  · exact rqPut_ready _ _ _
  · exact ⟨rfl, rfl⟩

theorem respond_ready (op : Nat) (h : Hdr) (st : St) (res : List Byte) (out : Option (List Byte)) (s : State) :
    SameReady (respond op h st res out s) s := by
  have hp : ∀ o : Option (List Byte), (putOut h o s).hif = s.hif := by
    intro o
    cases o <;> rfl
  simp only [respond]
  split
  · have hr := hp (if h.buf = true then out else none)
    exact ⟨(congrArg Hif.ready hr : _), (congrArg Hif.recovery hr : _)⟩
  · obtain ⟨h1, h2⟩ := rspWrite_ready h.tag (rspBytes op h (lateStatus h st s) (if h.buf = true then out else none) (nowLts s) res)
      (putOut h (if h.buf = true then out else none) s)
    exact ⟨h1.trans (congrArg Hif.ready (hp _)), h2.trans (congrArg Hif.recovery (hp _))⟩

/-! ### The host link alone -/

/-- Of the state, `u` differs from `s` in the host link and in what a notification or an answer writes; of the always-on domain
in the log's number alone. -/
def LinkOnly (u s : State) : Prop :=
  u = { s with hl := u.hl, hif := u.hif, aon := u.aon, win := u.win, q := u.q, flash := u.flash } ∧
    u.aon = { s.aon with logSeq := u.aon.logSeq } ∧ SameReady u s

theorem LinkOnly.trans {u t s : State} (h1 : LinkOnly u t) (h2 : LinkOnly t s) : LinkOnly u s := by
  obtain ⟨e1, a1, r1, q1⟩ := h1
  obtain ⟨e2, a2, r2, q2⟩ := h2
  refine ⟨?_, ?_, r1.trans r2, q1.trans q2⟩
  · rw [e1, e2]
  · rw [a1, a2]

theorem LinkOnly.kept {u s : State} (h : LinkOnly u s) : u.time = s.time ∧ u.pwr = s.pwr ∧ u.line = s.line ∧ u.tx = s.tx ∧
    u.fe = s.fe ∧ u.eq = s.eq ∧ u.hs = s.hs ∧ u.dbg = s.dbg ∧ u.pins = s.pins ∧ u.ref = s.ref := by
  rw [h.1]
  exact ⟨rfl, rfl, rfl, rfl, rfl, rfl, rfl, rfl, rfl, rfl⟩

theorem LinkOnly.dbg {u s : State} (h : LinkOnly u s) : u.dbg = s.dbg := by rw [h.1]

theorem linkOnly_refl (s : State) : LinkOnly s s := ⟨rfl, rfl, rfl, rfl⟩

theorem linkOnly_hl (s : State) (h : Hl) : LinkOnly { s with hl := h } s := ⟨rfl, rfl, rfl, rfl⟩

theorem linkOnly_q (s : State) (q : Queues) : LinkOnly { s with q := q } s := ⟨rfl, rfl, rfl, rfl⟩

theorem linkOnly_of {u s : State} {h : Hl} {i : Hif} {a : Aon} {w : List Host.Cell} {q : Queues} {f : Flash}
    (e : u = { s with hl := h, hif := i, aon := a, win := w, q := q, flash := f })
    (ha : u.aon = { s.aon with logSeq := u.aon.logSeq }) (hr : SameReady u s) : LinkOnly u s := by
  refine ⟨?_, ha, hr⟩
  subst e
  rfl

theorem linkOnly_notifyAt (e c : Half) (b : Option Bool) (d : List Byte) (t : Lts) (s : State) :
    LinkOnly (notifyAt e c b d t s) s :=
  linkOnly_of (notifyAt_same e c b d t s) (notifyAt_aon e c b d t s) (notifyAt_ready e c b d t s)

theorem linkOnly_notify (e c : Half) (b : Option Bool) (d : List Byte) (s : State) : LinkOnly (notify e c b d s) s :=
  linkOnly_notifyAt e c b d _ s

theorem linkOnly_logEntry (t : Nat) (c : Half) (e : Option Half) (d : List Byte) (s : State) : LinkOnly (logEntry t c e d s) s :=
  linkOnly_of (logEntry_same t c e d s) (logEntry_aon t c e d s) (logEntry_ready t c e d s)

theorem linkOnly_respond (op : Nat) (h : Hdr) (st : St) (res : List Byte) (out : Option (List Byte)) (s : State) :
    LinkOnly (respond op h st res out s) s :=
  linkOnly_of (respond_same op h st res out s) (by rw [respond_same]) (respond_ready op h st res out s)

theorem linkOnly_answerLate {late : Bool} {f : State → State} (hf : ∀ s, LinkOnly (f s) s) (s : State) :
    LinkOnly (answerLate late f s) s :=
  (linkOnly_q _ _).trans ((hf _).trans (linkOnly_q s _))

theorem linkOnly_readmit (s : State) : LinkOnly (readmit s) s := by
  unfold readmit
  split
  · split
    · exact linkOnly_hl s _
    · exact linkOnly_refl s
  · exact linkOnly_hl s _

theorem linkOnly_linkTo (st : LinkSt) (cause : Nat) (s : State) : LinkOnly (linkTo st cause s) s := by
  unfold linkTo
  split
  · exact linkOnly_hl s _
  · have hr : LinkOnly (readmit { s with hl := { s.hl with link := st, since := s.time.lts.sf } }) s :=
      (linkOnly_readmit _).trans (linkOnly_hl s _)
    dsimp only
    split
    · exact (linkOnly_notify _ _ _ _ _).trans hr
    · exact hr

theorem linkOnly_lpAbandon (s : State) : LinkOnly (lpAbandon s) s := by
  unfold lpAbandon
  split
  · exact (linkOnly_answerLate (fun s => linkOnly_respond _ _ _ _ _ s) _).trans (linkOnly_hl s _)
  · exact linkOnly_hl s _

theorem linkOnly_linkHold (st : LinkSt) (cause : Nat) (s : State) : LinkOnly (linkHold st cause s) s := by
  unfold linkHold
  split
  · exact (linkOnly_linkTo _ _ _).trans ((linkOnly_hl _ _).trans (linkOnly_lpAbandon s))
  · exact linkOnly_refl s

theorem linkOnly_bringUp (quick : Bool) (cause silence : Nat) (s : State) : LinkOnly (bringUp quick cause silence s) s := by
  unfold bringUp sendControl
  exact (linkOnly_hl _ _).trans ((linkOnly_hl _ _).trans ((linkOnly_linkTo _ _ _).trans (linkOnly_hl s _)))

theorem linkOnly_linkReturn (cause : Nat) (s : State) : LinkOnly (linkReturn cause s) s := by
  unfold linkReturn
  split
  · exact linkOnly_refl s
  · dsimp only
    split
    · exact (linkOnly_linkTo _ _ _).trans (linkOnly_hl s _)
    · exact (linkOnly_linkTo _ _ _).trans (linkOnly_hl s _)
    · exact (linkOnly_bringUp _ _ _ _).trans (linkOnly_hl s _)

theorem deliver_same (n : Note) (l u : Bool) (s : State) : deliver n l u s = { s with
    hif := (deliver n l u s).hif, aon := (deliver n l u s).aon, win := (deliver n l u s).win, q := (deliver n l u s).q,
    flash := (deliver n l u s).flash } := by
  have hf := deliver_frame n l u s
  generalize deliver n l u s = v at hf ⊢
  cases v
  simp only at hf
  simp only [hf]

theorem linkOnly_deliver (n : Note) (l u : Bool) (s : State) : LinkOnly (deliver n l u s) s :=
  linkOnly_of (deliver_same n l u s) (deliver_aon n l u s) (deliver_ready n l u s)

theorem linkOnly_deliverAll (ns : List Note) (s : State) : LinkOnly (deliverAll ns s) s := by
  unfold deliverAll
  induction ns generalizing s with
  | nil => exact linkOnly_refl s
  | cons n ns ih => exact (ih _).trans ((linkOnly_deliver _ _ _ _).trans (linkOnly_q s _))

theorem linkOnly_releaseAll (s : State) : LinkOnly (releaseAll s) s := (linkOnly_deliverAll _ _).trans (linkOnly_q s _)

/-! ### The merge buffer, flushed -/

theorem poisonOwner_kept (p : Nat) (s : State) : (poisonOwner p s).dbg = s.dbg ∧ (poisonOwner p s).time = s.time ∧
    (poisonOwner p s).tx = s.tx := by
  unfold poisonOwner
  split
  · split
    · dsimp only
      split <;> exact ⟨rfl, rfl, rfl⟩
    · exact ⟨rfl, rfl, rfl⟩
  · exact ⟨rfl, rfl, rfl⟩
  · exact ⟨rfl, rfl, rfl⟩
  · dsimp only
    split
    · simp
    · exact ⟨rfl, rfl, rfl⟩
  · exact ⟨rfl, rfl, rfl⟩

theorem wordWrite_kept (w : Nat) (bs : List Byte) (s : State) : (wordWrite w bs s).dbg = s.dbg ∧ (wordWrite w bs s).time = s.time ∧
    (wordWrite w bs s).tx = s.tx := by
  unfold wordWrite
  dsimp only
  split <;> exact ⟨rfl, rfl, rfl⟩

theorem mergeFlush_kept (m : Merge) (s : State) : (mergeFlush m s).dbg = s.dbg ∧ (mergeFlush m s).time = s.time ∧
    (mergeFlush m s).tx = s.tx := by
  simp only [mergeFlush]
  split
  · exact poisonOwner_kept _ _
  · exact wordWrite_kept _ _ _

theorem mem_of_mem_mergeFlush {m x : Merge} {s : State} (hx : x ∈ (mergeFlush m s).hs.merge) : x ∈ s.hs.merge := by
  simp only [mergeFlush] at hx
  split at hx
  · rw [poisonOwner_merge] at hx
    exact (List.mem_filter.mp hx).1
  · rw [merge_wordWrite] at hx
    exact (List.mem_filter.mp (List.mem_filter.mp hx).1).1

theorem mergeFlushes_kept (l : List Merge) (s : State) : (l.foldl (fun s m => mergeFlush m s) s).dbg = s.dbg ∧
    (l.foldl (fun s m => mergeFlush m s) s).time = s.time ∧ (l.foldl (fun s m => mergeFlush m s) s).tx = s.tx := by
  induction l generalizing s with
  | nil => exact ⟨rfl, rfl, rfl⟩
  | cons m l ih =>
    obtain ⟨h1, h2, h3⟩ := ih (mergeFlush m s)
    obtain ⟨h4, h5, h6⟩ := mergeFlush_kept m s
    exact ⟨h1.trans h4, h2.trans h5, h3.trans h6⟩

theorem mergeFlushes_merge (l : List Merge) (s : State) : ∀ x ∈ (l.foldl (fun s m => mergeFlush m s) s).hs.merge,
    x ∈ s.hs.merge ∧ ∀ m ∈ l, x.word ≠ m.word := by
  induction l generalizing s with
  | nil => exact fun x hx => ⟨hx, fun m hm => absurd hm List.not_mem_nil⟩
  | cons a l ih =>
    intro x hx
    obtain ⟨h1, h2⟩ := ih _ x hx
    refine ⟨mem_of_mem_mergeFlush h1, fun m hm => ?_⟩
    rcases List.mem_cons.mp hm with rfl | hm
    · exact mergeFlush_merge m s x h1
    · exact h2 m hm

theorem mergeFlushAll_merge (s : State) : (mergeFlushAll s).hs.merge = [] := by
  rw [List.eq_nil_iff_forall_not_mem]
  intro x hx
  obtain ⟨h1, h2⟩ := mergeFlushes_merge _ _ x hx
  exact h2 x h1 rfl

/-! ### Freeze begins and ends -/

theorem capAbort_kept (b : Bool) (s : State) : (capAbort b s).dbg = s.dbg ∧ (capAbort b s).time = s.time ∧
    (capAbort b s).tx = s.tx ∧ (capAbort b s).hs.merge = s.hs.merge := by
  unfold capAbort
  split
  · exact ⟨rfl, rfl, rfl, rfl⟩
  · split
    · exact ⟨rfl, rfl, rfl, rfl⟩
    · simp [capNote, capEnd, capHeaderKept]

theorem agePause_kept (b : Bool) (s : State) : (agePause b s).dbg = s.dbg ∧ (agePause b s).time = s.time ∧
    (agePause b s).tx = s.tx ∧ (agePause b s).hs = s.hs := by
  unfold agePause
  split <;> exact ⟨rfl, rfl, rfl, rfl⟩

theorem freezeNull_kept (s : State) : (freezeNull s).dbg = s.dbg ∧ (freezeNull s).time = s.time ∧
    (freezeNull s).hs = s.hs ∧ (s.tx.st = .lit → (freezeNull s).tx.st = .null) := by
  unfold freezeNull
  split
  · next h =>
    rw [txMoveAt_same]
    exact ⟨rfl, rfl, rfl, fun _ => by simp [txMoved, h]⟩
  · next h => exact ⟨rfl, rfl, rfl, fun hl => absurd hl h⟩

theorem freezeBegin_spec {k : Nat} {s : State} (hf : s.dbg.frozen = false) : (freezeBegin k s).dbg.frozen = true ∧
    (freezeBegin k s).dbg.sources = (1 : BitVec 4) <<< k ∧ (freezeBegin k s).dbg.at_ = s.time.lts ∧
    (freezeBegin k s).time.lts = s.time.lts ∧ (s.tx.st = .lit → (freezeBegin k s).tx.st = .null) ∧
    (freezeBegin k s).hs.merge = [] := by
  have hf' : ¬ s.dbg.frozen = true := by rw [hf]; decide
  obtain ⟨-, h2, h3⟩ := mergeFlushes_kept s.hs.merge s
  have hm := mergeFlushAll_merge s
  simp only [freezeBegin, if_neg hf']
  generalize hs1 : ({ mergeFlushAll s with dbg := { s.dbg with
    frozen := true, sources := 1 <<< k, at_ := s.time.lts, from_ := extTimer s, wasLit := decide (s.tx.st = .lit) } } : State) = s1
  obtain ⟨a1, a2, a3, a4⟩ := agePause_kept false (incomplete 2 (capAbort false (linkHold .off 5 (freezeNull (endHolds s1)))))
  obtain ⟨b1, b2, b3, b4⟩ := capAbort_kept false (linkHold .off 5 (freezeNull (endHolds s1)))
  obtain ⟨c1, -, -, c3, -, -, c4, c2, -, -⟩ := (linkOnly_linkHold .off 5 (freezeNull (endHolds s1))).kept
  obtain ⟨d1, d2, d3, d4⟩ := freezeNull_kept (endHolds s1)
  have hd : (agePause false (incomplete 2 (capAbort false (linkHold .off 5 (freezeNull (endHolds s1)))))).dbg = s1.dbg := by
    rw [a1, incomplete, b1, c2, d1]
    rfl
  have ht : (agePause false (incomplete 2 (capAbort false (linkHold .off 5 (freezeNull (endHolds s1)))))).time = s1.time := by
    rw [a2, incomplete, b2, c1, d2]
    rfl
  have hx : (agePause false (incomplete 2 (capAbort false (linkHold .off 5 (freezeNull (endHolds s1)))))).tx =
      (freezeNull (endHolds s1)).tx := by rw [a3, incomplete, b3, c3]
  have hh : (agePause false (incomplete 2 (capAbort false (linkHold .off 5 (freezeNull (endHolds s1)))))).hs.merge =
      s1.hs.merge := by
    rw [a4, incomplete, b4, c4, d3]
    rfl
  rw [hd, ht, hx, hh]
  subst hs1
  exact ⟨rfl, rfl, rfl, congrArg Time.lts h2, fun hl => d4 ((congrArg Tx.st h3).trans hl), hm⟩

theorem freezeEnd_frozen (s : State) : (freezeEnd s).dbg.frozen = false := by
  simp only [freezeEnd, notifyAt_frame]
  rw [(linkOnly_releaseAll _).dbg]
  split
  · rw [(linkOnly_linkReturn _ _).dbg]
    rfl
  · rfl


theorem exec_freezePin {low : Bool} {s : State} : exec (.freezePin low) s =
    .next (if low && freezeAllowed s && !s.pins.resetLow then freezeBegin 1 { s with pins := { s.pins with freezeLow := low } }
      else { s with pins := { s.pins with freezeLow := low } }) := rfl

theorem exec_freezeTrigger {t : FreezeTrig} {s : State} : exec (.freezeTrigger t) s =
    .next (if decide (s.dbg.armed = some t) && tripDue s && freezeAllowed s && !s.dbg.frozen then
      freezeBegin 3 { s with dbg := { s.dbg with armed := none, trip := none } } else s) := rfl

/-- The checks of DBG.FREEZE. -/
theorem exec_dbgFreezeCmd {h : Hdr} {action trigger : Byte} {delay : Half} {s : State} (ha : admitted 0x0F01 s = .accept)
    (h2 : action.toNat ≤ 2) (ht : action = 1 → (triggerOf trigger.toNat).isSome = true) :
    exec (.dbgFreezeCmd h action trigger delay) s = .next (if freezeAllowed s then
        if action = 0 then freezeBegin 2 (done 0x0F01 h s)
        else if action = 1 then
          done 0x0F01 h { s with dbg := { s.dbg with armed := triggerOf trigger.toNat, delay := delay.toNat, trip := none } }
        else done 0x0F01 h { s with dbg := { s.dbg with armed := none, trip := none } }
      else refuse 0x0F01 h .badState s) := by
  have hg : (decide (2 < action.toNat) || (decide (action = 1) && (triggerOf trigger.toNat).isNone)) = false := by
    rw [decide_eq_false (by omega), Bool.false_or]
    by_cases h1 : action = 1
    · rw [Option.isNone_eq_false_iff.mpr (ht h1), Bool.and_false]
    · rw [decide_eq_false h1, Bool.false_and]
  simp only [exec, execDbgFreezeCmd, command_accept ha]
  by_cases hf : freezeAllowed s = true
  · rw [if_pos hf, guarded_pass (by simp only [firstFail_cons, firstFail_nil, hg, hf, Bool.not_true, Bool.false_eq_true, if_false])]
  · rw [if_neg hf, guarded_fail (st := .badState)]
    simp only [firstFail_cons, hg, hf, Bool.not_false, Bool.false_eq_true, if_false, if_true]

theorem exec_dbgRelease {h : Hdr} {s : State} (ha : admitted 0x0F02 s = .accept) (hf : s.dbg.frozen = true)
    (hp : s.pins.freezeLow = false) : exec (.dbgRelease h) s =
      .next (freezeEnd (reply 0x0F02 h [fld 16 4 (freezeUs s)] s)) := by
  simp only [exec, execDbgRelease, command_accept ha]
  rw [guarded_pass (by simp only [firstFail_cons, firstFail_nil, hf, hp, Bool.not_true, Bool.false_eq_true, if_false])]

theorem exec_dbgRelease_low {h : Hdr} {s : State} (ha : admitted 0x0F02 s = .accept) (hf : s.dbg.frozen = true)
    (hp : s.pins.freezeLow = true) : exec (.dbgRelease h) s = .next (refuse 0x0F02 h .busy s) := by
  simp only [exec, execDbgRelease, command_accept ha]
  rw [guarded_fail (st := .busy) (by simp only [firstFail_cons, hf, hp, Bool.not_true, Bool.false_eq_true, if_false, if_true])]

theorem exec_dbgRelease_running {h : Hdr} {s : State} (ha : admitted 0x0F02 s = .accept) (hf : s.dbg.frozen = false) :
    exec (.dbgRelease h) s = .next (refuse 0x0F02 h .badState s) := by
  simp only [exec, execDbgRelease, command_accept ha]
  rw [guarded_fail (st := .badState) (by simp only [firstFail_cons, hf, Bool.not_false, if_true])]

/-! ### The test access -/

theorem testAccess_off {s : State} (hv : s.pins.vsbValid = false) (f : State → State) : testAccess f s = .next s := by
  simp only [testAccess, hv, Bool.false_eq_true, if_false]

theorem testAccess_on {s : State} (hv : s.pins.vsbValid = true) (f : State → State) : testAccess f s = .next (f s) := by
  simp only [testAccess, hv, if_true]

theorem exec_testLogicReset {s : State} (hv : s.pins.vsbValid = true) : exec .testLogicReset s =
    .next { s with dbg := { s.dbg with ir := 0x01, extest := false } } := by
  simp only [exec, execTestLogicReset, testAccess_on hv]

theorem exec_bypass {tdi : List Bool} {s : State} (hv : s.pins.vsbValid = true) : exec (.bypass tdi) s =
    .next { s with dbg := { s.dbg with ir := 0xFF, extest := false, tdo := bypassBits tdi } } := by
  simp only [exec, execBypass, testAccess_on hv]

theorem exec_samplePreload {tdi : List Bool} {s : State} (hv : s.pins.vsbValid = true) : exec (.samplePreload tdi) s =
    .next (drawMany tdi.length { s with dbg := { s.dbg with
      ir := 0x02, extest := false, cells := tdi, tdo := freeBits tdi.length s } }) := by
  simp only [exec, execSamplePreload, testAccess_on hv]

theorem exec_extest {tdi : List Bool} {s : State} (hv : s.pins.vsbValid = true) : exec (.extest tdi) s =
    .next (if s.dbg.frozen then
      drawMany tdi.length { s with dbg := { s.dbg with ir := 0x00, extest := true, cells := tdi, tdo := freeBits tdi.length s } }
    else { s with dbg := { s.dbg with ir := 0x00, extest := false, tdo := bypassBits tdi } }) := by
  simp only [exec, execExtest, testAccess_on hv]

theorem exec_idcode {n : Nat} {s : State} (hv : s.pins.vsbValid = true) : exec (.idcode n) s =
    .next { s with dbg := { s.dbg with
      ir := 0x01, extest := false, tdo := (List.range n).map fun i => idcodeValue.getLsbD i } } := by
  simp only [exec, execIdcode, testAccess_on hv]

theorem exec_frzSel {chain : Byte} {s : State} (hv : s.pins.vsbValid = true) : exec (.frzSel chain) s =
    .next { s with dbg := { s.dbg with
      ir := 0x10, extest := false, chain := chain, tdo := (List.range 8).map fun i => s.dbg.chain.getLsbD i } } := by
  simp only [exec, execFrzSel, testAccess_on hv]

theorem exec_frzData {n : Nat} {s : State} (hv : s.pins.vsbValid = true) : exec (.frzData n) s =
    .next (if s.dbg.frozen && chainExists s.dbg.chain then
      drawMany n { s with dbg := { s.dbg with ir := 0x11, extest := false, tdo := freeBits n s } }
    else { s with dbg := { s.dbg with ir := 0x11, extest := false, tdo := List.replicate n false } }) := by
  simp only [exec, execFrzData, testAccess_on hv]

/-- Without VSB33 no access of the test contacts does anything. -/
theorem exec_test_off {s : State} (hv : s.pins.vsbValid = false) (tdi : List Bool) (n : Nat) (chain : Byte) :
    exec .testLogicReset s = .next s ∧ exec (.bypass tdi) s = .next s ∧ exec (.samplePreload tdi) s = .next s ∧
      exec (.extest tdi) s = .next s ∧ exec (.idcode n) s = .next s ∧ exec (.frzSel chain) s = .next s ∧
      exec (.frzData n) s = .next s := by
  simp only [exec, execTestLogicReset, execBypass, execSamplePreload, execExtest, execIdcode, execFrzSel, execFrzData,
    testAccess_off hv, and_self]

theorem bypassBits_spec (tdi : List Bool) : (bypassBits tdi).length = tdi.length ∧
    (∀ k, k + 1 < tdi.length → (bypassBits tdi)[k + 1]? = tdi[k]?) ∧ (tdi ≠ [] → (bypassBits tdi).head? = some false) := by
  refine ⟨by simp [bypassBits], fun k hk => ?_, fun hn => ?_⟩
  · rw [bypassBits, List.getElem?_take_of_lt hk, List.getElem?_cons_succ]
  · cases tdi with
    | nil => exact absurd rfl hn
    | cons b t => rfl

theorem freeBits_length (n : Nat) (s : State) : (freeBits n s).length = n := by simp [freeBits]

/-- Settles O51: freeze from what it keeps, the commands from their checks, the test access from the bits it shifts. -/
theorem freezeAndTestAccess : Obligations.FreezeAndTestAccess := by
  refine ⟨fun k s hf => freezeBegin_spec hf, fun s => ⟨fun ha hr => ?_, fun ha => ?_, rfl⟩,
    fun t s => ⟨fun ha hd hl hf => ?_, fun hn => ?_, fun ha ht => ?_, fun a ha => ?_⟩,
    fun h trigger delay s ha => ⟨fun hl => ⟨?_, fun t ht => ?_, ?_⟩, fun hl => ?_⟩,
    fun h s ha => ⟨fun hf hp => ⟨_, exec_dbgRelease ha hf hp, freezeEnd_frozen _⟩, exec_dbgRelease_low ha, exec_dbgRelease_running ha⟩,
    fun h s ha => ?_,
    fun tdi n chain s hv => exec_test_off hv tdi n chain,
    fun s hv => exec_testLogicReset hv, fun tdi s hv => ⟨⟨_, exec_bypass hv, bypassBits_spec tdi⟩,
      ⟨_, exec_samplePreload hv, rfl, rfl, rfl, freeBits_length _ _⟩, fun hf => ?_, fun hf => ?_⟩,
    fun s hv => ⟨_, exec_idcode hv, by simp, fun i hi => ?_⟩, fun chain s hv => ⟨_, exec_frzSel hv, rfl, rfl, rfl⟩,
    fun n s hv => ⟨fun hf => ?_, fun hf hc => ?_⟩⟩
  · rw [exec_freezePin, ha, hr]
    rfl
  · rw [exec_freezePin, ha]
    rfl
  · rw [exec_freezeTrigger, decide_eq_true ha, hd, hl, hf]
    rfl
  · rw [exec_freezeTrigger, if_neg]
    simp only [Bool.and_eq_true, decide_eq_true_eq]
    rintro ⟨⟨⟨ha, hd⟩, -⟩, -⟩
    exact hn.elim (fun h => h ha) (fun h => Bool.false_ne_true (h.symm.trans hd))
  · rw [freezeTrip, if_pos ⟨ha, ht⟩]
  · simp only [tripDue, ha, decide_eq_true_eq]
  · rw [exec_dbgFreezeCmd ha (by decide) (fun h => absurd h (by decide)), if_pos hl, if_pos rfl]
  · rw [exec_dbgFreezeCmd ha (by decide) (fun _ => by rw [ht]; rfl), if_pos hl, if_neg (by decide), if_pos rfl, ht]
  · rw [exec_dbgFreezeCmd ha (by decide) (fun h => absurd h (by decide)), if_pos hl, if_neg (by decide), if_neg (by decide)]
  · rw [exec_dbgFreezeCmd ha (by decide) (fun h => absurd h (by decide)), hl]
    rfl
  · refine ⟨_, by simp only [exec, execDbgStatus, query_accept ha]; rfl, ?_⟩
    simp
  · rw [exec_extest hv, if_pos hf]
    exact ⟨_, rfl, rfl, rfl, rfl⟩
  · rw [exec_extest hv, hf]
    rfl
  · simp [hi, idcodeValue]
  · rw [exec_frzData hv, hf]
    rfl
  · have hc' : (s.dbg.frozen && chainExists s.dbg.chain) = true := by
      rw [hf, chainExists, decide_eq_true hc]
      rfl
    rw [exec_frzData hv, if_pos hc']
    exact ⟨_, rfl, rfl, freeBits_length _ _, rfl, rfl⟩

end Sys2Proof.Machine
end


section

/-! ## The power sequencer: what answers, notifications and domains leave unchanged -/

namespace Sys2Proof.Machine

open Sys2Proof

/-- O55 at a state without VSB33: VIN12 below 11.4 V is measured in OFF, and VIN_OK of the unpowered always-on domain stands. -/
def offWithoutVsb : State :=
  { pwr := { phase := .steady .off }, pins := { vsbValid := false }, aon := { vinOk := true } }

theorem vinOkChange_offWithoutVsb : ∃ u, exec (.vinOkChange 0) offWithoutVsb = .next u ∧ u.aon.vinOk = true :=
  ⟨_, rfl, rfl⟩

/-- Refutes O55: where VSB33 is not valid a measurement of VIN12 leaves VIN_OK as it is, so that in OFF a voltage below 11.4 V
does not clear it. -/
theorem not_wakeSources : ¬ Obligations.WakeSources := by
  intro h
  unfold Obligations.WakeSources at h
  obtain ⟨-, -, -, -, -, hvin⟩ := h
  obtain ⟨u, hu, hok, -⟩ := (hvin 0 offWithoutVsb rfl).1 (by decide)
  obtain ⟨v, hv, hvok⟩ := vinOkChange_offWithoutVsb
  rw [hu] at hv
  cases hv
  rw [hok] at hvok
  cases hvok

/-! ### What stays through an answer, a notification and a flush -/

/-- The always-on domain of `a` is that of `b`, apart from the log's number and the mark of the ageing monitor. -/
def AonKept (a b : Aon) : Prop := a = { b with logSeq := a.logSeq, ageTimer := a.ageTimer, ageTemp := a.ageTemp }

/-- The sequencer, line time, the contacts, the line mode, the store's start, the always-on domain and READY of `u` are those of `s`. -/
def Kept (u s : State) : Prop :=
  u.pwr = s.pwr ∧ u.time = s.time ∧ u.pins = s.pins ∧ u.line = s.line ∧ u.hs.started = s.hs.started ∧ AonKept u.aon s.aon ∧ SameReady u s

theorem kept_refl (s : State) : Kept s s := ⟨rfl, rfl, rfl, rfl, rfl, rfl, rfl, rfl⟩

theorem AonKept.trans {a b c : Aon} (h1 : AonKept a b) (h2 : AonKept b c) : AonKept a c := by
  rw [AonKept] at *
  rw [h1, h2]

theorem Kept.trans {u t s : State} (h1 : Kept u t) (h2 : Kept t s) : Kept u s := by
  obtain ⟨p1, t1, i1, l1, g1, a1, r1, q1⟩ := h1
  obtain ⟨p2, t2, i2, l2, g2, a2, r2, q2⟩ := h2
  exact ⟨p1.trans p2, t1.trans t2, i1.trans i2, l1.trans l2, g1.trans g2, a1.trans a2, r1.trans r2, q1.trans q2⟩

theorem LinkOnly.toKept {u s : State} (h : LinkOnly u s) : Kept u s := by
  obtain ⟨ht, hp, hl, -, -, -, hs, -, hi, -⟩ := h.kept
  refine ⟨hp, ht, hi, hl, congrArg Hs.started hs, ?_, h.2.2⟩
  rw [AonKept, h.2.1]

theorem kept_respond (op : Nat) (h : Hdr) (st : St) (res : List Byte) (out : Option (List Byte)) (s : State) :
    Kept (respond op h st res out s) s := (linkOnly_respond op h st res out s).toKept

theorem kept_notify (e c : Half) (b : Option Bool) (d : List Byte) (s : State) : Kept (notify e c b d s) s :=
  (linkOnly_notify e c b d s).toKept

theorem kept_logEntry (t : Nat) (c : Half) (e : Option Half) (d : List Byte) (s : State) : Kept (logEntry t c e d s) s :=
  (linkOnly_logEntry t c e d s).toKept

theorem kept_answerLate {late : Bool} {f : State → State} (hf : ∀ s, Kept (f s) s) (s : State) : Kept (answerLate late f s) s :=
  hf _

theorem kept_pwrReply (r : PwrReq) (code : Nat) (named : Bool) (s : State) : Kept (pwrReply r code named s) s := by
  unfold pwrReply
  split
  · exact kept_refl s
  · exact kept_answerLate (fun s => kept_respond _ _ _ _ _ s) s

theorem kept_pwrRefuse (r : PwrReq) (st : St) (s : State) : Kept (pwrRefuse r st s) s := by
  unfold pwrRefuse
  split
  · exact kept_refl s
  · exact kept_respond _ _ _ _ _ s

theorem kept_setCause (c : BitVec 6) (s : State) : Kept (setCause c s) s :=
  ⟨rfl, rfl, rfl, rfl, rfl, rfl, setCause_ready c s⟩

theorem kept_endHolds (s : State) : Kept (endHolds s) s :=
  ⟨rfl, rfl, rfl, rfl, rfl, rfl, raiseNew_ready _ _, raiseNew_recovery _ _⟩

theorem kept_stageEntry (t : Nat) (c : Half) (e : Option Half) (d : List Byte) (s : State) : Kept (stageEntry t c e d s) s :=
  ⟨rfl, rfl, rfl, rfl, rfl, rfl, rfl, rfl⟩

theorem kept_foldl {α : Type} {f : State → α → State} (hf : ∀ s x, Kept (f s x) s) (l : List α) (s : State) :
    Kept (l.foldl f s) s := by
  induction l generalizing s with
  | nil => exact kept_refl s
  | cons x l ih => exact (ih _).trans (hf s x)

theorem kept_flushEntries (n : Nat) (s : State) : Kept (flushEntries n s) s :=
  (kept_foldl (fun s _ => kept_stageEntry _ _ _ _ s) _ _).trans (kept_refl s)

theorem kept_flushLog (s : State) : Kept (flushLog s) s := kept_flushEntries _ s

theorem kept_poisonOwner (p : Nat) (s : State) : Kept (poisonOwner p s) s := by
  unfold poisonOwner
  split
  · split
    · dsimp only
      split <;> exact kept_refl s
    · exact kept_refl s
  · exact kept_refl s
  · exact kept_refl s
  · dsimp only
    split
    · exact kept_logEntry _ _ _ _ _
    · exact kept_refl s
  · exact kept_refl s

theorem kept_mergeFlush (m : Merge) (s : State) : Kept (mergeFlush m s) s := by
  simp only [mergeFlush]
  split
  · exact kept_poisonOwner _ _
  · unfold wordWrite
    dsimp only
    split <;> exact kept_refl s

theorem kept_mergeFlushAll (s : State) : Kept (mergeFlushAll s) s := kept_foldl (fun s m => kept_mergeFlush m s) _ s

theorem kept_linkOff (s : State) : Kept (linkOff s) s := by
  unfold linkOff
  split
  · exact ((linkOnly_linkTo _ _ _).trans (linkOnly_lpAbandon s)).toKept
  · exact kept_refl s

theorem kept_entryLanes (s : State) : Kept (entryLanes s) s := kept_linkOff _

/-! ### The domains -/

/-- Of the sequencer the domains and the votes of memory mode may differ; all else of `Kept` is the same in `u` and `s`. -/
def Voted (u s : State) : Prop :=
  u.pwr = { s.pwr with
    closed := u.pwr.closed, powered := u.pwr.powered, held := u.pwr.held, failed := u.pwr.failed, attempts := u.pwr.attempts,
    mmVote := u.pwr.mmVote, mmVoteEnd := u.pwr.mmVoteEnd } ∧
  u.time = s.time ∧ u.pins = s.pins ∧ u.line = s.line ∧ u.hs.started = s.hs.started ∧ AonKept u.aon s.aon ∧ SameReady u s

theorem Voted.trans {u t s : State} (h1 : Voted u t) (h2 : Voted t s) : Voted u s := by
  obtain ⟨p1, t1, i1, l1, g1, a1, r1, q1⟩ := h1
  obtain ⟨p2, t2, i2, l2, g2, a2, r2, q2⟩ := h2
  refine ⟨?_, t1.trans t2, i1.trans i2, l1.trans l2, g1.trans g2, a1.trans a2, r1.trans r2, q1.trans q2⟩
  rw [p1, p2]

theorem Kept.voted {u s : State} (h : Kept u s) : Voted u s := by
  obtain ⟨hp, h⟩ := h
  exact ⟨by rw [hp], h⟩

theorem voted_refl (s : State) : Voted s s := (kept_refl s).voted

theorem voted_foldl {α : Type} {f : State → α → State} (hf : ∀ s x, Voted (f s x) s) (l : List α) (s : State) :
    Voted (l.foldl f s) s := by
  induction l generalizing s with
  | nil => exact voted_refl s
  | cons x l ih => exact (ih _).trans (hf s x)

theorem ciphDown_voted (s : State) : Voted (ciphDown s) s ∧ (ciphDown s).pwr.mmVote = false ∧ (ciphDown s).pwr.mmVoteEnd = none := by
  unfold ciphDown
  dsimp only
  generalize hg : List.foldl _ s (List.range 16) = t
  have ht : Kept t s := by
    rw [← hg]
    refine kept_foldl (fun s i => ?_) _ s
    split
    · exact (kept_respond _ _ _ _ _ _).trans (kept_refl s)
    · exact kept_refl s
  exact ⟨Voted.trans (t := t) ⟨rfl, rfl, rfl, rfl, rfl, rfl, rfl, rfl⟩ ht.voted, rfl, rfl⟩

theorem voted_domDown (d : Dom) (s : State) : Voted (domDown d s) s := by
  cases d with
  | ciph => exact (ciphDown_voted s).1
  | host =>
    have hd : domDown .host s = if s.hl.before.isSome then s else linkOff s := rfl
    rw [hd]
    split
    · exact voted_refl s
    · exact (kept_linkOff s).voted
  | mgmt => exact voted_refl s
  | store => exact voted_refl s
  | line => exact voted_refl s
  | opt => exact voted_refl s

/-- Opening a domain writes the domains' words, and the votes of memory mode with CIPH. -/
theorem voted_openDom (d : Dom) (s : State) : Voted (openDom d s) s := by
  unfold openDom
  dsimp only
  split
  · exact (voted_domDown _ _).trans ⟨rfl, rfl, rfl, rfl, rfl, rfl, rfl, rfl⟩
  · exact ⟨rfl, rfl, rfl, rfl, rfl, rfl, rfl, rfl⟩

theorem voted_closeDom (d : Dom) (s : State) : Voted (closeDom d s) s := ⟨rfl, rfl, rfl, rfl, rfl, rfl, rfl, rfl⟩

theorem voted_closeNext (s : State) : Voted (closeNext s) s := by
  unfold closeNext
  split
  · exact voted_refl s
  · split
    · exact voted_closeDom _ s
    · exact voted_refl s

theorem voted_revote (s : State) : Voted (revote s) s := by
  unfold revote
  dsimp only
  refine (voted_closeNext _).trans (Voted.trans (t := List.foldl _ s openOrder) ⟨rfl, rfl, rfl, rfl, rfl, rfl, rfl, rfl⟩
    (voted_foldl (fun s d => ?_) openOrder s))
  split
  · exact voted_refl s
  · exact voted_openDom d s

theorem Voted.phase {u s : State} (h : Voted u s) : u.pwr.phase = s.pwr.phase := by
  rw [h.1]

theorem Voted.retryDue {u s : State} (h : Voted u s) : u.pwr.retryDue = s.pwr.retryDue := by
  rw [h.1]

theorem Voted.bootVote {u s : State} (h : Voted u s) : u.pwr.bootVote = s.pwr.bootVote := by
  rw [h.1]

theorem Voted.requests {u s : State} (h : Voted u s) : u.pwr.req = s.pwr.req ∧ u.pwr.heldReq = s.pwr.heldReq ∧
    u.pwr.then_ = s.pwr.then_ := by
  rw [h.1]
  exact ⟨rfl, rfl, rfl⟩

theorem Voted.shed {u s : State} (h : Voted u s) : u.pwr.shed = s.pwr.shed := by
  rw [h.1]

theorem Voted.watch {u s : State} (h : Voted u s) : u.pwr.watchOpen = s.pwr.watchOpen ∧ u.pwr.hostVotes = s.pwr.hostVotes := by
  rw [h.1]
  exact ⟨rfl, rfl⟩

theorem AonKept.regs {a b : Aon} (h : AonKept a b) : a.coppice = b.coppice ∧ a.valid = b.valid ∧ a.code = b.code ∧
    a.vinOk = b.vinOk ∧ a.supplyArmed = b.supplyArmed := by
  rw [h]
  exact ⟨rfl, rfl, rfl, rfl, rfl⟩

theorem Voted.coppice {u s : State} (h : Voted u s) : u.aon.coppice = s.aon.coppice := h.2.2.2.2.2.1.regs.1

/-! ### The power commands -/

/-- The request taken: it acts at the next boundary, or at once where line time does not run. -/
def takenReq (r : PwrReq) (s : State) : State := { s with pwr := { s.pwr with req := some { r with due := actsAt s } } }

theorem startRequest_low {r : PwrReq} {s : State} (hp : s.pwr.phase = .steady .run)
    (ht : r.target = .sleep ∨ r.target = .deep ∨ r.target = .off) : startRequest r s = takenReq r s := by
  have hs : steadyState s = some .run := by rw [steadyState, hp]
  obtain ⟨t, h, d, w, l⟩ := r
  simp only at ht
  rw [startRequest, hs]
  rcases ht with rfl | rfl | rfl <;> rfl

theorem startRequest_same {r : PwrReq} {s : State} (hp : s.pwr.phase = .steady r.target) :
    startRequest r s = pwrReply r (stateCode r.target) true s := by
  have hs : steadyState s = some r.target := by rw [steadyState, hp]
  rw [startRequest, hs]
  exact if_pos rfl

theorem startRequest_idle {r : PwrReq} {s : State} (hp : s.pwr.phase = .steady .run) (ht : r.target = .idle) :
    startRequest r s = pwrReply r 3 false (reached 4 .idle s) := by
  have hs : steadyState s = some .run := by rw [steadyState, hp]
  obtain ⟨t, h, d, w, l⟩ := r
  simp only at ht
  subst ht
  rw [startRequest, hs]
  rfl

theorem startRequest_watch {r : PwrReq} {s : State} (hp : s.pwr.phase = .steady .run) (ht : r.target = .watch)
    (hc : s.aon.coppice < 4) :
    startRequest r s = takenReq r { s with line := { s.line with change := some (watchChange none false s) } } := by
  have hs : steadyState s = some .run := by rw [steadyState, hp]
  obtain ⟨t, h, d, w, l⟩ := r
  simp only at ht
  subst ht
  rw [startRequest, hs]
  exact if_neg (Nat.not_le.mpr hc)

/-- A transition to `st` that reaches it: the phase and the stamp of the last change are written, the rest is kept. -/
theorem reached_phase (old : Nat) (st : PState) (s : State) : (reached old st s).pwr.phase = .steady st := by
  obtain ⟨hp, -⟩ := kept_notify 0x0102 (Config.freeSource 0x0102) none (ev [fld 20 1 old, fld 21 1 (stateCode st)])
    { setPhase (.steady st) s with pwr := { (setPhase (.steady st) s).pwr with lastChange := (nowLts (setPhase (.steady st) s)).sf } }
  rw [reached, stateEvent, hp]
  exact congrArg Pwr.phase (setPhase_pwr _ _)

theorem inTransition_false {st : PState} {s : State} (hp : s.pwr.phase = .steady st) (hr : s.pwr.req = none)
    (hc : s.line.change = none) : inTransition s = false := by
  simp [inTransition, steadyState, hp, hr, hc]

/-- The request that PWR.STATE_SET makes. -/
def hostRequest (h : Hdr) (to_ : PState) (s : State) : PwrReq :=
  ⟨to_, some h, nowLts s, false, decide (s.q.acting = some true)⟩

theorem exec_pwrStateSet {h : Hdr} {target : Byte} {to_ : PState} {s : State} (ha : admitted 0x0201 s = .accept)
    (hto : codeState target.toNat = some to_) :
    exec (.pwrStateSet h target) s = .next (powerRequest (hostRequest h to_ s) s) := by
  simp only [exec, execPwrStateSet, command_accept ha, hto]
  rfl

theorem exec_pwrStateSet_start {h : Hdr} {target : Byte} {st to_ : PState} {s : State} (ha : admitted 0x0201 s = .accept)
    (hto : codeState target.toNat = some to_) (hp : s.pwr.phase = .steady st) (hr : s.pwr.req = none) (hc : s.line.change = none) :
    exec (.pwrStateSet h target) s = .next (startRequest (hostRequest h to_ s) s) := by
  rw [exec_pwrStateSet ha hto, powerRequest, if_neg (by rw [inTransition_false hp hr hc]; decide)]

/-! ### Status, votes and settings -/

theorem pwrStatus_fields {h : Hdr} {s : State} (ha : admitted 0x0202 s = .accept) :
    ∃ fs, exec (.pwrStatus h) s = .next (reply 0x0202 h fs (nextDraw { s with pins := { s.pins with lowestVin := s.pins.vinMv } })) ∧
      fld 16 1 (phaseCode s.pwr.phase) ∈ fs ∧ fld 18 1 s.aon.coppice ∈ fs ∧ fld 19 1 s.pwr.powered.toNat ∈ fs ∧
      fld 24 2 s.pins.vinMv ∈ fs ∧ fld 52 2 s.pins.lowestVin ∈ fs ∧ fld 56 6 s.pwr.lastChange.toNat ∈ fs := by
  refine ⟨_, by simp only [exec, execPwrStatus, command_accept ha]; rfl, ?_, ?_, ?_, ?_, ?_, ?_⟩ <;> simp

/-- Settles O58: what PWR.STATE_SET starts in RUN is the request that `startRequest` takes, answers or acts on; the rest are the
cards' settings. -/
theorem powerCommands : Obligations.PowerCommands := by
  unfold Obligations.PowerCommands
  refine ⟨?_, ?_, ?_, ?_, ?_, ?_⟩
  · intro h target st to_ s ha hto hp hr hc
    rw [exec_pwrStateSet_start ha hto hp hr hc]
    refine ⟨?_, ?_, ?_, ?_⟩
    · rintro rfl
      rw [startRequest_same hp]
      rfl
    · rintro rfl ht
      rw [startRequest_low hp ht]
      exact ⟨_, _, rfl, rfl, rfl, rfl, rfl⟩
    · rintro rfl rfl
      rw [startRequest_idle hp rfl]
      exact ⟨_, rfl, by rw [(kept_pwrReply _ _ _ _).1, reached_phase]⟩
    · rintro rfl rfl hcop
      rw [startRequest_watch hp rfl hcop]
      exact ⟨_, rfl, rfl, rfl⟩
  · intro h target to_ s ha hto ht
    rw [exec_pwrStateSet ha hto, powerRequest, if_pos ht]
    rfl
  · intro h target s ha hto
    simp only [exec, execPwrStateSet, command_accept ha, hto]
  · exact fun h s ha => pwrStatus_fields ha
  · intro h domains s ha hd
    have hres : reservedClear domains 0x3C = true := by
      rw [reservedClear_iff]
      exact hd
    refine ⟨fun hc => ?_, fun hc => ?_⟩
    · simp only [exec, execPwrVote, command_accept ha]
      have hlow : decide (3 ≤ s.aon.coppice) = true := decide_eq_true hc
      rw [guarded_fail (by simp only [firstFail_cons, hres, hlow]; rfl)]
    · simp only [exec, execPwrVote, command_accept ha]
      have hlow : decide (3 ≤ s.aon.coppice) = false := decide_eq_false (Nat.not_le.mpr hc)
      rw [guarded_pass (by simp only [firstFail_cons, firstFail_nil, hres, hlow]; rfl)]
      exact ⟨_, rfl, by rw [(voted_revote _).watch.2]⟩
  · intro h period flags s ha hf hper
    have hres : reservedClear flags 7 = true := by
      rw [reservedClear_iff]
      exact hf
    have hbad : (decide (period ≠ 0) && decide (period.toNat < 256)) = false := by
      rcases hper with rfl | hp
      · rfl
      · simp only [decide_eq_false (Nat.not_lt.mpr hp), Bool.and_false]
    simp only [exec, execPwrConfig, command_accept ha]
    rw [guarded_pass (by simp only [firstFail_cons, firstFail_nil, hres, hbad]; rfl)]
    rfl

end Sys2Proof.Machine

end


section

/-! ## Domains, the entry into a low state, and the steps of a cold start -/

namespace Sys2Proof.Machine

open Sys2Proof

/-! ### What opening and closing a domain writes -/

/-- `d` opened, where nothing is lost with it: its bit is gone from the sluices, the powered and the held domains. -/
theorem openDom_plain {d : Dom} {s : State} (h : domIn s.pwr.powered d = false ∨ d = .mgmt) : openDom d s = { s with pwr := { s.pwr with
    closed := s.pwr.closed &&& ~~~ domBit d, powered := s.pwr.powered &&& ~~~ domBit d, held := s.pwr.held &&& ~~~ domBit d } } := by
  rcases h with h | rfl
  · rw [openDom, h]
    rfl
  · rw [openDom]
    exact ite_self _

theorem domIn_and_not_self (w : BitVec 7) (d : Dom) : domIn (w &&& ~~~ domBit d) d = false := by
  cases d <;> simp [domIn, domBit, domCode]

theorem domIn_or_self (w : BitVec 7) (d : Dom) : domIn (w ||| domBit d) d = true := by
  cases d <;> simp [domIn, domBit, domCode]

theorem closeNext_eq (s : State) : closeNext s = { s with pwr := { s.pwr with closed := (closeNext s).pwr.closed } } := by
  unfold closeNext
  split
  · rfl
  · split <;> rfl

theorem closeNext_pwr (s : State) : (closeNext s).pwr = { s.pwr with closed := (closeNext s).pwr.closed } := by
  rw [closeNext_eq]

theorem kept_refreshTribs (s : State) : Kept (refreshTribs s) s := kept_refl s

theorem kept_selftestEvent (which : Nat) (s : State) : Kept (selftestEvent which s) s :=
  (kept_logEntry _ _ _ _ _).trans (kept_notify _ _ _ _ s)

theorem kept_unlessPassed {t s : State} (h : Kept t s) (c : Bool) (which : Nat) :
    Kept (if c = true then t else selftestEvent which t) s := by
  cases c
  · exact (kept_selftestEvent which t).trans h
  · exact h

theorem kept_runSelftests (s : State) : Kept (runSelftests s) s := by
  unfold runSelftests
  extract_lets n a b c _ s0 s1 s2 s3
  have h1 : Kept s1 s := by
    unfold s1
    split <;> exact kept_refl s
  have h2 : Kept s2 s := kept_unlessPassed h1 a 0
  have h3 : Kept s3 s := kept_unlessPassed h2 b 1
  exact (kept_refreshTribs _).trans (kept_unlessPassed h3 c 2)

theorem kept_hostUp (s : State) : Kept (hostUp s) s := by
  unfold hostUp
  split
  · exact kept_refl s
  · split
    · exact ((linkOnly_bringUp _ _ _ _).trans (linkOnly_hl s _)).toKept
    · exact (linkOnly_bringUp _ _ _ s).toKept
    · exact (linkOnly_bringUp _ _ _ s).toKept
    · split
      · split
        · exact (linkOnly_linkReturn _ s).toKept
        · exact kept_refl s
      · split
        · exact (linkOnly_bringUp _ _ _ s).toKept
        · exact kept_refl s

theorem kept_domUp (d : Dom) (s : State) : Kept (domUp d s) s := by
  cases d with
  | ciph => exact (kept_runSelftests _).trans (kept_refl s)
  | host => exact kept_hostUp s
  | store => exact kept_refl s
  | mgmt => exact kept_refl s
  | line => exact kept_refl s
  | opt => exact kept_refl s

/-! ### The memory-mode vote, withdrawn -/

/-- The memory-mode engine has no vote. -/
def NoMmVote (s : State) : Prop := s.pwr.mmVote = false ∧ s.pwr.mmVoteEnd = none

theorem openDom_noMmVote (d : Dom) {s : State} (h : NoMmVote s) : NoMmVote (openDom d s) := by
  unfold openDom
  dsimp only
  split
  · cases d with
    | ciph => exact (ciphDown_voted _).2
    | host =>
      have hd : ∀ t, domDown .host t = if t.hl.before.isSome then t else linkOff t := fun _ => rfl
      rw [hd]
      split
      · exact h
      · rw [NoMmVote, (kept_linkOff _).1]
        exact h
    | mgmt => exact h
    | store => exact h
    | line => exact h
    | opt => exact h
  · exact h

theorem openDoms_noMmVote (p : Dom → State → Bool) (l : List Dom) {s : State} (h : NoMmVote s) :
    NoMmVote (l.foldl (fun s d => if p d s then s else openDom d s) s) := by
  induction l generalizing s with
  | nil => exact h
  | cons d l ih =>
    refine ih ?_
    dsimp only
    split
    · exact h
    · exact openDom_noMmVote d h

theorem revote_noMmVote {s : State} (h : NoMmVote s) : NoMmVote (revote s) := by
  have ho := openDoms_noMmVote (fun d s => wants d s || !domIn s.pwr.closed d) openOrder h
  unfold revote
  dsimp only
  rw [NoMmVote, closeNext_pwr]
  exact ho

/-! ### The entry into a low state -/

theorem stopTime_spec (s : State) : (stopTime s).time.running = false ∧ (stopTime s).line = s.line := by
  unfold stopTime
  split
  · obtain ⟨-, -, -, hl, -⟩ := (kept_endHolds (releaseAll s)).trans (linkOnly_releaseAll s).toKept
    exact ⟨rfl, hl⟩
  next h => exact ⟨by simpa using h, rfl⟩

theorem voted_entryOpens (s : State) : Voted (entryOpens s) s :=
  ((kept_flushLog _).trans (kept_mergeFlushAll _)).voted.trans
    ((voted_openDom .line _).trans ((voted_openDom .ciph _).trans (voted_openDom .host s)))

theorem entryStops_line (scan : Bool) (reason : Nat) (s : State) : (entryStops scan reason s).line.cur = none := rfl

/-- The state that an entry leaves, of the phase it finds. -/
def entryOrigin : Phase → PState
  | .steady st => st
  | .exit o _ => o
  | .entry _ o => o
  | _ => .off

theorem lowEntry_sleep (reason : Nat) (r : Option PwrReq) (s : State) :
    (lowEntry .sleep reason r s).pwr.phase = .entry .sleep (entryOrigin s.pwr.phase) ∧
      (lowEntry .sleep reason r s).time.running = false ∧ (lowEntry .sleep reason r s).line.cur = none := by
  obtain ⟨hr, hl⟩ := stopTime_spec (entryStops true reason s)
  simp only [lowEntry, decide_true]
  generalize hu : setPhase _ (stopTime (entryStops true reason s)) = u
  have hv := (voted_entryOpens (entryLanes u)).trans (kept_entryLanes u).voted
  generalize entryOpens (entryLanes u) = w at hv ⊢
  obtain ⟨-, ht, -, hline, -⟩ := id hv
  refine ⟨hv.phase.trans ?_, (congrArg Time.running ht).trans ?_, (congrArg Line.cur hline).trans ?_⟩
  · rw [← hu, setPhase_pwr]
    rfl
  · rw [← hu]
    simpa using hr
  · rw [← hu, (setPhase_frame _ _).2.2.2.2.2.2.2.2.1, hl]
    rfl

theorem deepImage_spec (s : State) : (deepImage s).pwr.phase = s.pwr.phase ∧ (deepImage s).time.running = false ∧
    (deepImage s).line.cur = none := ⟨rfl, rfl, rfl⟩

theorem loseAll_spec (s : State) : (loseAll s).pwr.phase = s.pwr.phase ∧ (loseAll s).time.running = false ∧
    (loseAll s).line.cur = none := ⟨rfl, rfl, rfl⟩

theorem lowEntry_off {target : PState} (hx : target = .deep ∨ target = .off) (reason : Nat) (r : Option PwrReq) (s : State) :
    (lowEntry target reason r s).pwr.phase = .entry target (entryOrigin s.pwr.phase) ∧
      (lowEntry target reason r s).time.running = false ∧ (lowEntry target reason r s).line.cur = none := by
  rcases hx with rfl | rfl
  · simp only [lowEntry, if_true, reduceCtorEq, if_false, deepImage_spec, setPhase_pwr, and_self]
    exact ⟨rfl, trivial⟩
  · simp only [lowEntry, if_true, reduceCtorEq, if_false, loseAll_spec, setPhase_pwr, and_self]
    exact ⟨rfl, trivial⟩

end Sys2Proof.Machine

end


section

/-! ## Domains that close or fail (R356, R357, R364) -/

namespace Sys2Proof.Machine

open Sys2Proof

theorem rising_powered {d : Dom} {s : State} (h : rising d s = true) : domIn s.pwr.powered d = false := by
  simp only [rising, Bool.and_eq_true, Bool.not_eq_true'] at h
  exact h.1.2

theorem exec_domainPowerGood {d : Dom} {s : State} (h : rising d s = true) :
    ∃ u, exec (.domainPowerGood d) s = .next u ∧ domIn u.pwr.powered d = true := by
  refine ⟨_, congrArg Host.Outcome.next (if_pos h), ?_⟩
  rw [closeNext_pwr]
  exact (congrArg (fun p : Pwr => domIn p.powered d) (kept_domUp d _).1).trans (domIn_or_self _ _)

/-- R364: a failed attempt before the last opens the domain and waits to try again. -/
theorem attemptFails_retry {d : Dom} {osc : Bool} {s : State} (hd : domIn s.pwr.powered d = false ∨ d = .mgmt)
    (ha : s.pwr.attempts < 3) : (attemptFails d osc s).pwr.retryDue = true ∧
      (attemptFails d osc s).pwr.attempts = s.pwr.attempts + 1 ∧ domIn (attemptFails d osc s).pwr.closed d = false := by
  have ho := openDom_plain (s := { s with pwr := { s.pwr with attempts := s.pwr.attempts + 1 } }) hd
  have hn : s.pwr.attempts + 1 < 4 := by omega
  unfold attemptFails
  dsimp only
  rw [if_pos hn, ho]
  exact ⟨rfl, rfl, domIn_and_not_self _ d⟩

/-- The state in which the fourth attempt has failed: the domain open, the attempts begun anew. -/
def spentState (d : Dom) (s : State) : State := { s with pwr := { s.pwr with
  closed := s.pwr.closed &&& ~~~ domBit d, powered := s.pwr.powered &&& ~~~ domBit d, held := s.pwr.held &&& ~~~ domBit d,
  attempts := 0 } }

theorem attemptFails_steady {d : Dom} {st : PState} {s : State} (hd : domIn s.pwr.powered d = false) (ha : s.pwr.attempts = 3)
    (hp : s.pwr.phase = .steady st) : attemptFails d false s = domFails d (spentState d s) := by
  have ho := openDom_plain (s := { s with pwr := { s.pwr with attempts := s.pwr.attempts + 1 } }) (.inl hd)
  have hn : ¬ s.pwr.attempts + 1 < 4 := by omega
  unfold attemptFails
  dsimp only
  rw [if_neg hn, ho]
  split
  · rfl
  next h => cases hp.symm.trans h
  next h _ => exact absurd hp (h st)

theorem attemptFails_boot {d : Dom} {k : Nat} {s : State} (hd : domIn s.pwr.powered d = false) (ha : s.pwr.attempts = 3)
    (hp : s.pwr.phase = .boot k) :
    attemptFails d false s = sequenceFails 0x01 (BitVec.ofNat 8 (domCode d)) (spentState d s) := by
  have ho := openDom_plain (s := { s with pwr := { s.pwr with attempts := s.pwr.attempts + 1 } }) (.inl hd)
  have hn : ¬ s.pwr.attempts + 1 < 4 := by omega
  unfold attemptFails
  dsimp only
  rw [if_neg hn, ho]
  split
  next h => cases hp.symm.trans h
  next h => cases hp.symm.trans h
  · rfl

/-- R357: a domain that fails in a steady state is left open, with CODE 0x01. -/
theorem domFails_spec (d : Dom) (s : State) : domIn (domFails d s).pwr.failed d = true ∧ (domFails d s).aon.valid = true ∧
    (domFails d s).aon.code = 0x01 := by
  have hk := kept_notify 0x0204 (BitVec.ofNat 16 (domCode d)) none (ev [fld 20 1 4])
    (recordFault 0x01 (BitVec.ofNat 8 (domCode d)) { s with pwr := { s.pwr with failed := s.pwr.failed ||| domBit d } })
  obtain ⟨-, hv, hc, -⟩ := ((voted_closeNext _).trans hk.voted).2.2.2.2.2.1.regs
  refine ⟨?_, hv, hc⟩
  rw [domFails, closeNext_pwr]
  exact (congrArg (fun p : Pwr => domIn p.failed d) hk.1).trans (domIn_or_self _ _)

theorem recordFault_code (code source : Byte) (s : State) :
    (recordFault code source s).aon.valid = true ∧ (recordFault code source s).aon.code = code := ⟨rfl, rfl⟩

/-- R364: a cold start whose sequence fails ends in OFF, with the code given. -/
theorem sequenceFails_boot {k : Nat} {s : State} (hp : s.pwr.phase = .boot k) (code source : Byte) :
    (sequenceFails code source s).pwr.phase = .entry .off .off ∧ (sequenceFails code source s).aon.valid = true ∧
      (sequenceFails code source s).aon.code = code := by
  have hl := (lowEntry_off (.inr rfl) 0 none s).1
  rw [hp] at hl
  simp only [sequenceFails, hp, recordFault_frame, recordFault_code]
  exact ⟨hl, trivial, trivial⟩

theorem exec_powerRetry_warden {s : State} (hr : s.pwr.retryDue = true) (hp : s.pins.resetLow = false) (hw : awaitsWarden s = true) :
    exec .powerRetry s = .next (closeDom .mgmt { s with pwr := { s.pwr with retryDue := false } }) := by
  simp only [exec, execPowerRetry, hr, hp, hw, Bool.not_false, Bool.and_self, if_true]

/-- Settles O52: a rising domain is not powered, so that opening it writes the sequencer's words alone; the failures are those
of a steady state and of a cold start. -/
theorem powerDomains : Obligations.PowerDomains := by
  unfold Obligations.PowerDomains
  refine ⟨?_, ?_, ?_, ?_, ?_, ?_, ?_⟩
  · intro d s
    refine ⟨exec_domainPowerGood, fun h => ?_⟩
    simp [exec, execDomainPowerGood, h]
  · intro d s hr
    have hd := rising_powered hr
    have hx : exec (.powerGoodTimeout d false) s = .next (attemptFails d false s) := congrArg Host.Outcome.next (if_pos hr)
    refine ⟨fun ha => ⟨_, hx, attemptFails_retry (.inl hd) ha⟩, fun st hp ha => ⟨_, hx, ?_⟩, fun k hp ha => ⟨_, hx, ?_⟩⟩
    · rw [attemptFails_steady hd ha hp]
      exact domFails_spec d _
    · rw [attemptFails_boot hd ha hp]
      exact sequenceFails_boot (s := spentState d s) hp 0x01 (BitVec.ofNat 8 (domCode d))
  · intro d s
    refine ⟨fun h => ?_, fun h => ?_⟩
    · simp [exec, execPowerGoodTimeout, h]
    · simp [exec, execPowerGoodTimeout, h]
  · intro s hw hm ha
    have hx : exec (.powerGoodTimeout .mgmt true) s = .next (attemptFails .mgmt true s) := by
      simp only [exec, execPowerGoodTimeout, hw, hm, decide_true, Bool.and_self, if_true]
    exact ⟨_, hx, attemptFails_retry (.inr rfl) ha⟩
  · intro s hr hp hw
    exact ⟨_, exec_powerRetry_warden hr hp hw, domIn_or_self _ _, rfl⟩
  · intro s h
    simp [exec, execPowerRetry, h]
  · intro e s he hv ht hm
    refine ⟨fun h => ?_, fun h => ?_⟩
    · refine ⟨revote { s with pwr := { s.pwr with mmVote := false, mmVoteEnd := none } }, ?_, revote_noMmVote ⟨rfl, rfl⟩⟩
      simp [exec, execMmVoteExpire, he, hv, ht, hm, h]
    · simp [exec, execMmVoteExpire, he, Nat.not_le.mpr h]

/-! ## The steps of a cold start (R33, R34) -/

theorem kept_logLost (s : State) : Kept (logLost s) s := by
  unfold logLost
  extract_lets low
  split
  · exact kept_logEntry _ _ _ _ s
  · exact kept_refl s

theorem kept_raiseFallback (s : State) : Kept (raiseFallback s) s := by
  unfold raiseFallback
  split
  · exact (kept_notify _ _ _ _ _).trans (kept_refl s)
  · exact kept_refl s

theorem setReady_ready (b : Bool) (s : State) : (setReady b s).hif.ready = b ∧ (setReady b s).hif.recovery = s.hif.recovery := by
  unfold setReady
  dsimp only
  split
  · exact ⟨rfl, rfl⟩
  · exact setCause_ready _ _

theorem pathUp_spec (s : State) : (pathUp s).pwr = s.pwr ∧ (pathUp s).hif.ready = true := by
  unfold pathUp
  extract_lets v _ _ s1
  have hr : s1.hif.ready = true := (setReady_ready true _).1
  have hk : Kept (raiseFallback (if s.aon.valid = true then setCause causeFault s1 else s1)) s1 := by
    refine (kept_raiseFallback _).trans ?_
    split
    · exact kept_setCause _ s1
    · exact kept_refl s1
  obtain ⟨hp, -, -, -, -, -, hready, -⟩ := hk
  refine ⟨hp.trans ?_, hready.trans hr⟩
  exact (setReady_frame true _).2.2.2.2.2.2.2.2.1

/-! ### Step 3: the warden starts (R80) -/

theorem bootChoice_pref {s : State} (ht : s.aon.trial = false) (hb : bootable s.aon.pref s = true) :
    bootChoice s = (some s.aon.pref, s.flash.trialRuns, false) := by
  simp [bootChoice, ht, hb]

theorem bootChoice_none {s : State} (ht : s.aon.trial = false) (hb : bootable s.aon.pref s = false)
    (hb' : bootable (!s.aon.pref) s = false) : bootChoice s = (none, false, false) := by
  simp [bootChoice, ht, hb, hb']

theorem setPhase_recovery (p : Phase) (s : State) : (setPhase p s).hif.recovery = s.hif.recovery := by
  unfold setPhase
  dsimp only
  split
  · rfl
  · exact (setCause_ready _ _).2

/-- R33: the warden starts from a slot: READY and the recovery state end, the start is counted. -/
theorem wardenStart_slot {b f t : Bool} {s : State} (hc : bootChoice s = (some b, f, t)) (hp : s.pwr.phase = .boot 2) :
    ∃ u, wardenStart s = logLost u ∧ u.pwr.phase = .boot 3 ∧ u.aon.running = b ∧ u.hif.ready = false ∧ u.hif.recovery = false ∧
      u.aon.boots = s.aon.boots + 1 := by
  refine ⟨_, rfl, ?_⟩
  simp only [hc, hp, Option.isNone_some, Option.getD_some, Bool.false_eq_true, if_false, setPhase_pwr, setPhase_ready,
    setPhase_frame]
  cases f <;> exact ⟨trivial, rfl, rfl, setPhase_recovery _ _, rfl⟩

/-- R80: with no image that can boot the warden starts in the recovery state, with CODE 0x05. -/
theorem wardenStart_recovery {t : Bool} {s : State} (hc : bootChoice s = (none, false, t)) :
    ∃ u, wardenStart s = logLost u ∧ u.hif.recovery = true ∧ u.hif.ready = true ∧ u.aon.last = 2 ∧ u.aon.valid = true ∧
      u.aon.code = 0x05 := by
  refine ⟨_, rfl, ?_⟩
  simp only [hc, Option.isNone_none, if_true]
  refine ⟨(setCause_ready _ _).2.trans (setReady_ready _ _).2, (setCause_ready _ _).1.trans (setReady_ready _ _).1, ?_⟩
  simp only [setCause_frame, setReady_frame, setPhase_frame]
  exact ⟨rfl, rfl, rfl⟩

theorem AonKept.boot {a b : Aon} (h : AonKept a b) : a.running = b.running ∧ a.boots = b.boots ∧ a.last = b.last := by
  rw [h]
  exact ⟨rfl, rfl, rfl⟩

theorem exec_wardenStart {s : State} (hp : s.pwr.phase = .boot 2) (hm : domIn s.pwr.powered .mgmt = true) (hc : s.aon.coppice = 0)
    (hr : s.pins.resetLow = false) :
    exec .wardenStart s = .next (wardenStart { s with pwr := { s.pwr with attempts := 0 } }) := by
  have hw : awaitsWarden s = true := by simp [awaitsWarden, hp]
  have hh : sequenceHeld s = false := by simp [sequenceHeld, hp, hc]
  exact congrArg Host.Outcome.next (if_pos (by simp only [hw, hm, hh, hr, Bool.not_false, Bool.and_self, Bool.or_true]))

theorem exec_wardenStart_slot {s : State} (hp : s.pwr.phase = .boot 2) (hm : domIn s.pwr.powered .mgmt = true)
    (hc : s.aon.coppice = 0) (hr : s.pins.resetLow = false) (ht : s.aon.trial = false) (hb : bootable s.aon.pref s = true) :
    ∃ u, exec .wardenStart s = .next u ∧ u.pwr.phase = .boot 3 ∧ u.aon.running = s.aon.pref ∧ u.hif.ready = false ∧
      u.hif.recovery = false ∧ u.aon.boots = s.aon.boots + 1 := by
  have hbc : bootChoice { s with pwr := { s.pwr with attempts := 0 } } = _ := bootChoice_pref ht hb
  obtain ⟨u, hu, hph, hrun, hready, hrec, hboots⟩ := wardenStart_slot hbc hp
  obtain ⟨kp, -, -, -, -, ka, kr, kq⟩ := kept_logLost u
  obtain ⟨hrun', hboots', -⟩ := ka.boot
  refine ⟨logLost u, by rw [exec_wardenStart hp hm hc hr, hu], ?_, hrun'.trans hrun, kr.trans hready, kq.trans hrec,
    hboots'.trans hboots⟩
  rw [kp, hph]

theorem exec_wardenStart_recovery {s : State} (hp : s.pwr.phase = .boot 2) (hm : domIn s.pwr.powered .mgmt = true)
    (hc : s.aon.coppice = 0) (hr : s.pins.resetLow = false) (ht : s.aon.trial = false) (hb : bootable s.aon.pref s = false)
    (hb' : bootable (!s.aon.pref) s = false) :
    ∃ u, exec .wardenStart s = .next u ∧ u.hif.recovery = true ∧ u.hif.ready = true ∧ u.aon.last = 2 ∧ u.aon.valid = true ∧
      u.aon.code = 0x05 := by
  have hbc : bootChoice { s with pwr := { s.pwr with attempts := 0 } } = _ := bootChoice_none ht hb hb'
  obtain ⟨u, hu, hrec, hready, hlast, hvalid, hcode⟩ := wardenStart_recovery hbc
  obtain ⟨-, -, -, -, -, ka, kr, kq⟩ := kept_logLost u
  obtain ⟨-, hval', hcode', -⟩ := ka.regs
  obtain ⟨-, -, hlast'⟩ := ka.boot
  exact ⟨logLost u, by rw [exec_wardenStart hp hm hc hr, hu], kq.trans hrec, kr.trans hready, hlast'.trans hlast,
    hval'.trans hvalid, hcode'.trans hcode⟩

/-! ### Steps 2 and 4 to 7 -/

theorem sequenceHeld_boot {k : Nat} {s : State} (hp : s.pwr.phase = .boot k) : sequenceHeld s = decide (0 < s.aon.coppice) := by
  rw [sequenceHeld, hp]

theorem exec_vin12HoldConfirmed {mv : Nat} {s : State} (hp : s.pwr.phase = .boot 2) (hmv : 11400 ≤ mv) (hv : s.pins.vsbValid = true)
    (hr : s.pins.resetLow = false) (hc : domIn s.pwr.closed .mgmt = false) (hd : s.pwr.retryDue = false) :
    ∃ u, exec (.vin12HoldConfirmed mv) s = .next u ∧ domIn u.pwr.closed .mgmt = true ∧ u.aon.coppice = 0 ∧ u.pins.vinMv = mv := by
  have h1 : (decide (11400 ≤ mv) && s.pins.vsbValid) = true := by simp [hmv, hv]
  have h2 : (!domIn s.pwr.closed .mgmt && !s.pwr.retryDue && !s.pins.resetLow) = true := by simp [hr, hc, hd]
  have hx : exec (.vin12HoldConfirmed mv) s = execVin12HoldConfirmed mv s := rfl
  rw [hx, execVin12HoldConfirmed, if_pos h1, if_pos hp, if_pos h2]
  refine ⟨_, rfl, domIn_or_self _ _, rfl, ?_⟩
  unfold measureVin
  split <;> rfl

theorem exec_commandPathReady {s : State} (hp : s.pwr.phase = .boot 3) (hr : s.hif.ready = false) (hq : s.hif.recovery = false)
    (hc : s.aon.coppice = 0) (hd : s.flash.bootDue = false) : ∃ u, exec .commandPathReady s = .next u ∧ u.pwr.phase = .boot 4 ∧
      u.hif.ready = true ∧ u.pwr.bootVote = true := by
  have hh : sequenceHeld s = false := by simp [sequenceHeld_boot hp, hc]
  obtain ⟨hpw, hready⟩ := pathUp_spec (setPhase (.boot 4) s)
  have hv := voted_revote (let s1 := pathUp (setPhase (.boot 4) s); { s1 with pwr := { s1.pwr with bootVote := true } })
  refine ⟨revote (let s1 := pathUp (setPhase (.boot 4) s); { s1 with pwr := { s1.pwr with bootVote := true } }), ?_, ?_, ?_, ?_⟩
  · simp only [exec, execCommandPathReady, hr, hq, hh, hd, hp, Bool.or_self, Bool.false_eq_true, if_false]
  · exact hv.phase.trans (by simp only [hpw, setPhase_pwr])
  · exact hv.2.2.2.2.2.2.1.trans hready
  · exact hv.bootVote

theorem exec_lineTimeStart {s : State} (hp : s.pwr.phase = .boot 4) (ho : s.ref.ovenFrom.isSome = true) (hd : domainsUp s = true) :
    ∃ u, exec .lineTimeStart s = .next u ∧ u.pwr.phase = .boot 5 ∧ u.time.running = true ∧ u.time.lts = Lts.zero ∧
      u.time.rate = 272000000 := by
  refine ⟨_, congrArg Host.Outcome.next (if_pos (by simp [hp, ho, hd])), ?_⟩
  simp only [anchorTasks, setPhase_pwr, setPhase_frame]
  exact ⟨trivial, trivial, trivial, rfl⟩

theorem itemDone_pwr (dom item : Nat) (s : State) : (itemDone dom item s).pwr = s.pwr := by
  have hs : ∀ t : State, (staleNote dom item false t).pwr = t.pwr := by
    intro t
    unfold staleNote
    split <;> simp
  have hm : ∀ (f : CalItem → CalItem) (t : State), (modItem dom item f t).pwr = t.pwr := by
    intro f t
    unfold modItem setChan
    split
    · dsimp only
      split <;> rfl
    · rfl
  unfold itemDone
  dsimp only
  split
  · rw [hs, hm]
    split <;> rfl
  · rw [hm]
    split <;> rfl

theorem foldl_pwr {α : Type} {f : State → α → State} (hf : ∀ s x, (f s x).pwr = s.pwr) (l : List α) (s : State) :
    (l.foldl f s).pwr = s.pwr := by
  induction l generalizing s with
  | nil => rfl
  | cons x l ih => exact (ih _).trans (hf s x)

theorem allCalibrated_pwr (s : State) : (allCalibrated s).pwr = s.pwr :=
  foldl_pwr (fun s _ => foldl_pwr (fun s _ => itemDone_pwr _ _ s) _ s) _ s

theorem monTrim_pwr (s : State) (i : Nat) : (monTrim i s).pwr = s.pwr := rfl

/-- The first calibration writes nothing of the sequencer. -/
theorem firstCalibration_pwr (s : State) :
    (drawMany 64 ((List.range 32).foldl (fun s i => monTrim i s) (allCalibrated s))).pwr = s.pwr := by
  have hd : ∀ t : State, (drawMany 64 t).pwr = t.pwr := fun _ => rfl
  rw [hd, foldl_pwr monTrim_pwr, allCalibrated_pwr]

theorem exec_firstCalibrationDone {s : State} (hp : s.pwr.phase = .boot 5) (hc : s.aon.coppice = 0) :
    ∃ u, exec .firstCalibrationDone s = .next u ∧ u.pwr.phase = .boot 6 := by
  have hh : sequenceHeld s = false := by simp [sequenceHeld_boot hp, hc]
  refine ⟨_, by simp only [exec, execFirstCalibrationDone, hh, hp, Bool.false_eq_true, if_false]; rfl, ?_⟩
  rw [firstCalibration_pwr, setPhase_pwr]

theorem serveHeld_none {s : State} (h : s.pwr.heldReq = none) : serveHeld s = s := by
  unfold serveHeld
  rw [h]
  exact ite_self s

theorem freezeIfLow_high {s : State} (h : s.pins.freezeLow = false) : freezeIfLow s = s := by
  simp [freezeIfLow, h]

/-- A change of the state writes the phase and the stamp of the change; the notification leaves the rest. -/
theorem reached_kept (old : Nat) (st : PState) (s : State) : Kept (reached old st s) { s with pwr := { s.pwr with
    phase := .steady st, lastChange := (nowLts (setPhase (.steady st) s)).sf } } := by
  refine (kept_notify _ _ _ _ _).trans ⟨?_, ?_, ?_, ?_, ?_, ?_, setPhase_ready _ s, setPhase_recovery _ s⟩
  · simp only [setPhase_pwr]
  · exact (setPhase_frame _ s).2.2.1
  · exact (setPhase_frame _ s).2.2.2.1
  · exact (setPhase_frame _ s).2.2.2.2.2.2.2.2.1
  · simp only [setPhase_frame]
  · simp only [setPhase_frame]
    rfl

theorem exec_enterRun {s : State} (hp : s.pwr.phase = .boot 6) (hc : s.aon.coppice = 0) (hh : s.pwr.heldReq = none)
    (hf : s.pins.freezeLow = false) : ∃ u, exec .enterRun s = .next u ∧ u.pwr.phase = .steady .run ∧ u.hs.started = true ∧
      u.pwr.bootVote = false := by
  have hsh : sequenceHeld s = false := by simp [sequenceHeld_boot hp, hc]
  have hx : exec .enterRun s = execEnterRun s := rfl
  rw [hx, execEnterRun, if_pos (by simp [hp, hsh])]
  have hk := reached_kept 0xE .run { s with pwr := { s.pwr with bootVote := false }, hs := { s.hs with started := true } }
  generalize reached 0xE .run { s with pwr := { s.pwr with bootVote := false }, hs := { s.hs with started := true } } = s1 at hk
  dsimp only
  have hv := (voted_revote _).trans
    ((kept_notify 0x0101 (Config.freeSource 0x0101) none (ev [fld 20 4 s1.hif.fwver.toNat]) s1).trans hk).voted
  obtain ⟨-, -, hpins, -, hst, -⟩ := id hv
  rw [serveHeld_none (hv.requests.2.1.trans hh), freezeIfLow_high (by rw [hpins]; exact hf)]
  exact ⟨_, rfl, hv.phase, hst, hv.bootVote⟩

/-- Settles O53: each step's command in its phase, with what the step writes and what the work after it leaves as it is. -/
theorem bootSteps : Obligations.BootSteps := by
  unfold Obligations.BootSteps
  refine ⟨?_, ?_, ?_, ?_, ?_, ?_, ?_, ?_⟩
  · intro s hp hv
    refine ⟨fun hr => ?_, fun hr => ?_⟩
    · refine ⟨_, congrArg Host.Outcome.next (if_pos (by simp [hp, hv, hr])), ?_⟩
      simp only [setPhase_pwr]
      exact ⟨trivial, trivial⟩
    · simp [exec, execColdStart, hr]
  · exact fun mv s hp hmv hv hr hc hd => exec_vin12HoldConfirmed hp hmv hv hr hc hd
  · intro s hp hm hc hr _ ht
    exact ⟨fun hb => exec_wardenStart_slot hp hm hc hr ht hb, fun hb hb' => exec_wardenStart_recovery hp hm hc hr ht hb hb'⟩
  · exact fun s hp hr hq hc hd => exec_commandPathReady hp hr hq hc hd
  · exact fun s hp ho hd => exec_lineTimeStart hp ho hd
  · exact fun s hp hc => exec_firstCalibrationDone hp hc
  · exact fun s hp hc hh hf => exec_enterRun hp hc hh hf
  · intro s hc hp
    have hh : sequenceHeld s = true := by simp [sequenceHeld_boot hp, hc]
    simp [exec, execEnterRun, hh]

end Sys2Proof.Machine

end


section

/-! ## Resets, VSB33, PERST, trial images and the watchdog -/

namespace Sys2Proof.Machine

open Sys2Proof

/-- A reset acts: the module at step 1, with the always-on domain's sluice alone closed. -/
theorem resetActs_spec (s : State) : (resetActs s).pwr.phase = .boot 1 ∧ (resetActs s).pins = (flushHoldUp s).pins ∧
    (resetActs s).hif.ready = false ∧ (resetActs s).time.running = false ∧ (resetActs s).tribs = [] ∧
    (resetActs s).pwr.powered = 1 := by
  simp only [resetActs, setPhase_pwr, setPhase_ready, setPhase_frame]
  exact ⟨trivial, rfl, rfl, rfl, rfl, trivial⟩

theorem exec_resetAssert {n : Nat} {s : State} (hv : s.pins.vsbValid = true) (hp : s.pwr.phase ≠ .orderlyOff) (hn : 10000 ≤ n) :
    exec (.resetAssert n) s = .next (resetActs (nextDraw { s with pins := { s.pins with resetLow := true } })) := by
  have h1 : ¬ (n < 1000 ∨ s.pins.vsbValid = false) := by
    simp only [hv, Bool.true_eq_false, or_false]
    omega
  have hx : exec (.resetAssert n) s = execResetAssert n s := rfl
  rw [hx, execResetAssert, if_neg h1, if_pos (by simp [hn]), if_neg hp]

theorem restartFromStep3_spec (s : State) : (restartFromStep3 s).aon = s.aon ∧
    (restartFromStep3 s).flash.trialRuns = s.flash.trialRuns ∧ (restartFromStep3 s).hif.ready = false := by
  simp only [restartFromStep3, setPhase_ready, setPhase_frame]
  exact ⟨rfl, rfl, rfl⟩

theorem restartWarden_spec (s : State) : (restartWarden s).aon = s.aon ∧ (restartWarden s).flash.trialRuns = s.flash.trialRuns ∧
    (restartWarden s).hif.ready = false := by
  have hr := (setReady_ready false (discardCommands s)).1
  simp only [restartWarden, setReady_frame]
  exact ⟨rfl, rfl, hr⟩

/-- A fall-back takes the trial away, and READY with it, wherever the warden stands. -/
theorem fallBack_spec (s : State) : (fallBack s).aon.trial = false ∧ (fallBack s).flash.trialRuns = true ∧
    (fallBack s).hif.ready = false := by
  unfold fallBack
  extract_lets _ _ s1
  split
  · obtain ⟨ha, ht, hr⟩ := restartFromStep3_spec s1
    exact ⟨by rw [ha], ht, hr⟩
  · refine ⟨?_, ?_, ?_⟩
    · simp only [setPhase_frame, setReady_frame]
      rfl
    · simp only [setPhase_frame, setReady_frame]
      rfl
    · rw [setPhase_ready]
      exact (setReady_ready _ _).1
  · obtain ⟨ha, ht, hr⟩ := restartWarden_spec s1
    exact ⟨by rw [ha], ht, hr⟩

/-- Settles O54: a reset, the loss of VSB33 and a fall-back each leave what their own lemma says. -/
theorem resets : Obligations.Resets := by
  unfold Obligations.Resets
  refine ⟨?_, ?_, ?_, ?_, ?_, ?_, ?_⟩
  · intro n s hv hp
    refine ⟨fun hn => congrArg Host.Outcome.next (if_pos (.inl hn)), fun hn => ⟨_, exec_resetAssert hv hp hn, ?_⟩⟩
    obtain ⟨h1, h2, h3, h4, h5, h6⟩ := resetActs_spec (nextDraw { s with pins := { s.pins with resetLow := true } })
    refine ⟨h1, ?_, h3, h4, h5, h6⟩
    rw [h2]
    exact congrArg Pins.resetLow (flushEntries_frame _ _).2.2.2.1
  · intro s hp hv hr
    refine ⟨_, congrArg Host.Outcome.next (if_pos (by simp [hp, hv, hr])), ?_⟩
    simp only [setPhase_pwr, setPhase_frame]
    exact ⟨trivial, trivial⟩
  · intro mv s
    refine ⟨fun hm hv => ?_, fun h => ?_, fun hm hv => ?_, fun hm => ?_⟩
    · exact ⟨_, congrArg Host.Outcome.next (if_pos (by simp [hm, hv])), rfl, rfl, rfl, rfl⟩
    · refine congrArg Host.Outcome.next (if_neg ?_)
      rcases h with h | h
      · simp [h]
      · simp [Nat.not_le.mpr h]
    · exact ⟨_, congrArg Host.Outcome.next (if_pos (by simp [hm, hv])), rfl, rfl, rfl, rfl, rfl, rfl⟩
    · exact congrArg Host.Outcome.next (if_neg (by simp [Nat.not_lt.mpr hm]))
  · intro b s
    refine ⟨fun hr hv => ?_, fun hr => ?_⟩
    · simp [exec, execPciePerst, hr, hv]
    · simp [exec, execPciePerst, hr]
  · intro s
    refine ⟨fun ha hr hw => ⟨_, congrArg Host.Outcome.next (if_pos (by simp [ha, hr, hw])), fallBack_spec s⟩, fun h => ?_⟩
    refine congrArg Host.Outcome.next (if_neg ?_)
    rcases h with h | h <;> simp [h]
  · intro s hw hr hd ht
    obtain ⟨h1, -, h3⟩ := fallBack_spec s
    refine ⟨fallBack s, ?_, h1, h3⟩
    simp [exec, execWardenWatchdogExpire, hw, hr, hd, ht]
  · intro s hw hr hd ht
    refine ⟨?_, rfl, rfl⟩
    simp [exec, execWardenWatchdogExpire, hw, hr, hd, ht]

end Sys2Proof.Machine

end


section

/-! ## Entries to and exits from the low states, and WATCH -/

namespace Sys2Proof.Machine

open Sys2Proof

/-! ### The entry and the end of its window (R358, R360) -/

theorem steadyState_of {st : PState} {s : State} (hp : s.pwr.phase = .steady st) : steadyState s = some st := by
  rw [steadyState, hp]

theorem lowEntry_spec {target st : PState} (hx : target = .sleep ∨ target = .deep ∨ target = .off) (reason : Nat)
    (r : Option PwrReq) {s : State} (hp : s.pwr.phase = .steady st) :
    (lowEntry target reason r s).pwr.phase = .entry target st ∧ (lowEntry target reason r s).time.running = false ∧
      (lowEntry target reason r s).line.cur = none := by
  have ho : entryOrigin s.pwr.phase = st := by
    rw [hp]
    rfl
  rw [← ho]
  rcases hx with rfl | hx
  · exact lowEntry_sleep reason r s
  · exact lowEntry_off hx reason r s

/-- The state in which an entry begins, with the request it serves. -/
theorem exec_lowStateEntry {r : PwrReq} {st : PState} {s : State} (hq : s.pwr.req = some r) (hp : s.pwr.phase = .steady st)
    (hx : r.target = .sleep ∨ r.target = .deep ∨ r.target = .off) (hd : r.due.le (nowLts s) = true) (hc : s.line.change = none)
    (hf : s.dbg.frozen = false) (hs : deferredSet s = false) : ∃ b, exec .lowStateEntry s =
      .next (lowEntry r.target 0 (some r) { s with pwr := { s.pwr with restoreAt7 := b } }) := by
  have hlow : (decide (r.target = .sleep) || decide (r.target = .deep) || decide (r.target = .off)) = true := by
    rcases hx with h | h | h <;> rw [h] <;> rfl
  have hgo : ((decide (r.target = .sleep) || decide (r.target = .deep) || decide (r.target = .off)) && r.due.le (nowLts s) &&
      s.line.change.isNone && !s.dbg.frozen) = true := by
    rw [hlow, hd, hc, hf]
    rfl
  refine ⟨s.pwr.restoreAt7 && inSleep s, ?_⟩
  simp only [exec, execLowStateEntry]
  split
  next r' st' hr' hst' =>
    cases hq.symm.trans hr'
    rw [if_pos hgo, hs]
    rfl
  next h => exact absurd (steadyState_of hp) (h r st hq)

theorem entryAnswer_spec (target origin : PState) (s : State) :
    Kept (entryAnswer target origin s) { s with pwr := { s.pwr with req := none } } := by
  unfold entryAnswer
  split
  next h =>
    refine ⟨?_, rfl, rfl, rfl, rfl, rfl, rfl, rfl⟩
    rw [← h]
  · dsimp only
    split
    · split
      · exact kept_answerLate (fun s => kept_respond _ _ _ _ _ s) _
      · exact kept_refl _
    · exact kept_pwrReply _ _ _ _

theorem sampleLevels_idle {s : State} (hw : s.pins.wakeLow = false) (ha : s.aon.supplyArmed = false) : sampleLevels s = s := by
  simp [sampleLevels, hw, ha]

theorem setPhase_kept (p : Phase) (s : State) : Kept (setPhase p s) { s with pwr := { s.pwr with phase := p } } := by
  unfold setPhase
  dsimp only
  split
  · exact kept_refl _
  · exact kept_setCause _ _

/-- The end of an entry's window: the phase is that of the target, whatever is noted. -/
theorem entryPhase_kept (target origin : PState) (s : State) : ∃ sf : Sf,
    Kept (if target = origin then setPhase (.steady target) s else reached (stateCode origin) target s)
      { s with pwr := { s.pwr with phase := .steady target, lastChange := sf } } := by
  split
  · exact ⟨s.pwr.lastChange, setPhase_kept _ s⟩
  · exact ⟨_, reached_kept _ _ s⟩

theorem exec_entryWindowEnd {target origin : PState} {s : State} (hp : s.pwr.phase = .entry target origin)
    (hh : s.pwr.heldReq = none) (hw : s.pins.wakeLow = false) (ha : s.aon.supplyArmed = false) :
    ∃ u, exec .entryWindowEnd s = .next u ∧ u.pwr.phase = .steady target ∧ u.pwr.req = none := by
  obtain ⟨sf, hk⟩ := entryPhase_kept target origin s
  have hx : exec .entryWindowEnd s = .next (sampleLevels (serveHeld (entryAnswer target origin
      (let s1 := if target = origin then setPhase (.steady target) s else reached (stateCode origin) target s
       { s1 with pwr := { s1.pwr with watchNext := if target = .watch then nowSf s else s1.pwr.watchNext } })))) := by
    simp only [exec, execEntryWindowEnd]
    split
    next t o h =>
      cases hp.symm.trans h
      rfl
    next h => exact absurd hp (h target origin)
  rw [hx]
  generalize (if target = origin then setPhase (.steady target) s else reached (stateCode origin) target s) = s1 at hk
  dsimp only
  obtain ⟨p1, -, i1, -, -, a1, -⟩ := hk
  obtain ⟨p2, -, i2, -, -, a2, -⟩ := entryAnswer_spec target origin
    { s1 with pwr := { s1.pwr with watchNext := if target = .watch then nowSf s else s1.pwr.watchNext } }
  rw [serveHeld_none (by rw [p2, p1]; exact hh),
    sampleLevels_idle (by rw [i2, i1]; exact hw) (a2.regs.2.2.2.2.trans (a1.regs.2.2.2.2.trans ha))]
  exact ⟨_, rfl, by rw [p2, p1], by rw [p2]⟩

/-! ### The exits (R353, R362, R363) -/

theorem exec_wakeAccept_deep {r : PwrReq} {s : State} (hq : s.pwr.req = some r) (hr : r.target = .run)
    (hp : s.pwr.phase = .steady .deep) (hc : s.aon.coppice = 0) : ∃ u, exec .wakeAccept s = .next u ∧
      u.pwr.phase = .exit .deep 1 ∧ domIn u.pwr.closed .mgmt = true ∧ u.pwr.req = none := by
  have hh : sequenceHeld (setPhase (.exit .deep 1) { s with pwr := { s.pwr with req := none, attempts := 0, retryDue := false } }) = false := by
    simp [sequenceHeld, hc]
  refine ⟨closeDom .mgmt (setPhase (.exit .deep 1) { s with pwr := { s.pwr with req := none, attempts := 0, retryDue := false } }),
    ?_, ?_, domIn_or_self _ _, ?_⟩
  · simp only [exec, execWakeAccept]
    rw [hq]
    simp only [hr, ne_eq, not_true_eq_false, if_false]
    split
    next h => cases hp.symm.trans h
    · rw [hh]
      rfl
    next h => cases hp.symm.trans h
    next h _ => exact absurd hp h
  · simp only [closeDom, setPhase_pwr]
  · simp only [closeDom, setPhase_pwr]

theorem exec_wakeAccept_sleep {r : PwrReq} {s : State} (hq : s.pwr.req = some r) (hr : r.target = .run)
    (hp : s.pwr.phase = .steady .sleep) : exec .wakeAccept s = .next (setPhase (.exit .sleep 1) s) := by
  simp only [exec, execWakeAccept]
  rw [hq]
  simp only [hr, ne_eq, not_true_eq_false, if_false]
  rw [hp]

theorem exec_wakeAccept_off {r : PwrReq} {s : State} (hq : s.pwr.req = some r) (hr : r.target = .run)
    (hp : s.pwr.phase = .steady .off) :
    exec .wakeAccept s = .next (setPhase (.boot 1) { s with pwr := { s.pwr with req := none } }) := by
  simp only [exec, execWakeAccept]
  rw [hq]
  simp only [hr, ne_eq, not_true_eq_false, if_false]
  split
  next h => cases hp.symm.trans h
  next h => cases hp.symm.trans h
  · rfl
  next h => exact absurd hp h

/-- R313: the references' start writes the references, and notifies. -/
theorem refWake_kept (s : State) : Kept (refWake s) s ∧ (refWake s).ref.ovenFrom = s.ref.ovenFrom := by
  unfold refWake clockTo
  extract_lets
  refine ⟨(kept_notify _ _ _ _ _).trans (kept_refl s), ?_⟩
  rw [switchNote_ref]

theorem exec_ovenReady_boot {temp : Int} {s : State} (hc : s.aon.coppice = 0) (hp : s.pwr.phase = .boot 4)
    (ho : s.ref.ovenFrom = none) : ∃ u, exec (.ovenReady temp) s = .next u ∧ u.ref.ovenFrom = some s.time.resNs ∧
      u.pwr.phase = .boot 4 := by
  have hh : sequenceHeld s = false := by simp [sequenceHeld_boot hp, hc]
  obtain ⟨⟨hpw, -⟩, hoven⟩ := refWake_kept { s with
    pins := { s.pins with caseTemp := temp }, ref := { s.ref with ovenFrom := some s.time.resNs } }
  refine ⟨_, ?_, hoven, by rw [hpw]; exact hp⟩
  simp only [exec, execOvenReady, hh, Bool.false_eq_true, if_false]
  split
  · exact congrArg Host.Outcome.next (if_neg (by simp [ho]))
  next h => cases hp.symm.trans h
  next h => cases hp.symm.trans h
  next h _ _ => exact absurd hp h

theorem sequenceHeld_exit {o : PState} {k : Nat} {s : State} (hp : s.pwr.phase = .exit o k) :
    sequenceHeld s = decide (0 < s.aon.coppice) := by
  rw [sequenceHeld, hp]

/-- W4 of an exit: the references start and the domains are voted for. -/
def exitVote (o : PState) (s : State) : State :=
  let s3 := setPhase (.exit o 4) (refWake s)
  revote { s3 with pwr := { s3.pwr with bootVote := true } }

theorem exitVote_spec (o : PState) (s : State) : (exitVote o s).pwr.phase = .exit o 4 ∧ (exitVote o s).pwr.bootVote = true := by
  have hv := voted_revote { setPhase (.exit o 4) (refWake s) with
    pwr := { (setPhase (.exit o 4) (refWake s)).pwr with bootVote := true } }
  refine ⟨hv.phase.trans ?_, hv.bootVote⟩
  exact congrArg Pwr.phase (setPhase_pwr _ _)

theorem exec_ovenReady_sleep {temp : Int} {s : State} (hc : s.aon.coppice = 0) (hp : s.pwr.phase = .exit .sleep 1)
    (ht : temp ≤ 8000) : exec (.ovenReady temp) s = .next (exitVote .sleep { s with pins := { s.pins with caseTemp := temp } }) := by
  have hh : sequenceHeld s = false := by simp [sequenceHeld_exit hp, hc]
  simp only [exec, execOvenReady, hh, Bool.false_eq_true, if_false]
  split
  next h => cases hp.symm.trans h
  · rw [if_neg (by omega)]
    rfl
  next h => cases hp.symm.trans h
  next h _ => exact absurd hp h

/-- R374: above 80 °C an exit returns to DEEP. -/
theorem exec_ovenReady_hot {temp : Int} {s : State} (hc : s.aon.coppice = 0) (hp : s.pwr.phase = .exit .sleep 1)
    (ht : 8000 < temp) : exec (.ovenReady temp) s = .next (recordFault 0x04 0 (lowEntry .deep 8 none
      { s with pins := { s.pins with caseTemp := temp }, pwr := { s.pwr with req := none, then_ := none } })) := by
  have hh : sequenceHeld s = false := by simp [sequenceHeld_exit hp, hc]
  simp only [exec, execOvenReady, hh, Bool.false_eq_true, if_false]
  split
  next h => cases hp.symm.trans h
  · rw [if_pos ht]
  next h => cases hp.symm.trans h
  next h _ => exact absurd hp h

theorem setPhase_estimate (p : Phase) (s : State) : estimateCeil (setPhase p s) = estimateCeil s := by
  unfold estimateCeil estimateNum entryTicks extTimer
  rw [(setPhase_frame p s).2.2.1, (setPhase_frame p s).2.2.2.2.1]

theorem rateTo_kept (rate : Nat) (s : State) : (rateTo rate s).pwr = s.pwr ∧ (rateTo rate s).time.lts = s.time.lts ∧
    (rateTo rate s).time.running = s.time.running := by
  unfold rateTo
  split <;> exact ⟨rfl, rfl, rfl⟩

theorem restartIntegs_kept (s : State) : (restartIntegs s).pwr = s.pwr ∧ (restartIntegs s).time = s.time := ⟨rfl, rfl⟩

theorem anchorTasks_kept (sf : Sf) (s : State) : (anchorTasks sf s).pwr = s.pwr ∧ (anchorTasks sf s).time = s.time := ⟨rfl, rfl⟩

/-- R102: line time resumes at the whole superframe at or above the estimate. -/
theorem resumeTime_spec (s : State) : (resumeTime s).pwr = s.pwr ∧ (resumeTime s).time.running = true ∧
    (resumeTime s).time.lts = ⟨BitVec.ofNat 48 (estimateCeil s), 0⟩ ∧ (resumeTime s).time.rate = 272000000 := by
  obtain ⟨hp, hl, hr⟩ := rateTo_kept nominalRate
    { s with time := { s.time with lts := ⟨BitVec.ofNat 48 (estimateCeil s), 0⟩, running := true } }
  have hrate := rateTo_rate nominalRate
    { s with time := { s.time with lts := ⟨BitVec.ofNat 48 (estimateCeil s), 0⟩, running := true } }
  simp only [resumeTime, incomplete, restartIntegs_kept, anchorTasks_kept]
  exact ⟨hp, hr, hl, hrate⟩

theorem exec_lineTimeResume {o : PState} {s : State} (hp : s.pwr.phase = .exit o 4) (hd : domainsUp s = true) :
    exec .lineTimeResume s = .next (resumeTime (setPhase (.exit o 5) s)) := by
  simp only [exec, execLineTimeResume]
  split
  next o' h =>
    cases hp.symm.trans h
    rw [if_pos hd]
  next h => exact absurd hp (h o)

theorem restoreMode_off {s : State} (h : s.pwr.restoreAt7 = false) : restoreMode s = s := by
  have hs : { s with pwr := { s.pwr with restoreAt7 := false } } = s := by rw [← h]
  unfold restoreMode
  dsimp only
  rw [hs]
  split
  · rw [if_pos (by simp [h])]
  · rfl

theorem exec_wakeExitComplete {o : PState} {s : State} (hp : s.pwr.phase = .exit o 6) (hc : s.aon.coppice = 0)
    (ht : s.pwr.then_ = none) (h7 : s.pwr.restoreAt7 = false) (hh : s.pwr.heldReq = none) (hf : s.pins.freezeLow = false) :
    ∃ u, exec .wakeExitComplete s = .next u ∧ u.pwr.phase = .steady .run ∧ u.pwr.req = none ∧ u.pwr.bootVote = false := by
  have hsh : sequenceHeld s = false := by simp [sequenceHeld_exit hp, hc]
  have hk := reached_kept (stateCode o) .run { s with
    pwr := { s.pwr with bootVote := false, req := none, then_ := none }, hs := { s.hs with started := true } }
  obtain ⟨u3, hu3, hv⟩ : ∃ u3, exec .wakeExitComplete s = .next (freezeIfLow (serveHeld (restoreMode u3))) ∧
      Voted u3 (reached (stateCode o) .run { s with
        pwr := { s.pwr with bootVote := false, req := none, then_ := none }, hs := { s.hs with started := true } }) := by
    simp only [exec, execWakeExitComplete]
    split
    next o' h =>
      cases hp.symm.trans h
      simp only [hsh, Bool.false_eq_true, if_false, ht]
      refine ⟨_, rfl, ?_⟩
      split
      · exact (kept_pwrReply _ _ _ _).voted.trans (voted_revote _)
      · exact voted_revote _
    next h => exact absurd hp (h o)
  have hv' := hv.trans hk.voted
  have h7' : u3.pwr.restoreAt7 = false := by
    rw [hv'.1]
    exact h7
  obtain ⟨hreq, hheld, -⟩ := hv'.requests
  rw [hu3, restoreMode_off h7', serveHeld_none (hheld.trans hh), freezeIfLow_high (by rw [hv'.2.2.1]; exact hf)]
  exact ⟨_, rfl, hv'.phase, hreq, hv'.bootVote⟩

/-! ### WATCH (R359, R360) -/

theorem txAdvance_pwr (reason : Nat) (s : State) : (txAdvance reason s).pwr = s.pwr := by
  unfold txAdvance
  split
  · split <;> simp
  · split <;> simp
  · rfl

/-- What an exit from WATCH does about the line mode: a recorded mode is restored, else the output lights again. -/
def watchResume (s : State) : State :=
  match s.line.recorded with
  | some m => if s.aon.coppice < 4 then { s with line := { s.line with change := some (restoreChange m s) } } else s
  | none => txAdvance 1 s

theorem watchResume_pwr (s : State) : (watchResume s).pwr = s.pwr := by
  unfold watchResume
  split
  · split <;> rfl
  · exact txAdvance_pwr 1 s

theorem exec_watchExit {r : PwrReq} {s : State} (hq : s.pwr.req = some r) (hp : s.pwr.phase = .steady .watch)
    (hr : r.target = .run ∨ r.target = .idle) (hd : r.due.le (nowLts s) = true) (ht : ticking s = true) (hc : s.line.change = none)
    (hs : deferredSet s = false) : exec .watchExit s = .next (serveHeld (revote (watchResume
      (pwrReply r (stateCode r.target) false (reached 5 r.target
        { s with pwr := { s.pwr with req := none, watchOpen := false, lightActive := false } }))))) := by
  have hto : (decide (r.target = .run) || decide (r.target = .idle)) = true := by
    rcases hr with h | h <;> rw [h] <;> rfl
  have hgo : (decide (s.pwr.phase = .steady .watch) && (decide (r.target = .run) || decide (r.target = .idle)) &&
      r.due.le (nowLts s) && ticking s && s.line.change.isNone) = true := by
    rw [hto, hd, ht, hc, decide_eq_true hp]
    rfl
  simp only [exec, execWatchExit]
  rw [hq]
  dsimp only
  rw [if_pos hgo, hs]
  rfl

theorem watchExit_spec {r : PwrReq} {s : State} (hq : s.pwr.req = some r) (hp : s.pwr.phase = .steady .watch)
    (hr : r.target = .run ∨ r.target = .idle) (hd : r.due.le (nowLts s) = true) (ht : ticking s = true) (hc : s.line.change = none)
    (hs : deferredSet s = false) (hh : s.pwr.heldReq = none) : ∃ u, exec .watchExit s = .next u ∧
      u.pwr.phase = .steady r.target ∧ u.pwr.watchOpen = false ∧ (s.line.recorded = none → u.line.change = none) ∧
      (∀ m, s.line.recorded = some m → s.aon.coppice < 4 → ∃ ch, u.line.change = some ch ∧ ch.new = some m) := by
  rw [exec_watchExit hq hp hr hd ht hc hs]
  have hk := (kept_pwrReply r (stateCode r.target) false _).trans (reached_kept 5 r.target
    { s with pwr := { s.pwr with req := none, watchOpen := false, lightActive := false } })
  generalize pwrReply r (stateCode r.target) false (reached 5 r.target _) = s2 at hk
  obtain ⟨kp, -, -, kl, -, ka, -⟩ := hk
  have hv := voted_revote (watchResume s2)
  have hw := watchResume_pwr s2
  rw [serveHeld_none (hv.requests.2.1.trans (by rw [hw, kp]; exact hh))]
  refine ⟨_, rfl, hv.phase.trans (by rw [hw, kp]), hv.watch.1.trans (by rw [hw, kp]), fun hn => ?_, fun m hm hcop => ?_⟩
  · have hrec : s2.line.recorded = none := by
      rw [kl]
      exact hn
    rw [hv.2.2.2.1, watchResume, hrec]
    dsimp only
    rw [(txAdvance_time_line 1 s2).2, kl]
    exact hc
  · have hrec : s2.line.recorded = some m := by
      rw [kl]
      exact hm
    have hlow : s2.aon.coppice < 4 := by
      rw [ka.regs.1]
      exact hcop
    rw [hv.2.2.2.1, watchResume, hrec]
    dsimp only
    rw [if_pos hlow]
    exact ⟨_, rfl, rfl⟩

theorem windowStart_now {s : State} (h : s.time.lts.sf = s.pwr.watchNext) : BitVec.ofNat 48 (windowStart s) = s.pwr.watchNext := by
  rw [windowStart, h]
  simp

theorem exec_fenWatchWindow {s : State} (hp : s.pwr.phase = .steady .watch) (ht : ticking s = true) (hc : s.aon.coppice < 4) :
    (s.pwr.watchOpen = false → s.time.lts.sf.toNat < s.pwr.watchNext.toNat → exec .fenWatchWindow s = .next s) ∧
    (s.pwr.watchOpen = false → s.time.lts.sf = s.pwr.watchNext → exec .fenWatchWindow s = .next { s with pwr := { s.pwr with
      watchOpen := true, watchRun := 0, watchCmp := none, watchLight := false } }) ∧
    (s.pwr.watchOpen = true → s.pwr.watchNext.toNat + 16 ≤ s.time.lts.sf.toNat → exec .fenWatchWindow s = .next { s with
      pwr := { s.pwr with watchOpen := false, lightActive := false, lightSaid := s.pwr.lightSaid && s.pwr.watchLight,
                          watchRun := 0, watchCmp := none, watchNext := s.pwr.watchNext + BitVec.ofNat 48 s.pwr.watchPeriod } }) := by
  have hgo : ¬ (!(decide (s.pwr.phase = .steady .watch) && ticking s && decide (s.aon.coppice < 4))) = true := by
    simp [hp, ht, hc]
  have hx : exec .fenWatchWindow s = execFenWatchWindow s := rfl
  rw [hx, execFenWatchWindow, if_neg hgo]
  refine ⟨fun ho h => ?_, fun ho h => ?_, fun ho h => ?_⟩
  · rw [if_neg (by simp [ho]), if_pos h]
  · have hstart := windowStart_now h
    have hle : s.pwr.watchNext.toNat ≤ windowStart s := by
      exact Nat.le_add_right _ _
    rw [if_neg (by simp [ho]), if_neg (by rw [h]; omega), if_pos (by rw [h]; omega), hstart]
  · rw [if_pos ho, if_pos h]

/-- A compare in an open window of WATCH that counts: its run is one longer above the threshold, else over. -/
theorem exec_fenWatchCompare (p : Int) {s : State} (hp : s.pwr.phase = .steady .watch) (ht : ticking s = true)
    (hc : s.aon.coppice < 4) (ho : s.pwr.watchOpen = true) (hw : s.time.lts.sf.toNat < s.pwr.watchNext.toNat + 16)
    (hn : s.pwr.watchCmp ≠ some s.time.lts.sf) : exec (.fenWatchCompare p) s = .next
      (let n := if s.fe.losThr * 10 + 100 < p then s.pwr.watchRun + 1 else 0
       let s1 := { s with fe := { s.fe with power := p }, pwr := { s.pwr with watchRun := n, watchCmp := some s.time.lts.sf } }
       if 2 ≤ n then lightSeen p s1 else s1) := by
  refine congrArg Host.Outcome.next (if_pos ?_)
  simp [hp, ht, hc, ho, hw, hn]

/-- The light that WATCH has seen is the same in `u` as in `s`. -/
def SameLight (u s : State) : Prop := u.pwr.watchLight = s.pwr.watchLight ∧ u.pwr.lightActive = s.pwr.lightActive

theorem Kept.light {u s : State} (h : Kept u s) : SameLight u s := by
  obtain ⟨hp, -⟩ := h
  exact ⟨by rw [hp], by rw [hp]⟩

theorem SameLight.trans {u t s : State} (h1 : SameLight u t) (h2 : SameLight t s) : SameLight u s :=
  ⟨h1.1.trans h2.1, h1.2.trans h2.2⟩

theorem reached_light (old : Nat) (st : PState) (s : State) : SameLight (reached old st s) s :=
  (reached_kept old st s).light.trans ⟨rfl, rfl⟩

theorem holdRequest_light (r : PwrReq) (s : State) : SameLight (holdRequest r s) s := by
  unfold holdRequest
  split
  · exact SameLight.trans ⟨rfl, rfl⟩ (kept_pwrRefuse _ _ s).light
  · exact ⟨rfl, rfl⟩

theorem startRequest_light (r : PwrReq) (s : State) : SameLight (startRequest r s) s := by
  unfold startRequest
  split
  · exact ⟨rfl, rfl⟩
  · split
    · exact (kept_pwrReply _ _ _ s).light
    · split
      · exact (kept_pwrReply _ _ _ _).light.trans (reached_light _ _ s)
      · exact (kept_pwrReply _ _ _ _).light.trans (reached_light _ _ s)
      · split
        · exact (kept_pwrRefuse _ _ s).light
        · exact ⟨rfl, rfl⟩
      · split
        · exact (kept_pwrRefuse _ _ s).light
        · exact ⟨rfl, rfl⟩
      · exact ⟨rfl, rfl⟩
      · exact ⟨rfl, rfl⟩
      · exact ⟨rfl, rfl⟩

theorem wake_light (k : Nat) (s : State) : SameLight (wake k s) s := by
  unfold wake
  split
  · exact ⟨rfl, rfl⟩
  · extract_lets _ s1
    split
    · split
      · exact (holdRequest_light _ s1).trans ⟨rfl, rfl⟩
      · split
        · split
          · unfold powerRequest
            split
            · exact (holdRequest_light _ s1).trans ⟨rfl, rfl⟩
            · exact (startRequest_light _ s1).trans ⟨rfl, rfl⟩
          · exact ⟨rfl, rfl⟩
        · exact ⟨rfl, rfl⟩
    · exact (holdRequest_light _ s1).trans ⟨rfl, rfl⟩
    · exact (holdRequest_light _ s1).trans ⟨rfl, rfl⟩
    · exact ⟨rfl, rfl⟩

theorem lightSeen_light (p : Int) (s : State) : (lightSeen p s).pwr.watchLight = true ∧ (lightSeen p s).pwr.lightActive = true := by
  unfold lightSeen
  extract_lets _ s1
  have h1 : s1.pwr.watchLight = true ∧ s1.pwr.lightActive = true := ⟨rfl, rfl⟩
  have of : ∀ u, SameLight u s1 → u.pwr.watchLight = true ∧ u.pwr.lightActive = true :=
    fun u h => ⟨h.1.trans h1.1, h.2.trans h1.2⟩
  split
  · split
    · exact h1
    · exact of _ (wake_light 3 s1)
  · split
    · exact h1
    · exact of _ ((kept_notify _ _ _ _ _).light.trans ⟨rfl, rfl⟩)

theorem fenWatchCompare_spec {p : Int} {s : State} (hp : s.pwr.phase = .steady .watch) (ht : ticking s = true)
    (hc : s.aon.coppice < 4) (ho : s.pwr.watchOpen = true) (hw : s.time.lts.sf.toNat < s.pwr.watchNext.toNat + 16) :
    (s.pwr.watchCmp = some s.time.lts.sf → exec (.fenWatchCompare p) s = .next s) ∧
    (s.pwr.watchCmp ≠ some s.time.lts.sf → p ≤ s.fe.losThr * 10 + 100 → exec (.fenWatchCompare p) s =
      .next { s with fe := { s.fe with power := p }, pwr := { s.pwr with watchRun := 0, watchCmp := some s.time.lts.sf } }) ∧
    (s.pwr.watchCmp ≠ some s.time.lts.sf → s.fe.losThr * 10 + 100 < p → s.pwr.watchRun = 0 → exec (.fenWatchCompare p) s =
      .next { s with fe := { s.fe with power := p }, pwr := { s.pwr with watchRun := 1, watchCmp := some s.time.lts.sf } }) ∧
    (s.pwr.watchCmp ≠ some s.time.lts.sf → s.fe.losThr * 10 + 100 < p → s.pwr.watchRun = 1 → ∃ u,
      exec (.fenWatchCompare p) s = .next u ∧ u.pwr.watchLight = true ∧ u.pwr.lightActive = true) := by
  refine ⟨fun h => ?_, fun hn h => ?_, fun hn h h0 => ?_, fun hn h h1 => ?_⟩
  · exact congrArg Host.Outcome.next (if_neg (by simp [h]))
  · rw [exec_fenWatchCompare p hp ht hc ho hw hn, if_neg (not_lt.mpr h)]
    rfl
  · rw [exec_fenWatchCompare p hp ht hc ho hw hn, if_pos h, h0]
    rfl
  · rw [exec_fenWatchCompare p hp ht hc ho hw hn, if_pos h, h1]
    exact ⟨_, rfl, lightSeen_light _ _⟩

/-- Settles O56: an entry, the end of its window, the steps of an exit and the windows of WATCH, each by its own lemma. -/
theorem lowStates : Obligations.LowStates := by
  unfold Obligations.LowStates
  refine ⟨?_, ?_, ?_, ?_, ?_, ?_, ?_, ?_, ?_⟩
  · intro r st s hq hp hx hd hc hf hs
    obtain ⟨b, hb⟩ := exec_lowStateEntry hq hp hx hd hc hf hs
    exact ⟨_, hb, lowEntry_spec hx 0 (some r) hp⟩
  · exact fun target origin s hp hh hw ha => exec_entryWindowEnd hp hh hw ha
  · intro r s hq hr
    refine ⟨fun hp => ⟨_, exec_wakeAccept_sleep hq hr hp, by rw [setPhase_pwr]⟩, fun hp hc => exec_wakeAccept_deep hq hr hp hc,
      fun hp => ⟨_, exec_wakeAccept_off hq hr hp, by rw [setPhase_pwr], by rw [setPhase_pwr]⟩⟩
  · intro temp s hc
    refine ⟨fun hp ho => exec_ovenReady_boot hc hp ho, fun hp ht => ⟨_, exec_ovenReady_sleep hc hp ht, exitVote_spec _ _⟩,
      fun hp ht => ⟨_, exec_ovenReady_hot hc hp ht, ?_⟩⟩
    have hl := (lowEntry_off (.inl rfl) 8 none
      { s with pins := { s.pins with caseTemp := temp }, pwr := { s.pwr with req := none, then_ := none } }).1
    have ho : entryOrigin s.pwr.phase = .sleep := by
      rw [hp]
      rfl
    simp only [recordFault_frame, recordFault_code]
    exact ⟨hl.trans (by rw [← ho]), trivial, trivial⟩
  · intro o s hp hd
    obtain ⟨h1, h2, h3, h4⟩ := resumeTime_spec (setPhase (.exit o 5) s)
    exact ⟨_, exec_lineTimeResume hp hd, by rw [h1, setPhase_pwr], h2, by rw [h3, setPhase_estimate], h4⟩
  · exact fun o s hp hc ht h7 hh hf => exec_wakeExitComplete hp hc ht h7 hh hf
  · exact fun r s hq hp hr hd ht hc hs hh => watchExit_spec hq hp hr hd ht hc hs hh
  · exact fun s hp ht hc => exec_fenWatchWindow hp ht hc
  · exact fun p s hp ht hc ho hw => fenWatchCompare_spec hp ht hc ho hw

end Sys2Proof.Machine

end


section

/-! ## Coppicing levels, the orderly off and the case temperature -/

namespace Sys2Proof.Machine

open Sys2Proof

/-! ### The coppicing level and the work shed, through what a level does -/

/-- The coppicing level and the level whose work has been shed are the same in `u` as in `s`. -/
def SameLevels (u s : State) : Prop := u.aon.coppice = s.aon.coppice ∧ u.pwr.shed = s.pwr.shed

theorem sameLevels_refl (s : State) : SameLevels s s := ⟨rfl, rfl⟩

theorem SameLevels.trans {u t s : State} (h1 : SameLevels u t) (h2 : SameLevels t s) : SameLevels u s :=
  ⟨h1.1.trans h2.1, h1.2.trans h2.2⟩

theorem Voted.levels {u s : State} (h : Voted u s) : SameLevels u s := ⟨h.coppice, h.shed⟩

theorem Kept.levels {u s : State} (h : Kept u s) : SameLevels u s := h.voted.levels

theorem kept_notifyAt (e c : Half) (b : Option Bool) (d : List Byte) (t : Lts) (s : State) : Kept (notifyAt e c b d t s) s :=
  (linkOnly_notifyAt e c b d t s).toKept

theorem kept_fecEvent (st cause : Nat) (s : State) : Kept (fecEvent st cause s) s := by
  unfold fecEvent
  split
  · exact kept_notifyAt _ _ _ _ _ s
  · exact kept_refl s

theorem kept_framerClose (cause : Nat) (t : Lts) (s : State) : Kept (framerClose cause t s) s := kept_refl s

theorem kept_fecDrop (st cause : Nat) (s : State) : Kept (fecDrop st cause s) s := by
  unfold fecDrop
  extract_lets was _ _ s1
  refine (kept_framerClose _ _ _).trans ?_
  split
  · exact (kept_fecEvent _ _ s1).trans (kept_refl s)
  · exact kept_refl s

theorem kept_freezeTrip (t : FreezeTrig) (s : State) : Kept (freezeTrip t s) s := by
  unfold freezeTrip
  split <;> exact kept_refl s

theorem kept_eqEvent (old new reason : Nat) (warm : Bool) (s : State) : Kept (eqEvent old new reason warm s) s := by
  unfold eqEvent
  split
  · exact kept_refl s
  · exact kept_notifyAt _ _ _ _ _ s

theorem kept_refreshRaws (s : State) : Kept (refreshRaws s) s := kept_refl s

theorem kept_eqMove (new reason : Nat) (warm : Bool) (s : State) : Kept (eqMove new reason warm s) s := by
  unfold eqMove
  extract_lets e sf e1 e2 _ _ s1 _ s2
  have h1 : Kept s1 s := by
    refine (kept_eqEvent _ _ _ _ _).trans ⟨rfl, rfl, rfl, rfl, ?_, rfl, rfl, rfl⟩
    dsimp only
    split <;> rfl
  have h2 : Kept s2 s := by
    unfold s2
    split
    · exact (kept_fecDrop _ _ _).trans ((kept_freezeTrip _ s1).trans h1)
    · split <;> exact h1
  exact (kept_refreshRaws s2).trans h2

theorem kept_eqToA0 (reason : Nat) (s : State) : Kept (eqToA0 reason s) s := by
  unfold eqToA0
  split
  · exact kept_refreshRaws s
  · exact kept_eqMove _ _ _ s

theorem levels_stopRx (cause : Nat) (s : State) : SameLevels (stopRx cause s) s := by
  unfold stopRx
  split
  · extract_lets _ _ s1
    have hk : Kept (replaceAll (eqToA0 0x0D (fecDrop 0 cause s1))) s1 := (kept_eqToA0 _ _).trans (kept_fecDrop _ _ s1)
    exact hk.levels.trans ⟨rfl, rfl⟩
  · exact sameLevels_refl s

theorem kept_endRestarts (s : State) : Kept (endRestarts s) s := by
  unfold endRestarts
  extract_lets _ s1
  have h1 : Kept s1 s := by
    unfold s1
    split
    · exact kept_answerLate (fun s => kept_respond _ _ _ _ _ s) _
    · exact kept_refl s
  split
  · exact (kept_answerLate (fun s => kept_respond _ _ _ _ _ s) _).trans h1
  · exact h1

theorem kept_txMove (st : Opt) (reason : Nat) (q : Bool) (s : State) : Kept (txMove st reason q s) s := by
  unfold txMove txMoveAt
  split
  · exact kept_refl s
  · extract_lets _ s1
    split
    · exact kept_refl s
    · exact (kept_notifyAt _ _ _ _ _ s1).trans (kept_refl s)

theorem kept_txDark (reason : Nat) (s : State) : Kept (txDark reason s) s := by
  unfold txDark
  split
  · exact kept_refl s
  · exact (kept_txMove _ _ _ _).trans (kept_refl s)

theorem kept_freezeEnd (s : State) : Kept (freezeEnd s) s := by
  unfold freezeEnd
  extract_lets note _ _ s1 s2 back
  refine (kept_notifyAt _ _ _ _ _ _).trans ((linkOnly_releaseAll _).toKept.trans ?_)
  split
  · exact (linkOnly_linkReturn 5 s2).toKept.trans (kept_refl s)
  · exact kept_refl s

theorem levels_pwrRefuse (r : PwrReq) (st : St) (s : State) : SameLevels (pwrRefuse r st s) s := (kept_pwrRefuse r st s).levels

theorem levels_changeAnswer (ch : Change) (s : State) : SameLevels (changeAnswer ch s) s := by
  unfold changeAnswer
  extract_lets _ s1
  split
  · exact (kept_answerLate (fun s => kept_respond _ _ _ _ _ s) s1).levels.trans ⟨rfl, rfl⟩
  · exact ⟨rfl, rfl⟩

theorem levels_changeInterrupt (s : State) : SameLevels (changeInterrupt s) s := by
  unfold changeInterrupt
  split
  · exact sameLevels_refl s
  · split
    · extract_lets _ s1 s2
      have h2 : SameLevels s2 s := by
        unfold s2
        split
        · exact (kept_respond _ _ _ _ _ s1).levels.trans ⟨rfl, rfl⟩
        · exact ⟨rfl, rfl⟩
      split
      · split
        · exact (levels_pwrRefuse _ _ _).trans (SameLevels.trans ⟨rfl, rfl⟩ h2)
        · exact h2
      · exact h2
    · extract_lets s1
      have h1 : SameLevels s1 s := levels_changeAnswer _ s
      split
      · exact SameLevels.trans ⟨rfl, rfl⟩ h1
      · exact h1

/-! ### The work of the levels -/

theorem kept_capAbort (b : Bool) (s : State) : Kept (capAbort b s) s := by
  unfold capAbort capNote
  split
  · exact kept_refl s
  · split
    · exact kept_refl s
    · exact (kept_notifyAt _ _ _ _ _ _).trans (kept_refl s)

theorem kept_agePause (scan : Bool) (s : State) : Kept (agePause scan s) s := by
  unfold agePause
  split
  · exact kept_refl s
  · exact ⟨rfl, rfl, rfl, rfl, rfl, rfl, rfl, rfl⟩

theorem levels_shed3 (s : State) : SameLevels (shed3 s) s := by
  unfold shed3
  extract_lets s1
  have h1 : Kept s1 s := by
    unfold s1
    split
    · exact (linkOnly_linkHold _ _ s).toKept
    · exact kept_refl s
  exact (voted_revote _).levels.trans ((kept_agePause true s1).trans h1).levels

theorem kept_linkShutdown (s : State) : Kept (linkShutdown s) s := by
  unfold linkShutdown sendControl
  split
  · exact (linkOnly_linkHold _ _ _).toKept.trans (kept_refl s)
  · exact kept_refl s

theorem levels_stopTx (s : State) : SameLevels (stopTx s) s := ⟨rfl, rfl⟩

theorem levels_line (s : State) (l : Line) (h : Hl) : SameLevels { s with
    line := l, hl := h, pwr := { s.pwr with watchOpen := false, lightActive := false } } s := ⟨rfl, rfl⟩

theorem levels_shed4 (s : State) : SameLevels (shed4 s) s := by
  have h1 := (levels_stopTx _).trans ((levels_stopRx 2 _).trans (kept_endRestarts s).levels)
  have h2 := (kept_linkShutdown _).levels.trans ((kept_flushLog _).levels.trans ((kept_mergeFlushAll _).levels.trans h1))
  exact (voted_revote _).levels.trans ((levels_line _ _ _).trans h2)

theorem levels_shedLevel (s : State) (level : Nat) : SameLevels (shedLevel s level) s := by
  unfold shedLevel
  split
  · exact (kept_capAbort true s).levels
  · exact sameLevels_refl s
  · exact levels_shed3 s
  · exact levels_shed4 s
  · exact sameLevels_refl s

theorem levels_foldl {α : Type} {f : State → α → State} (hf : ∀ s x, SameLevels (f s x) s) (l : List α) (s : State) :
    SameLevels (l.foldl f s) s := by
  induction l generalizing s with
  | nil => exact sameLevels_refl s
  | cons x l ih => exact (ih _).trans (hf s x)

/-! ### Setting a level (R369, R370) -/

theorem kept_coppiceNote (level : Nat) (set : Bool) (deepest : Nat) (s : State) : Kept (coppiceNote level set deepest s) s := by
  unfold coppiceNote
  split
  · exact kept_notify _ _ _ _ s
  · exact kept_refl s

theorem levels_setLevel (deepest : Nat) (s : State) (level : Nat) : SameLevels (setLevel deepest s level) s :=
  (kept_coppiceNote _ _ _ _).levels.trans ⟨rfl, rfl⟩

theorem levels_thaw (s : State) : SameLevels (if s.dbg.frozen then freezeEnd s else s) s := by
  split
  · exact (kept_freezeEnd s).levels
  · exact sameLevels_refl s

theorem levels_cutAtC4 (s : State) : SameLevels (cutAtC4 s) s :=
  (kept_txDark 5 _).levels.trans ((levels_changeInterrupt _).trans (levels_thaw s))

theorem orderlyOff_spec (s : State) : (orderlyOff s).pwr.phase = .orderlyOff ∧ (orderlyOff s).hif.ready = false ∧
    (orderlyOff s).time.running = false := by
  unfold orderlyOff
  extract_lets s1 s2 s3
  refine ⟨by rw [setPhase_pwr], ?_, ?_⟩
  · rw [setPhase_ready]
    exact (setReady_ready _ _).1
  · rw [(setPhase_frame _ _).2.2.1, (setReady_frame _ _).2.2.1]

/-- The levels of `old` to `new`, set one after another on the state in which `new` is in force. -/
def levelsSet (mv : Nat) (s : State) : State :=
  ((List.range (levelBelow mv - s.aon.coppice)).map (· + (s.aon.coppice + 1))).foldl (setLevel (levelBelow mv))
    { measureVin mv s with aon := { (measureVin mv s).aon with coppice := levelBelow mv } }

theorem levelsSet_coppice (mv : Nat) (s : State) : (levelsSet mv s).aon.coppice = levelBelow mv :=
  (levels_foldl (levels_setLevel _) _ _).1

theorem exec_coppiceSet {mv : Nat} {s : State} (hv : s.pins.vsbValid = true) (h : s.aon.coppice < levelBelow mv) :
    exec (.coppiceSet mv) s = .next (if levelBelow mv = 5 then (if c5Acts s then orderlyOff (levelsSet mv s) else levelsSet mv s)
      else if 4 ≤ levelBelow mv then cutAtC4 (levelsSet mv s) else levelsSet mv s) := by
  have hmax : max s.aon.coppice (levelBelow mv) = levelBelow mv := max_eq_right (Nat.le_of_lt h)
  have hx : exec (.coppiceSet mv) s = execCoppiceSet mv s := rfl
  rw [hx]
  unfold execCoppiceSet
  dsimp only
  rw [hmax, if_neg (by simp [hv]), if_neg (Nat.ne_of_gt h)]
  rfl

theorem exec_coppiceSet_same {mv : Nat} {s : State} (hv : s.pins.vsbValid = true) (h : levelBelow mv ≤ s.aon.coppice) :
    exec (.coppiceSet mv) s = .next (measureVin mv s) := by
  have hmax : max s.aon.coppice (levelBelow mv) = s.aon.coppice := max_eq_left h
  have hx : exec (.coppiceSet mv) s = execCoppiceSet mv s := rfl
  rw [hx]
  unfold execCoppiceSet
  dsimp only
  rw [hmax, if_neg (by simp [hv]), if_pos rfl]

/-! ### Shedding and clearing -/

theorem exec_coppiceShed {s : State} (hf : s.dbg.frozen = false) (ht : taskHeld .power s = false)
    (hr : shedsAsRun s = true ∨ inSleep s = true) (hsym : ticking s = true → s.time.lts.sym = 0) (h : s.pwr.shed < s.aon.coppice) :
    ∃ u, exec .coppiceShed s = .next u ∧ u.pwr.shed = s.aon.coppice := by
  have hgo : ¬ (s.aon.coppice ≤ s.pwr.shed ∨ s.dbg.frozen = true ∨ taskHeld .power s = true ∨
      (ticking s = true ∧ s.time.lts.sym ≠ 0)) := by
    rintro (h1 | h1 | h1 | ⟨h1, h2⟩)
    · omega
    · rw [hf] at h1
      cases h1
    · rw [ht] at h1
      cases h1
    · exact h2 (hsym h1)
  have hx : exec .coppiceShed s = execCoppiceShed s := rfl
  rw [hx, execCoppiceShed, if_neg hgo]
  dsimp only
  split
  · exact ⟨_, rfl, (levels_foldl levels_shedLevel _ _).2⟩
  next hrun =>
    rw [if_pos (hr.resolve_left hrun)]
    split
    · exact ⟨_, rfl, ((kept_flushLog _).voted.trans (voted_revote _)).shed⟩
    · exact ⟨_, rfl, rfl⟩

theorem levels_restoreAfterC4 (s : State) : SameLevels (restoreAfterC4 s) s := by
  unfold restoreAfterC4
  split
  · exact sameLevels_refl s
  · split
    · split <;> exact ⟨rfl, rfl⟩
    · exact sameLevels_refl s

theorem levels_lanesBack (s : State) : SameLevels (lanesBack s) s := by
  unfold lanesBack
  split
  · exact sameLevels_refl s
  · split
    · exact (linkOnly_linkReturn 4 s).toKept.levels
    · exact sameLevels_refl s

theorem levels_sequenceGoesOn (s : State) : SameLevels (sequenceGoesOn s) s := by
  unfold sequenceGoesOn
  split
  · exact ⟨rfl, rfl⟩
  · exact (voted_revote s).levels

theorem resumeWork_coppice (old new : Nat) (s : State) : (resumeWork old new s).aon.coppice = s.aon.coppice := by
  unfold resumeWork
  extract_lets _ s1 s2 s3
  have h2 : s2.aon.coppice = s.aon.coppice := by
    unfold s2
    split
    · exact (levels_restoreAfterC4 s1).1
    · rfl
  have h3 : s3.aon.coppice = s.aon.coppice := by
    unfold s3
    split
    · exact (levels_lanesBack s2).1.trans h2
    · exact h2
  split
  · exact h3
  · split
    · exact (voted_revote s3).coppice.trans h3
    · exact (levels_sequenceGoesOn s3).1.trans h3

theorem levelLeft_le (mv n : Nat) : levelLeft mv n ≤ n := by
  induction n with
  | zero => exact Nat.le_refl 0
  | succ n ih =>
    rw [levelLeft]
    split
    · exact Nat.le_succ_of_le ih
    · exact Nat.le_refl _

theorem lt_clearsAt_levelLeft {mv n : Nat} (h : 0 < levelLeft mv n) : mv < clearsAtMv (levelLeft mv n) := by
  induction n with
  | zero => exact absurd h (Nat.lt_irrefl 0)
  | succ n ih =>
    rw [levelLeft] at h ⊢
    split at h
    next hc =>
      rw [if_pos hc]
      exact ih h
    next hc =>
      rw [if_neg hc]
      exact Nat.lt_of_not_le hc

/-- One level cleared, with its notification. -/
def clearLevel (s : State) (level : Nat) : State :=
  coppiceNote level false (level - 1) { s with aon := { s.aon with coppice := level - 1 } }

theorem clearLevel_coppice (s : State) (level : Nat) : (clearLevel s level).aon.coppice = level - 1 :=
  (kept_coppiceNote _ _ _ _).levels.1

theorem clearLevels_coppice (old k : Nat) (hk : 0 < k) (s : State) :
    (((List.range k).map fun i => old - i).foldl clearLevel s).aon.coppice = old - k := by
  obtain ⟨j, rfl⟩ := Nat.exists_eq_succ_of_ne_zero (Nat.ne_of_gt hk)
  rw [List.range_succ, List.map_append, List.foldl_append]
  exact (clearLevel_coppice _ _).trans (Nat.sub_sub old j 1)

theorem exec_coppiceClear {mv : Nat} {s : State} (hv : s.pins.vsbValid = true) (hp : s.pwr.phase ≠ .orderlyOff)
    (h : levelLeft mv s.aon.coppice ≠ s.aon.coppice) : ∃ u, exec (.coppiceClear mv) s = .next u ∧
      u.aon.coppice = levelLeft mv s.aon.coppice := by
  have hle := levelLeft_le mv s.aon.coppice
  have hx : exec (.coppiceClear mv) s = .next (resumeWork s.aon.coppice (levelLeft mv s.aon.coppice)
      (((List.range (s.aon.coppice - levelLeft mv s.aon.coppice)).map fun i => s.aon.coppice - i).foldl clearLevel (measureVin mv s))) := by
    have he : exec (.coppiceClear mv) s = execCoppiceClear mv s := rfl
    rw [he]
    unfold execCoppiceClear
    dsimp only
    rw [if_neg (by simp [hv, hp]), if_neg h]
    rfl
  refine ⟨_, hx, ?_⟩
  rw [resumeWork_coppice, clearLevels_coppice _ _ (by omega)]
  omega

/-! ### The orderly off and the case temperature (R373, R374) -/

theorem exec_orderlyOffDone {s : State} (hp : s.pwr.phase = .orderlyOff) (hr : s.pins.resetLow = false)
    (hh : s.pwr.heldReq = none) : ∃ u, exec .orderlyOffDone s = .next u ∧ u.pwr.phase = .steady .off ∧ u.aon.code = 0x03 ∧
      u.aon.valid = true ∧ u.aon.supplyArmed = true ∧ u.pwr.powered = 1 := by
  have hx : exec .orderlyOffDone s = execOrderlyOffDone s := rfl
  rw [hx, execOrderlyOffDone, if_pos hp]
  dsimp only
  rw [if_neg (by simp [hr]), if_neg (by simp [hh])]
  refine ⟨_, rfl, ?_⟩
  simp only [setPhase_pwr, setPhase_frame, recordFault_frame, recordFault_code]
  exact ⟨trivial, trivial, trivial, rfl, trivial⟩

theorem exec_caseTempMeasure {temp : Int} {s : State} (hw : wardenRuns s = true) (hm : domIn s.pwr.powered .mgmt = true) :
    ∃ u, exec (.caseTempMeasure temp) s = .next u ∧ Kept u { s with
      pins := { s.pins with caseTemp := temp },
      pwr := { s.pwr with
        thermal := if 7800 ≤ temp then true else if temp < 7600 then false else s.pwr.thermal, hotFrom := hotSince temp s } } := by
  have hx : exec (.caseTempMeasure temp) s = execCaseTempMeasure temp s := rfl
  rw [hx, execCaseTempMeasure, if_pos (by rw [hw, hm]; rfl)]
  refine ⟨_, rfl, ?_⟩
  generalize (if 7800 ≤ temp then true else if temp < 7600 then false else s.pwr.thermal) = warn
  dsimp only
  split
  · exact kept_refl _
  · exact kept_notify _ _ _ _ _

theorem hotLong_of {a : Nat} {s : State} (ha : s.pwr.hotFrom = some a) (hw : wardenPassed a 1 s = true) : hotLong s = true := by
  rw [hotLong, ha]
  exact hw

theorem exec_overtempShutdown {a : Nat} {s : State} (ha : s.pwr.hotFrom = some a) (hp : wardenPassed a 1 s = true)
    (ht : 8500 ≤ s.pins.caseTemp) (hw : wardenRuns s = true) (hm : domIn s.pwr.powered .mgmt = true) :
    ∃ t, exec .overtempShutdown s = .next (recordFault 0x04 0 (lowEntry .deep 8 none t)) := by
  have hgo : (hotLong s && decide (8500 ≤ s.pins.caseTemp) && wardenRuns s && domIn s.pwr.powered .mgmt) = true := by
    rw [hotLong_of ha hp, decide_eq_true ht, hw, hm]
    rfl
  have hx : exec .overtempShutdown s = execOvertempShutdown s := rfl
  rw [hx, execOvertempShutdown, if_pos hgo]
  exact ⟨_, rfl⟩

/-- Settles O57: what a level sets off keeps the level; a clear keeps the level it leaves; the orderly off and the shutdown end
in their phases. -/
theorem coppicing : Obligations.Coppicing := by
  unfold Obligations.Coppicing
  refine ⟨?_, ?_, ?_, ?_, ?_, ?_, ?_, ?_, ?_⟩
  · decide
  · intro mv s hv
    refine ⟨exec_coppiceSet_same hv, fun h h5 => ?_, fun h h5 hc => ?_⟩
    · refine ⟨_, exec_coppiceSet hv h, ?_⟩
      rw [if_neg (Nat.ne_of_lt h5)]
      split
      · exact (levels_cutAtC4 _).1.trans (levelsSet_coppice mv s)
      · exact levelsSet_coppice mv s
    · refine ⟨_, exec_coppiceSet hv (by omega), ?_⟩
      rw [if_pos h5, if_pos hc]
      exact orderlyOff_spec _
  · intro s hf ht hr hsym
    exact ⟨exec_coppiceShed hf ht hr hsym, fun h => congrArg Host.Outcome.next (if_pos (.inl h))⟩
  · intro mv s hv hp
    refine ⟨fun h => ?_, exec_coppiceClear hv hp⟩
    have he : exec (.coppiceClear mv) s = execCoppiceClear mv s := rfl
    rw [he]
    unfold execCoppiceClear
    dsimp only
    rw [if_neg (by simp [hv, hp]), if_pos h]
  · exact fun mv n => ⟨levelLeft_le mv n, lt_clearsAt_levelLeft⟩
  · exact fun s hp hr hh => exec_orderlyOffDone hp hr hh
  · intro temp s hw hm
    obtain ⟨u, hu, kp, -, ki, -⟩ := exec_caseTempMeasure (temp := temp) hw hm
    refine ⟨u, hu, by rw [ki], ?_, ?_, ?_, ?_, ?_⟩ <;> rw [kp]
    · exact fun h => if_pos h
    · exact fun h => if_neg (by omega)
    · exact fun h => if_pos h
    · exact fun h => (if_neg (by omega)).trans (if_pos h)
    · exact fun h1 h2 => (if_neg (by omega)).trans (if_neg (by omega))
  · intro a s ha hp ht hw hm
    obtain ⟨t, hu⟩ := exec_overtempShutdown ha hp ht hw hm
    obtain ⟨h1, h2, -⟩ := lowEntry_off (.inl rfl) 8 none t
    exact ⟨_, _, hu, (by simpa only [recordFault_frame] using h1), rfl, rfl, (by simpa only [recordFault_frame] using h2)⟩
  · intro s h
    exact congrArg Host.Outcome.next (if_neg (by simp [h]))

end Sys2Proof.Machine

end
